-- ==== Sys2Proof/Word.lean ====
section
/-! DEFINITION. The word types of the model: bytes of memory and the bit vectors of splice registers. Everything else the spec
counts, numbers or indexes is a Nat. -/
namespace Sys2Proof

/-- One byte of memory or of a packet. -/
abbrev Byte := BitVec 8

/-- A 32-bit vector lane (R223). -/
abbrev Lane := BitVec 32

/-- A 64-bit scalar register (R223). -/
abbrev Word := BitVec 64

end Sys2Proof
end

