-- ==== Sys2Proof/Machine/Facts.lean ====
section
/-! DEFINITION. The facts that come with a command from outside: what a device, a check or the wire answered. They are operands of the commands of
Syntax. -/
namespace Sys2Proof

/-- What the SECDED code of engine memory finds on a read (R195). -/
inductive Ecc where
  | ok
  | corrected
  | uncorrectable
  deriving DecidableEq, Repr

/-- What the verification of a Cleat hit finds in the stored entry (R380). -/
inductive Verify where
  | confirmed
  | refuted
  | uncorrectable
  deriving DecidableEq, Repr

/-- What a read of a page finds in its tier (R74, R134, R135): the data, an uncorrectable error, a MAC failure, after which the second copy
verifies or does not, or no answer of a tray within the request timeout. -/
inductive TierRead where
  | ok
  | uncorrectable
  | macFail (secondOk : Bool)
  | timeout
  deriving DecidableEq, Repr

/-- A fence ordered set (R456): a control block with sync header 0b10, of a block type and an O code, with its three data bytes. -/
structure FenceSet where
  type : Nat := 0x4B
  o : Nat := 0
  d1 : Nat
  d2 : Nat
  d3 : Nat
  deriving DecidableEq, Repr

/-- What the home of a near-pool source at another switch of the stage answers (R130): the bytes of the range, or why it does not serve it: the extent's state, a range
that crosses its boundary, or rights that fail there. -/
inductive FarSource where
  | data (bs : List Byte)
  | revoked
  | busy
  | lost
  | crosses
  | denied
  deriving DecidableEq, Repr

/-- From where the map of a flash tray is restored (R155, R156): its own journal, read up to a record that fails its check where there is one, the journal mirrored to the
partner, or neither. -/
inductive MapSource where
  | tray (bad : Option Nat)
  | partner
  | none
  deriving DecidableEq, Repr

/-- MetaValue of a MemRd (R166). -/
inductive MetaValue where
  | i
  | s
  | a
  deriving DecidableEq, Repr

/-- The D2H snoop responses (R166). -/
inductive SnoopKind where
  | iHitI | vHitV | iHitSE | sHitSE | sFwdM | iFwdM | vFwdV
  deriving DecidableEq, Repr

/-- The M2S BIRsp messages (R166). -/
inductive BiRsp where
  | i
  | s
  | e
  deriving DecidableEq, Repr

/-- The place of a packet in an RDMA WRITE (R89): the first or only packet carries R_Key, virtual address and DMA length. -/
inductive WriteSeg where
  | first (rkey va len : Nat)
  | next
  deriving DecidableEq, Repr

/-- What answers on a port at TRAY_ATTACH (R117, R138): KIND, capacity in bytes, and for a flash tray its zones, the chunks of 64 KiB of a zone, and whether it
meets every requirement. -/
structure TrayDev where
  kind : Nat
  bytes : Nat
  zones : Nat := 0
  cz : Nat := 0
  fits : Bool := true
  deriving DecidableEq, Repr

/-- Why a page moves (R126, R127). -/
inductive Move where
  | promote
  | demote
  | prefetch
  deriving DecidableEq, Repr

/-- A completed shadow run (R340, R517): of a work item, of a granule of a group, or of an `mma` of an engine on another engine. -/
inductive ShadowRun where
  | item (i : Nat)
  | granule (group gran : Nat)
  | mma (eng other : Nat)
  deriving DecidableEq, Repr

/-- What the receiver of a port found wrong with a frame (R414, R441, R454). -/
inductive RxErr where
  | none
  | size
  | fcs
  | macsec
  deriving DecidableEq, Repr

/-- A received frame as the classifier sees it (R416 to R418): frame bytes with FCS, whether its packet is for the memory plane (BTP), VLAN ID where it carries one tag, DSCP
and length of an IP packet, whether it is ECN-capable, and the tag and key under which its forwarding entry is looked up, which the spec does not state; its bytes from the
destination MAC address on, without FCS (R413); and the association number and packet number of its SecTAG, where it carries one (R453). -/
structure FrameHdr where
  bytes : Nat
  mem : Bool := false
  vlan : Option Nat := .none
  dscp : Option Nat := .none
  ipLen : Option Nat := .none
  ect : Bool := false
  tag : Nat := 0
  key : Nat := 0
  err : RxErr := .none
  data : List Byte := []
  sec : Option (Nat × Nat) := .none
  deriving DecidableEq, Repr

/-- A firmware slot as the Crown ROM finds it (R536, R538): whether it reads and its signature verifies, its security version, and the digest of its Crown
firmware. -/
structure SlotRead where
  ok : Bool
  svn : Nat
  digest : Nat := 0
  deriving DecidableEq, Repr

/-- PLDM firmware update messages (R539, DSP0267). -/
inductive FwMsg where
  | query | params | status
  | requestUpdate | passTable (last : Bool) | updateComponent
  | transferComplete (ok : Bool) | verifyComplete (ok : Bool) | applyComplete (ok : Bool)
  | cancelComponent | cancelUpdate
  deriving DecidableEq, Repr

/-- A PLDM monitoring request (R539): a record of the PDR repository by its place in the order in which R539 lists sensors and effecter, the module power, the current of a rail, the
temperature of a die, the boot phase, or the fault summary. -/
inductive SensorMsg where
  | pdr (n : Nat)
  | power
  | rail (i : Nat)
  | temp (d : Nat)
  | bootPhase
  | faults
  deriving DecidableEq, Repr

/-- The blocks that hold staged or counting registers (R531, R534): Brim die and compute die by number, and the knots of a partition's view. -/
inductive Block where
  | crown | host | felt | hitch | full | tier | coll | knot | cleat | tm
  | brim (d : Nat) | spl (d : Nat) | view (p : Nat)
  deriving DecidableEq, Repr

/-- An access carried by a management session message (R554). -/
inductive BarOp where
  | read (off size : Nat)
  | write (off size v : Nat)
  deriving DecidableEq, Repr

end Sys2Proof
end

