-- ==== Sys2Proof/Machine/Bits.lean ====
section
/-! DEFINITION. Bit fields, byte order and sign extension, used by every other file (R9, R10, R13). -/
namespace Sys2Proof.Machine
open Sys2Proof

/-- Bits [lo + w - 1 : lo] of v (R9). -/
def bits (v lo w : Nat) : Nat := v / 2 ^ lo % 2 ^ w

/-- Bit n of v. -/
def bit (v n : Nat) : Bool := v.testBit n

/-- v with bits [lo + w - 1 : lo] replaced by x. -/
def setBits (v lo w x : Nat) : Nat :=
  v / 2 ^ (lo + w) * 2 ^ (lo + w) + x % 2 ^ w * 2 ^ lo + v % 2 ^ lo

/-- A Bool as 0 or 1. -/
def b2n (b : Bool) : Nat := if b then 1 else 0

/-- The n bytes of v, least significant first (R10). -/
def leBytes : Nat → Nat → List Byte
  | 0, _ => []
  | n + 1, v => BitVec.ofNat 8 (v % 256) :: leBytes n (v / 256)

/-- The number whose bytes, least significant first, are given (R10). -/
def ofLe : List Byte → Nat
  | [] => 0
  | b :: bs => b.toNat + 256 * ofLe bs

/-- The n bytes of v, most significant first: the order of every header on a port (R10). -/
def beBytes (n v : Nat) : List Byte := (leBytes n v).reverse

/-- The number whose bytes, most significant first, are given (R10). -/
def ofBe (bs : List Byte) : Nat := ofLe bs.reverse

/-- The two's complement reading of the low w bits of v (R13). -/
def sext (w v : Nat) : Int :=
  if v % 2 ^ w < 2 ^ (w - 1) then (v % 2 ^ w : Nat) else (v % 2 ^ w : Nat) - (2 ^ w : Nat)

/-- An integer modulo 2^w (R13). -/
def wrap (w : Nat) (i : Int) : Nat := (i % (2 ^ w : Nat)).toNat

/-- A signed value held to the range of w bits. -/
def sat (w : Nat) (i : Int) : Int :=
  max (-(2 ^ (w - 1) : Nat) : Int) (min i ((2 ^ (w - 1) : Nat) - 1))

/-- Ceiling of a / b. -/
def cdiv (a b : Nat) : Nat := (a + b - 1) / b

/-- a + 1 in a counter of w bits that stops at its maximum (R21, _COUNT). -/
def stopInc (w a n : Nat) : Nat := min (a + n) (2 ^ w - 1)

/-- a is newer than b in a 32-bit sequence space: 0 < (a - b) mod 2^32 < 2^31 (R69). -/
def newer32 (a b : Nat) : Bool :=
  let d := (a + 2 ^ 32 - b % 2 ^ 32) % 2 ^ 32
  decide (0 < d) && decide (d < 2 ^ 31)

/-- The byte at position i of a list, 0 past its end. -/
def byteAt (bs : List Byte) (i : Nat) : Nat := ((bs[i]?).getD 0).toNat

/-- The n-byte little-endian field at offset o of a byte layout (R10). -/
def leAt (bs : List Byte) (o n : Nat) : Nat := ofLe ((bs.drop o).take n)

/-- The list of a, a + 1, ... of the given length. -/
def rangeFrom (a n : Nat) : List Nat := (List.range n).map (a + ·)

/-- The first element of a list that holds, with its index. -/
def firstIdx (p : Nat → Bool) (n : Nat) : Option Nat := (List.range n).find? p

/-- Index of the highest set bit plus one: the bit length of v, for v below 2^n. -/
def bitLen : Nat → Nat → Nat
  | 0, _ => 0
  | n + 1, v => if v = 0 then 0 else 1 + bitLen n (v / 2)

/-- The number of set bits among the low n bits of v. -/
def popcount (n v : Nat) : Nat := ((List.range n).filter (fun i => v.testBit i)).length

/-- The low n bits of v in reverse order. -/
def revBits (n v : Nat) : Nat :=
  ((List.range n).map (fun i => b2n (v.testBit i) * 2 ^ (n - 1 - i))).sum

end Sys2Proof.Machine
end

