-- ==== Sys2Proof/Machine/SMap.lean ====
section
/-! DEFINITION. The one sparse map of the model: a list of (key, value) pairs in a canonical form, keys strictly rising and no
entry equal to what an unlisted key reads as. Memories, tables of objects and the register file are such maps. -/
namespace Sys2Proof.Machine

/-- A sparse map from Nat keys. -/
abbrev SMap (α : Type) := List (Nat × α)

/-- The entry listed for a key. -/
def SMap.find {α : Type} : SMap α → Nat → Option α
  | [], _ => none
  | (j, v) :: m, k => if k = j then some v else if k < j then none else SMap.find m k

/-- The value of a key, d where none is listed.
[Marks: DESIGN CHOICE, log entry 4.] -/
def SMap.get {α : Type} (d : α) (m : SMap α) (k : Nat) : α := (SMap.find m k).getD d

/-- The map with the entry of a key put in its place. -/
def SMap.ins {α : Type} : SMap α → Nat → α → SMap α
  | [], k, v => [(k, v)]
  | (j, w) :: m, k, v =>
    if k = j then (k, v) :: m else if k < j then (k, v) :: (j, w) :: m else (j, w) :: SMap.ins m k v

/-- The map without the entry of a key. -/
def SMap.era {α : Type} : SMap α → Nat → SMap α
  | [], _ => []
  | (j, w) :: m, k => if k = j then m else if k < j then (j, w) :: m else (j, w) :: SMap.era m k

/-- The map in which a key reads as v, in canonical form for the default d. -/
def SMap.set {α : Type} [DecidableEq α] (d : α) (m : SMap α) (k : Nat) (v : α) : SMap α :=
  if v = d then SMap.era m k else SMap.ins m k v

/-- The keys rise strictly, from above a bound. -/
def SMap.risingFrom {α : Type} : Nat → SMap α → Bool
  | _, [] => true
  | b, (k, _) :: m => decide (b ≤ k) && SMap.risingFrom (k + 1) m

/-- The keys rise strictly. -/
def SMap.rising {α : Type} (m : SMap α) : Bool := SMap.risingFrom 0 m

/-- Canonical form: the keys rise strictly and no entry equals the default. -/
def SMap.wf {α : Type} [DecidableEq α] (d : α) (m : SMap α) : Bool :=
  SMap.rising m && m.all (fun e => decide (e.2 ≠ d))

/-- The map in which the keys from lo on read as the given values, in canonical form for the default d. -/
def SMap.setRange {α : Type} [DecidableEq α] (d : α) (m : SMap α) (lo : Nat) (vs : List α) : SMap α :=
  m.filter (fun e => decide (e.1 < lo)) ++
    ((vs.zipIdx lo).filter (fun p => decide (p.1 ≠ d))).map (fun p => (p.2, p.1)) ++
    m.filter (fun e => decide (lo + vs.length ≤ e.1))

/-- The values of the n keys from lo on.
[Marks: DESIGN CHOICE, log entry 4.] -/
def SMap.slice {α : Type} (d : α) (m : SMap α) (lo n : Nat) : List α :=
  let sub := m.filter (fun e => decide (lo ≤ e.1) && decide (e.1 < lo + n))
  (List.range n).map (fun i => SMap.get d sub (lo + i))

/-- The map in canonical form that reads as a list of entries, taken in order, does. -/
def SMap.norm {α : Type} [DecidableEq α] (d : α) (m : List (Nat × α)) : SMap α := m.foldl (fun a e => SMap.set d a e.1 e.2) []

/-- The listed keys. -/
def SMap.keys {α : Type} (m : SMap α) : List Nat := m.map (·.1)

/-- The smallest number not listed as a key, among the first n + 1 from a bound. -/
def SMap.freshFrom {α : Type} : Nat → SMap α → Nat
  | b, [] => b
  | b, (k, _) :: m => if k = b then SMap.freshFrom (b + 1) m else if b < k then b else SMap.freshFrom b m

end Sys2Proof.Machine
end

