-- ==== Sys2Proof/Machine/Types.lean ====
section
/-! DEFINITION. The plain data of which the state is made: records and objects of the control plane, the Cleat, the pool, BTP, the Hitch
and the Fuller, and the knots. Field names are the spec's where it names a field. -/
namespace Sys2Proof.Machine
open Sys2Proof

/-! ### Logline (ch. 16) -/

/-- One Logline record (R490). `rid` is 0 while a rate-limited record is still on its way to the Crown die (R494). -/
structure LogRec where
  src   : Nat
  seq   : Nat := 0
  rid   : Nat := 0
  time  : Nat := 0
  link  : Nat := 0
  obj0  : Nat := 0
  pc    : Nat := 0
  ctx   : Option Nat := none
  part  : Option Nat := none
  sample : Option Nat := none
  cause : Nat
  sev   : Nat
  status : Nat := 0
  obj1  : Nat := 0
  supp  : Nat := 0
  deriving DecidableEq, Repr

/-- When a rate-limited cause was last written for an object, and how many records are held back since (R494). -/
structure Limit where
  last : Option Nat := none
  held : Nat := 0
  deriving DecidableEq, Repr

/-! ### Cleat (ch. 11) -/

/-- One Cleat entry (R367); `bad` marks a stored entry with an uncorrectable error that waits for its restore (R380). -/
structure CleatEnt where
  tag : Nat
  lo  : Nat
  hi  : Nat
  result : Nat
  sys : Bool
  bad : Bool := false
  deriving DecidableEq, Repr

/-- An update: OP, TAG, LO, HI, RESULT. -/
structure CleatOp where
  op : Nat
  tag : Nat
  lo : Nat
  hi : Nat
  res : Nat
  deriving DecidableEq, Repr

/-- Who asks for an update (R376): an update set, 0 for the host's and p + 1 for that of partition view p; the Tier engine or Crown firmware; or an EXT_ADD, for the
entries of its extent. -/
inductive CleatSrc where
  | set (n : Nat)
  | sys
  | adding (e : Nat)
  deriving DecidableEq, Repr

/-- An update in the order of the GO writes (R376). The first is under way: that of a set is past its point of effect and waits for the replicas and caches to agree
(R375). -/
structure CleatUpd where
  src : CleatSrc
  op : CleatOp
  deriving DecidableEq, Repr

/-! ### The pool (ch. 03) -/

/-- Extent states, numbered in the order of R105. -/
inductive ExtState where
  | free | adding | active | draining | drained | releasing | recovering | lost
  deriving DecidableEq, Repr

/-- One extent table entry (R102). `acc` is the ACCESS field of EXT_ADD (R115) and `slot` the mailbox slot whose EXT_ADD waits
for ACTIVE (R113). `slot1` and `slot2` are the first floor slots, in pages, in the two stripe sets (R118). -/
structure Ext where
  st : ExtState := .free
  part : Nat := 0
  base : Nat := 0
  log2 : Nat := 0
  prot : Nat := 0
  set1 : Nat := 0
  set2 : Nat := 0
  flags : Nat := 0
  tag : Nat := 0
  epoch : Nat := 0
  drainUs : Nat := 0
  openReq : Nat := 0
  pageBase : Nat := 0
  acc : Nat := 0
  slot : Option Nat := none
  slot1 : Nat := 0
  slot2 : Nat := 0
  deriving DecidableEq, Repr

/-- Page states of R108. -/
inductive PageState where
  | zero | valid | migrating | poisoned
  deriving DecidableEq, Repr

/-- Where a page's current copy lies (R124). A hot page is in one frame, or in two frames on different stacks; a staging frame is a slot of its set. -/
inductive Place where
  | none
  | hot (f : Nat) (g : Option Nat)
  | staging (set f : Nat)
  | floor
  deriving DecidableEq, Repr

/-- One page descriptor: state, place, FLOOR_VALID, the access count of the window and the order of last use (R124, R126). -/
structure Page where
  st : PageState := .zero
  place : Place := .none
  floorValid : Bool := false
  cnt : Nat := 0
  used : Nat := 0
  deriving DecidableEq, Repr

/-- A migration in progress (R128): destination, sub-blocks to be copied again, recopy rounds made, restarts made, and whether it
has reached step 4, in which new requests to the page are held. A demotion to a cold floor (R148) holds where its chunks were appended, as (tray, chunk, zone,
offset), and the trays whose map groups are not yet committed. -/
structure Migr where
  kind : Move
  dst : Place
  recopy : Nat := 0
  rounds : Nat := 0
  restarts : Nat := 0
  verify : Bool := false
  cold : Bool := false
  locs : List (Nat × Nat × Nat × Nat) := []
  trays : List Nat := []
  deriving DecidableEq, Repr

/-- A prefetch that is not yet in place (R127, R288): its operation, extent, target, deadline, whether it is late or met a page that became
POISONED, and the pages still to be placed. -/
structure Prefetch where
  op : Nat
  ext : Nat
  staging : Bool
  deadline : Nat
  late : Bool := false
  bad : Bool := false
  pages : List Nat
  deriving DecidableEq, Repr

/-- A route entry of EXT_ROUTE (R104, R109); its Cleat entry waits while a HOME entry still covers the range. -/
structure Route where
  log2 : Nat
  home : Nat
  epoch : Nat
  inst : Bool
  deriving DecidableEq, Repr

/-- An attached tray (R114, R117). -/
structure Tray where
  kind : Nat
  die : Nat
  port : Nat
  cap : Nat
  lost : Bool := false
  deriving DecidableEq, Repr

/-- A defined stripe set (R118), and its rebuild: failed and replacement tray (R122). -/
structure SSet where
  mode : Nat
  unit : Nat
  staging : Bool
  trays : List Nat
  degraded : List Nat := []
  rebuild : Option (Nat × Nat) := none
  deriving DecidableEq, Repr

/-! ### Flash trays (ch. 04) -/

/-- Roles of a zone (R142); `dropped` is an abandoned target, an orphan or a zone of an older checkpoint that waits for its reset. -/
inductive ZoneRole where
  | free | root | journal | map | ckpt | data | gc | dropped | retired
  deriving DecidableEq, Repr

/-- A zone: role, write pointer (chunks of 64 KiB in data and GC zones, blocks of 4 KiB in the others), whether it is finished, whether it is offline, the
highest JSEQ written to it, and the summary of a data or GC zone: by offset the tray-logical chunk number stored there plus 1, 0 where it is not known (R142, R143). -/
structure Zone where
  role : ZoneRole := .free
  wp : Nat := 0
  full : Bool := false
  offline : Bool := false
  top : Nat := 0
  sum : List Nat := []
  deriving DecidableEq, Repr

/-- A journal record (R144); its REC_CRC is computed from the other fields. -/
structure JRec where
  typ : Nat
  last : Bool := false
  n : Nat := 0
  chunk : Nat := 0
  jseq : Nat := 0
  time : Nat := 0
  oldZone : Nat := 0
  oldOff : Nat := 0
  newZone : Nat := 0
  newOff : Nat := 0
  arg : Nat := 0
  crc : Nat := 0
  deriving DecidableEq, Repr

/-- What the commit of a group brings about beside its map changes: a demotion's group on this tray (R148), the collection or evacuation of a source to a destination
(R150), a zone that is free (R150 step 7), the write-back of a checkpoint, or its CKPT_END (R147). -/
inductive JAct where
  | none
  | page (p : Nat)
  | gc (src dst : Nat)
  | free (z : Nat)
  | ckpt
  | ckptEnd
  deriving DecidableEq, Repr

/-- A journal group (R145, R146): its records, the appends that have still to complete, whether the partner has acknowledged it, and whether it may commit on the
tray alone. -/
structure JGroup where
  recs : List JRec
  left : Nat
  acked : Bool := false
  alone : Bool := false
  act : JAct := .none
  deriving DecidableEq, Repr

/-- Where a collection stands (R150). -/
inductive GcStage where
  | copy | check | commit | reset
  deriving DecidableEq, Repr

/-- A collection or evacuation: source, destination, stage, restarts, and the chunks copied as (chunk, old offset) in order of their new offsets. -/
structure Gc where
  src : Nat
  dst : Nat
  evac : Bool
  stage : GcStage := .copy
  tries : Nat := 0
  moved : List (Nat × Nat) := []
  deriving DecidableEq, Repr

/-- A checkpoint under way (R147): the JSEQ from which replay starts, its zone, the journal blocks counted when it started, and whether its CKPT_END is committed. -/
structure Ckpt where
  start : Nat
  zone : Nat
  blocks : Nat
  ended : Bool := false
  deriving DecidableEq, Repr

/-- A root record (R142, R147): the JSEQ of its checkpoint's CKPT_END, the checkpoint zone and the replay start. -/
structure RootRec where
  jseq : Nat
  zone : Nat
  start : Nat
  deriving DecidableEq, Repr

/-- What the switch holds of a flash tray (R140 to R159): number of zones, chunks of a zone, zones in use, committed map (chunk to zone * 65536 + offset + 1), the
open data, journal and map zones, journal groups not yet committed, committed groups the partner has still to acknowledge, oldest first, the map as the journal mirrored
to the partner gives it, journal blocks since the last checkpoint, a checkpoint under way, locations of map pages, the checkpoint zone in use, the number of root records
written and the last two, newest first, map-page reads outstanding, the collection, zones to be evacuated, zones whose collection was given up, and the states of R161. -/
structure Flash where
  zones : Nat := 0
  cz : Nat := 0
  zn : SMap Zone := []
  map : SMap Nat := []
  data : Option Nat := none
  jz : Option Nat := none
  mz : Option Nat := none
  jseq : Nat := 0
  groups : List JGroup := []
  owed : List (List JRec) := []
  par : SMap Nat := []
  blocks : Nat := 0
  ckpt : Option Ckpt := none
  loc : SMap Nat := []
  cz0 : Option Nat := none
  roots : Nat := 0
  rootRecs : List RootRec := []
  reads : List Nat := []
  gc : Option Gc := none
  collecting : Bool := false
  evac : List Nat := []
  gaveUp : List Nat := []
  low : Bool := false
  recovering : Bool := false
  deriving DecidableEq, Repr

/-! ### Requests and connections (ch. 02) -/

/-- Who sent a request that the switch serves; `unit` is a DMA or codec unit that works on an operation, and `coll` the
Felt, which writes result lines of a collective group under a number. -/
inductive Src where
  | conn (c : Nat)
  | ctx (c op : Nat)
  | qp (q : Nat)
  | agent (n : Nat)
  | cxlPort (port : Nat)
  | unit (o : Nat)
  | coll (n k : Nat)
  | tier
  deriving DecidableEq, Repr

/-- Where the Cleat sent a request (R372). -/
inductive Where where
  | home
  | knotWin
  | route (sw : Nat)
  | knotHome (sw : Nat)
  | gateway (c : Nat)
  | service
  deriving DecidableEq, Repr

/-- What an admitted request waits for before it can be performed. -/
inductive Wait where
  | none
  | line (l : Nat)
  | page (p : Nat)
  | merged (e : Nat)
  | sent (t : Nat)
  | launch
  | other
  deriving DecidableEq, Repr

/-- Requests of an agent to the Hitch, on CXL.cache or HDM-DB (R166, R170): MemRd with MetaValue S, A and I act as rdShared, rdOwn and rdCurr. -/
inductive CxlOp where
  | rdCurr | rdShared | rdAny | rdOwn | rdOwnNoData
  | itoMWr | wrCur | wrInv | clFlush
  | cleanEvict | cleanEvictNoData | dirtyEvict
  | memRdData | memWr | memClnEvct
  deriving DecidableEq, Repr

/-- An admitted request that is not yet answered (R67, R77), or with `resp` a received response that waits to be matched (R58). `ext` and
`ext2` are the extents in whose OPEN_REQ it counts, `addr` is its hall address, and `got` holds lines whose current data a snoop
brought (R170, SnpCur). `old` says that its packet came under the previous route epoch, by whose map it is routed (R81). `words` are its extension words without a SACK word. A request that carries a body has its length in `want`,
the bytes received in `rcv`, the received segments not yet placed in `segs` and the bytes placed in `placed` (R57). A request of a CXL
port keeps its message in `cxl`, and in `poison` the poison indication of its data (R166, R181). -/
structure Req where
  src : Src
  op : Nat
  tid : Nat := 0
  psn : Nat := 0
  ord : Nat := 0
  part : Nat := 0
  addr : Nat := 0
  len : Nat := 0
  attr : Nat := 0
  opA : Nat := 0
  opB : Nat := 0
  retryOf : Option Nat := none
  words : List Nat := []
  data : List Byte := []
  dest : Where := .home
  ext : Option Nat := none
  ext2 : Option Nat := none
  wait : Wait := .none
  got : List (Nat × List Byte) := []
  old : Bool := false
  hops : Nat := 0
  want : Nat := 0
  rcv : Nat := 0
  segs : List (Nat × List Byte) := []
  placed : Nat := 0
  resp : Bool := false
  status : Nat := 0
  naming : Nat := 0
  segOff : Nat := 0
  cxl : Option CxlOp := none
  poison : Bool := false
  deriving DecidableEq, Repr

/-- Connection states of R65. -/
inductive ConnState where
  | free | created | open | closing | error | fenced
  deriving DecidableEq, Repr

/-- A packet as the sender keeps it until it is acknowledged (R71, R73); `naming` is the PSN that a ROUTE_EPOCH_STALE
answer names, `sacked` that a SACK has shown the packet received (R55), `rto` and `limit` the timer that runs and the RETRY_LIMIT it
started with (R99), and `flushed` that it was lost with its port's response queue (R433). -/
structure OutPkt where
  psn : Nat
  op : Nat
  tid : Nat
  resp : Bool
  status : Nat
  ext : List Byte := []
  data : List Byte
  chk : List Byte := []
  ord : Nat := 0
  naming : Option Nat := none
  epoch : Nat
  rto : Nat
  limit : Nat := 0
  sends : Nat := 1
  sacked : Bool := false
  flushed : Bool := false
  deriving DecidableEq, Repr

/-- A received packet held out of order (R70); `old`: it came under the previous route epoch (R81). -/
structure InPkt where
  psn : Nat
  bytes : List Byte
  old : Bool := false
  deriving DecidableEq, Repr

/-- The result kept of a non-idempotent request, or the mark of a cancelled TID (R75). -/
structure Fence where
  tid : Nat
  cancelled : Bool
  status : Nat := 0
  data : List Byte := []
  deriving DecidableEq, Repr

/-- One connection (R64), with what its transport engine keeps: the receive side (R70, R72), the transmit side (R71, R73), the send
rate in 64ths of port rate (R48), the fenced TIDs (R75), the TIDs under which fenced requests went on to another switch, as (TID, connection, TID there), the
failed opens (R66), and the TIDs of segmented requests that ended before their last segment, whose further segments are discarded. -/
structure Conn where
  st : ConnState := .free
  part : Nat := 0
  peerAddr : Nat := 0
  peerConn : Nat := 0
  portSet : Nat := 0
  services : Nat := 0
  tag : Nat := 0
  txPsn0 : Nat := 0
  rxPsn0 : Nat := 0
  maxOut : Nat := 0
  chk : Nat := 0
  token : Nat := 0
  badOpens : Nat := 0
  rxNext : Nat := 0
  held : List InPkt := []
  unacked : Nat := 0
  txNext : Nat := 0
  out : List OutPkt := []
  rate : Nat := 64
  ce : Bool := false
  fences : List Fence := []
  passed : List (Nat × Nat × Nat) := []
  ended : List Nat := []
  chkRx : Nat := 0
  chkTx : Nat := 0
  deriving DecidableEq, Repr

/-- A request the switch itself has sent on a connection (R74): the requests, the combine entry (R189) or the stage arrival of a member
knot (R353) it stands for, and the response bytes received. -/
structure OutReq where
  conn : Nat
  tid : Nat
  op : Nat
  addr : Nat
  len : Nat
  owners : List Nat := []
  comb : Option Nat := none
  knot : Option Nat := none
  data : List Byte := []
  deriving DecidableEq, Repr

/-- A gathering at the near gateway (R91): source connection, gateway connection, the 4 KiB block, stores or loads, the requests, and whether it has
stopped gathering. -/
structure Gather where
  src : Src
  gate : Nat
  block : Nat
  store : Bool
  reqs : List Nat
  closed : Bool := false
  deriving DecidableEq, Repr

/-- One RoCEv2 queue pair (R88, R89): the fields of R64 that apply, its path MTU, and of an RDMA WRITE under way the address and bytes still to come, and
the access and R_Key of its first packet. -/
structure Qp where
  live : Bool := false
  err : Bool := false
  part : Nat := 0
  peerAddr : Nat := 0
  peerQp : Nat := 0
  portSet : Nat := 0
  services : Nat := 0
  tag : Nat := 0
  txPsn : Nat := 0
  rxPsn : Nat := 0
  maxOut : Nat := 0
  rate : Nat := 64
  reads : Nat := 0
  mtu : Nat := 1024
  wAddr : Nat := 0
  wLeft : Nat := 0
  wAcc : Nat := 0
  wKey : Nat := 0
  out : List (Nat × List Byte) := []
  lastCnp : Option Nat := none
  deriving DecidableEq, Repr

/-! ### Hitch and Fuller (ch. 05) -/

/-- A directory entry in use (R168); BUSY is held by the line's transaction. -/
structure DirEnt where
  line : Nat
  em : Bool
  holders : List Nat
  part : Nat
  way : Nat := 0
  age : Nat := 0
  deriving DecidableEq, Repr

/-- The snoop a transaction has sent to an agent (R166, R170). -/
inductive Snoop where
  | inv | data | cur
  deriving DecidableEq, Repr

/-- D2H snoop responses (R166). -/
inductive SnoopRsp where
  | iHitI | vHitV | iHitSE | sHitSE | sFwdM | iFwdM | vFwdV
  deriving DecidableEq, Repr

/-- What a transaction of the Hitch does when its last response is in (R170); `done` marks that of a request which has been performed. -/
inductive TxnKind where
  | cxl (op : CxlOp) (agent : Nat) (data : List Byte) (poison : Bool)
  | req (r : Nat)
  | evict
  | poisonClear
  | done
  deriving DecidableEq, Repr

/-- The one transaction open on a line (R172): what it is for, the agents whose snoop responses are outstanding, the queue of those that
wait for the line in order of arrival, and what starts when an eviction has freed the way (R175). A transaction of a request with no
response outstanding has been granted the line. -/
structure Txn where
  kind : TxnKind
  snoop : Snoop := .inv
  waitFor : List Nat := []
  queue : List TxnKind := []
  next : Option (Nat × TxnKind) := none
  deriving DecidableEq, Repr

/-- A combine entry of the Fuller (R183, R185): a line, loads or atomics of one operation, its participants in order of arrival,
whether it is sent, whether it still takes participants, the home's reply, and the participants whose operands an atomic was sent with (R187). -/
structure Comb where
  line : Nat
  part : Nat
  atomic : Option (Nat × Nat × Nat) := none
  parts : List Nat
  forward : Bool := false
  sent : Bool := false
  closed : Bool := false
  status : Nat := 0
  reply : Option (List Byte) := none
  ops : List (Nat × Req) := []
  deriving DecidableEq, Repr

/-! ### Knots (ch. 10) -/

/-- Knot states (R366, W4). -/
inductive KnotState where
  | off | active | broken | lost
  deriving DecidableEq, Repr

/-- A wait that has reached a knot and is pending (R346), with the generation it waits to leave (R347). -/
structure KWait where
  ctx : Nat
  op : Nat
  gen : Nat
  deriving DecidableEq, Repr

/-- Who an arrival must be acknowledged to: a `knot.arr` in flight, a request, or no one (R347, R353). -/
inductive Arriver where
  | op (o : Nat)
  | req (r : Nat)
  | none
  deriving DecidableEq, Repr

/-- One knot: its state and value (R366 W4 to W7), pending waits, arrivals a stage member holds (R353), whether its owner
context was freed since its OWNER fields were committed (R360), and whether a view has staged one of its stage fields (R361). -/
structure Knot where
  st : KnotState := .off
  value : Nat := 0
  arrived : Nat := 0
  gen : Nat := 0
  fail : Nat := 0
  waits : List KWait := []
  held : List Arriver := []
  ownerFreed : Bool := false
  viewStage : Bool := false
  deriving DecidableEq, Repr

/-- A signal of a hardware completion on its way to a knot, with the status it carries (R345, R348). -/
structure KSig where
  knot : Nat
  status : Nat
  deriving DecidableEq, Repr

/-- A queued launch (R355). -/
structure Launch where
  knot : Nat
  part : Nat
  prog : Nat
  srcConn : Bool
  srcId : Nat
  args : List Byte
  deriving DecidableEq, Repr

/-! ### Collectives and work items (ch. 09) -/

/-- An exact accumulator (R320). -/
structure Xacc where
  a : Int := 0
  nan : Bool := false
  pinf : Bool := false
  ninf : Bool := false
  deriving DecidableEq, Repr

/-- A granule of an accumulation region (R307, R318 to R322): contributions added (in ORDERED mode the fold point), and 16 FP32 or raw elements, or 16 exact
accumulators. -/
structure Gran where
  n : Nat := 0
  f : List Nat := []
  x : List Xacc := []
  deriving DecidableEq, Repr

/-- What a collective group holds beside its configuration (R313 to R319): state and generation (numbered as in FELT_COLL_STATUS), granules, the reorder
window (key rank * 2^22 + granule), watermarks, held granules + 1 and released ranks, the result lines issued, the result writes outstanding and those
answered, and the fields that take effect when the aborted generation has closed. -/
structure Coll where
  st : Nat := 0
  gen : Nat := 0
  grans : SMap Gran := []
  win : SMap (List Nat) := []
  marks : SMap Nat := []
  held : SMap Nat := []
  rel : List Nat := []
  lines : SMap Bool := []
  wr : List Nat := []
  ans : List (Nat × Nat) := []
  pend : Option (List Nat) := none
  deriving DecidableEq, Repr

/-- A work item of the dispatcher (R325, R332, R337): its request, whether it is of attention, its split or item number, the operation under which a kernel
context runs it, and how it ended, with the pages done and its results. A shadow item names the item whose result it checks (R340). -/
structure Item where
  req : Nat
  part : Nat
  attn : Bool
  ix : Nat
  op : Option Nat := none
  ctx : Option Nat := none
  st : Option Nat := none
  pages : Nat := 0
  data : List Byte := []
  shadow : Option Nat := none
  deriving DecidableEq, Repr

end Sys2Proof.Machine
end

