-- ==== Sys2Proof/Machine/TypesPort.lean ====
section
/-! DEFINITION. The plain data of the traffic manager (ch. 13), of ports and links (ch. 14), of the mirrored pair (ch. 16) and of boot, keys and attestation (ch. 15, 17). -/
namespace Sys2Proof.Machine
open Sys2Proof

/-! ### Traffic manager (ch. 13) -/

/-- A policer (R424): its committed and peak buckets in units of 1/80,000 byte, in which CIR and PIR are what they gain in a nanosecond, at a time. -/
structure Pol where
  tc : Nat := 0
  tp : Nat := 0
  t : Nat := 0
  deriving DecidableEq, Repr

/-- A frame in the buffer (R413, R431): ingress port, partition, bytes with FCS, cells, whether it is multicast and whether its last cell is written, the DSCP written into it, the
queues that still hold it, the egress ports that send it while it is still written (R414), and the queue whose shared part F was charged, with the cells that go back to F when the last
reader is done; and the bytes its cells hold, without FCS. -/
structure Frm where
  port : Nat
  part : Nat
  bytes : Nat
  n : Nat
  mcast : Bool := false
  done : Bool := false
  dscp : Option Nat := none
  qs : List Nat := []
  out : List Nat := []
  first : Nat := 0
  ret : Nat := 0
  data : List Byte := []
  deriving DecidableEq, Repr

/-- An egress queue (R421, R426, R428): G and S, the frames it holds, head first, each with its CE mark (R423), the finish tag of the last frame sent and of the head, the committed and
peak buckets in units of 1/80,000 byte at a time, and whether it is being flushed. -/
structure TmQ where
  g : Nat := 0
  s : Nat := 0
  frames : List (Nat × Bool) := []
  last : Nat := 0
  fin : Nat := 0
  cb : Int := 0
  pb : Int := 0
  t : Nat := 0
  flush : Bool := false
  deriving DecidableEq, Repr

/-- The scheduler of an egress port (R426 to R428): virtual time, the port's bucket and its time, the response queue's head length (0: empty), the finish tag of its last frame and of its
head, and its peak bucket with its time; and the cells freed by a flush that runs (R433). -/
structure TmPort where
  v : Nat := 0
  b : Int := 0
  bt : Nat := 0
  resp : Nat := 0
  last : Nat := 0
  fin : Nat := 0
  pb : Int := 0
  t : Nat := 0
  freed : Option Nat := none
  deriving DecidableEq, Repr

/-! ### Ports and links (ch. 14) -/

/-- A port (R445 to R460): bring-up step in progress (0: none), attempts that failed in a row, whether its lanes have a signal, whether it waits to try again, bad windows in a row,
re-equalize attempts made and whether one is being checked, whether the partner sends Remote Fault, the REASON of the fence it sends and of the one it receives, whether PCS lock was lost
in fence, the number of the SAK in use, its own nonce of the key exchange and the PRK_L that follows
from it (R480), the number of the SAK under which it receives and the packet number it expects next, how far CXL IDE has come (0 no session, 1 session open, 2 keys programmed), the time of the last equalization, and whether its link stays Disabled
until an agent is registered on it again (R462). -/
structure PortSt where
  step : Nat := 0
  fails : Nat := 0
  signal : Bool := false
  retry : Bool := false
  bad : Nat := 0
  tries : Nat := 0
  checking : Bool := false
  remote : Bool := false
  fence : Option Nat := none
  rxFence : Option Nat := none
  lost : Bool := false
  sak : Option Nat := none
  nonce : List Byte := []
  prk : List Byte := []
  rxSak : Nat := 0
  rxPn : Nat := 1
  ide : Nat := 0
  since : Nat := 0
  off : Bool := false
  deriving DecidableEq, Repr

/-! ### The mirrored pair (ch. 16) -/

/-- The domain of a switch as its partner holds it (R508): directory, knots, Cleat entries, extent table, page map, routes, trays and stripe sets, parity update table, flash maps with their
journal groups, and by register key the knot configuration, partition configuration, states and epochs, FELT_STAGE and FELT_ROUTE_EPOCH; and the DevID of the switch it belongs to (R474),
with the number of the last update in it. -/
structure Domain where
  devId : Nat := 0
  seq : Nat := 0
  dir : SMap (Option DirEnt) := []
  knots : SMap Knot := []
  cleat : List CleatEnt := []
  exts : SMap Ext := []
  pages : SMap Page := []
  routes : SMap (Option Route) := []
  trays : SMap (Option Tray) := []
  sets : SMap (Option SSet) := []
  rows : List (Nat × Nat) := []
  flash : SMap Flash := []
  regs : SMap Nat := []
  deriving DecidableEq, Repr

/-- One change of a domain, as an update of the stream carries it (R510). -/
inductive DomUpd where
  | dir (line : Nat) (x : Option DirEnt)
  | knot (n : Nat) (x : Knot)
  | cleat (l : List CleatEnt)
  | ext (e : Nat) (x : Ext)
  | page (p : Nat) (x : Page)
  | route (b : Nat) (x : Option Route)
  | tray (t : Nat) (x : Option Tray)
  | sset (k : Nat) (x : Option SSet)
  | rows (l : List (Nat × Nat))
  | flash (t : Nat) (x : Flash)
  | reg (key v : Nat)
  deriving DecidableEq, Repr

/-- What a frame of the mirror link carries (R444, R510): an update of the partner's domain with its number, or nothing but the link acknowledgment. -/
inductive MirBody where
  | update (n : Nat) (u : DomUpd)
  | none
  deriving DecidableEq, Repr

/-- The mirror link (R444, R510): octets of the pair with PCS lock, link sequence number of the next frame, frames not yet acknowledged as (link sequence number, update number,
update), link sequence number expected next, and the copy of the partner's domain. -/
structure Mir where
  octs : Nat := 0
  tx : Nat := 0
  out : List (Nat × Nat × DomUpd) := []
  rx : Nat := 0
  held : Option Domain := none
  deriving DecidableEq, Repr

/-- From where a domain is restored (R512): own tables in HBM that verify, the partner's copy, or no source. -/
inductive Restore where
  | own
  | partner (d : Domain)
  | none
  deriving DecidableEq, Repr

/-! ### Boot, keys and attestation (ch. 15, 17) -/

/-- What boot finds from step 5 on (R536, R537, R473): the compute dies, Brim dies and HBM stacks that train, the digests of the Brim firmware and of the service
store, the source of the domain, whether the directory can be restored, whether the own key state record is valid, and by partition the highest epoch that the partner's copy and the
tray key headers give. -/
structure BootFacts where
  compute : Nat := 0xff
  brims : Nat := 0xff
  hbms : Nat := 0x3f
  brimDigest : Nat := 0
  storeDigest : Nat := 0
  src : Restore
  dirOk : Bool := true
  recOk : Bool := true
  epochs : List Nat := []
  deriving DecidableEq, Repr

/-- A switch reset between its start and the end of boot (R505): cause, RID of its record, and whether the fence is skipped. -/
structure Reset where
  cause : Nat
  rid : Nat
  noFence : Bool := false
  deriving DecidableEq, Repr

/-- The key state record of a partition in the boot flash, with the digest of the DevID public key (R473). -/
structure KeyRec where
  epoch : Nat := 0
  st : Nat := 0
  devId : Nat := 0
  deriving DecidableEq, Repr

/-- What an SPDM requester has agreed with the responder (R484): how far (0 nothing, 1 version, 2 capabilities, 3 algorithms), the version, the sessions open, and the session whose handshake
is under way. -/
structure Spdm where
  stage : Nat := 0
  ver : Nat := 0
  open_ : List Nat := []
  half : Option Nat := none
  deriving DecidableEq, Repr

/-- Boot, keys and protocol state (R472, R473, R482 to R485, R536 to R542): fused life-cycle state and security versions, the slot that is marked first, the measurements 0x02 to 0x04, the reset
under way, key state records by partition, the times at which removals began, SPDM state by requester, the firmware update state of DSP0267, and
whether HBM has kept its content since the last boot. -/
structure Boot where
  lc : Nat := 1
  svnCrown : Nat := 0
  svnBrim : Nat := 0
  first : Option Bool := none
  meas : SMap Nat := []
  pend : Option Reset := none
  keys : SMap KeyRec := []
  started : SMap Nat := []
  spdm : SMap Spdm := []
  upd : Nat := 0
  hbm : Bool := false
  deriving DecidableEq, Repr

end Sys2Proof.Machine
end

