-- ==== Sys2Proof/Syntax.lean ====
section
/-! DEFINITION. The commands of the block: one constructor per row of spec/opcode_table.json, with the facts that come with the command from outside
(an address and a value, a packet's bytes, a measured value, the outcome of a device or of a check) as its operands. -/
namespace Sys2Proof
open Sys2Proof.Machine

/-- One command. Operands named `c`, `e`, `o`, `r`, `t` are a context, an engine or ECC outcome, an operation, a request and a tray or timer's object, as the meaning's docstring says; the rule
of spec/ stands in brackets. -/
inductive Instr where
  /-- REGISTER_WRITE (R15). A host, management-session or partition-view write to a register field that has no row of its own takes effect by its field type (RW, RWS staging, W1C, WO). -/
  | registerWrite (path : Nat) (op : BarOp)
  /-- COMMIT_GO (R532). A write of 1 to a block's COMMIT GO takes the staged set, checks it, and moves accepted values into effect at one point of effect. -/
  | commitGo (b : Block)
  /-- COMMIT_DISCARD (R533). A write of 1 to DISCARD sets every staged copy of the block to the value in effect, waiting for a running commit. -/
  | commitDiscard (b : Block)
  /-- COUNTER_CLEAR (R534). A write of 1 to a block's clear register sets all _COUNT, _BYTES and _PKTS counters of the block to 0 in one cycle. -/
  | counterClear (b : Block)
  /-- TIME_BROADCAST (R37). Every 1,024 ns the Crown die broadcasts the time counter and every shadow loads it corrected for link latency, never running backward. -/
  | timeBroadcast (errs : List Int)
  /-- PPS_FIRST_EDGE (R549). The first rising PPS_IN edge during boot step 4 sets the time counter to 0 and releases the other dies. -/
  | ppsFirstEdge (f : BootFacts)
  /-- PPS_ALIGN_TIMEOUT (R549). With no PPS edge 1,100 ms after boot step 1, boot continues and the counter keeps running. -/
  | ppsAlignTimeout (f : BootFacts)
  /-- PPS_EDGE (R550). A PPS_IN rising edge is accepted or counted as spurious; an accepted edge updates the phase error, the trim and TIME_STATUS.STATE. -/
  | ppsEdge
  /-- PPS_HOLDOVER_TIMEOUT (R551). No accepted edge for 1.5 s moves time from TRACKING or LOCKED to HOLDOVER under cause 0x750. -/
  | ppsHoldoverTimeout
  /-- PPS_OUT_RISE (R552). When the counter reaches a whole multiple of 10^9 and PPS_OUT_EN is 1, PPS_OUT rises. -/
  | ppsOutRise
  /-- PPS_OUT_FALL (R552). PPS_OUT falls 100 µs after it rose. -/
  | ppsOutFall
  /-- D2D_CRC_ERROR (R32). A die-to-die receiver finds a flit CRC error and asks for replay from the failed flit; 16 failed replays start a retrain. -/
  | d2dCrcError (n : Nat) (ok : Bool)
  /-- D2D_RETRAIN_DONE (R33). A die-to-die retrain ends: traffic resumes, or the link is lost with the outcome of its link kind. -/
  | d2dRetrainDone (n : Nat) (ok : Bool)
  /-- REFCLK_156_LOST (R40). Loss of REFCLK_156 drops all ports without fence and escalates to switch reset under cause 0x710. -/
  | refclk156Lost
  /-- REFCLK_100_LOST (R40). Loss of REFCLK_100 switches the Crown die to its fallback oscillator, holds other domains in reset and asserts FAULT_N. -/
  | refclk100Lost
  /-- ENG_PLL_LOCK_LOST (R40). A CLK_ENG PLL losing lock is handled as a lost compute-die link under cause 0x712. -/
  | engPllLockLost (d : Nat)
  /-- CORE_PLL_LOCK_LOST (R40). A CLK_FELT or CLK_BRIM PLL losing lock starts a switch reset under cause 0x713. -/
  | corePllLockLost (die : Option Nat)
  /-- POWER_SAMPLE (R546). Every 1 µs the governor reads every rail's current sense. -/
  | powerSample (mw : Nat) (rails : List Nat)
  /-- GOVERNOR_WINDOW (R546). At the end of each 10 µs window the governor sets the next duty D from P, the limit and thermal state, and sends it to all compute dies. -/
  | governorWindow
  /-- ISSUE_CREDIT_REFILL (R216). Every 64 cycles each engine's matrix and vector credit gains D up to 128. -/
  | issueCreditRefill
  /-- TEMP_REPORT (R547). Every 100 µs each die reports its temperature, raising warning or throttle events. -/
  | tempReport (d t : Nat)
  /-- THERMAL_TRIP (R547). A die reaching its trip temperature runs steps 1 to 3 of the switch reset and drives THERMTRIP_N low under cause 0x742. -/
  | thermalTrip (d : Nat)
  /-- ENG_RAIL_UNDERVOLT (R545). A VDD_ENG_n rail below 90% for 1 µs makes compute die n a lost die under cause 0x722. -/
  | engRailUndervolt (n : Nat)
  /-- POWER_LOSS (R545). A fall of another rail, PWRGD_MAIN or PWRGD_AUX holds every die in reset within 1 µs without fence. -/
  | powerLoss (aux : Bool)
  /-- POWER_ON_BOOT (R536). With PWRGD_AUX, PWRGD_MAIN and MOD_RESET_N high, the Crown ROM boots through the steps to the ready point. -/
  | powerOnBoot (bootSel testMode : Bool) (slotId : Nat) (ref100 ref156 : Bool) (a b : SlotRead)
  /-- MOD_RESET (R553). MOD_RESET_N going low starts a power-on reset with power kept. -/
  | modReset
  /-- RECOVERY_IMAGE_UPDATE (R538). In recovery the ROM accepts an image over PLDM or the recovery window and restarts at boot step 2. -/
  | recoveryImageUpdate (a b : SlotRead)
  /-- HOST_PERST (R527). HOST_PERST_N resets the host port link and PCIe functions only. -/
  | hostPerst (low : Bool)
  /-- CROWN_RESET_SWITCH (R555). A write of 1 to CROWN_RESET.SWITCH starts a switch reset under cause 0x735. -/
  | crownResetSwitch
  /-- SWITCH_RESET (R505). A switch reset records SEV 3, asserts FAULT_N, sends mirror updates and the fence, exports its record, captures samples and reboots from step 5. -/
  | switchReset (f : BootFacts)
  /-- FENCE_HOLD_EXPIRY (R457). After FENCE_HOLD_US the transmitters go to electrical idle and the ports stay down until bring-up. -/
  | fenceHoldExpiry (p : Nat)
  /-- PLDM_GET_TID (R539). The tray controller's GetTID returns the terminus ID. -/
  | pldmGetTid
  /-- PLDM_GET_PLDM_TYPES (R539). GetPLDMTypes returns the supported PLDM types. -/
  | pldmGetPldmTypes
  /-- PLDM_GET_PLDM_COMMANDS (R539). GetPLDMCommands returns the supported commands of a type. -/
  | pldmGetPldmCommands (typ : Nat)
  /-- PLDM_GET_PLDM_VERSION (R539). GetPLDMVersion returns the version of a PLDM type. -/
  | pldmGetPldmVersion (typ : Nat)
  /-- PLDM_SENSOR_READ (R539). A PLDM monitoring request returns a PDR, numeric sensor or state sensor reading. -/
  | pldmSensorRead (m : SensorMsg)
  /-- PLDM_FIRMWARE_UPDATE (R539). A PLDM firmware update message carries the update flow into the inactive slot. -/
  | pldmFirmwareUpdate (m : FwMsg)
  /-- ACTIVATE_FIRMWARE (R539). ActivateFirmware marks the updated slot first and sends the power-cycle request. -/
  | activateFirmware
  /-- PREPARE_POWER_OFF (R542). The PREPARE_POWER_OFF effecter runs reset steps 1 to 5, writes the SOLO mark if not PAIRED and asserts PCYC_REQ_N. -/
  | preparePowerOff
  /-- SPDM_GET_VERSION (R484). The attestation responder answers GET_VERSION. -/
  | spdmGetVersion (q : Nat)
  /-- SPDM_GET_CAPABILITIES (R484). The responder answers GET_CAPABILITIES. -/
  | spdmGetCapabilities (q ver : Nat)
  /-- SPDM_NEGOTIATE_ALGORITHMS (R484). The responder answers NEGOTIATE_ALGORITHMS. -/
  | spdmNegotiateAlgorithms (q : Nat) (offered : Bool)
  /-- SPDM_GET_DIGESTS (R484). The responder returns the certificate chain digests. -/
  | spdmGetDigests (q : Nat)
  /-- SPDM_GET_CERTIFICATE (R484). The responder returns a certificate chain from slot 0 or 1. -/
  | spdmGetCertificate (q slot off len : Nat)
  /-- SPDM_CHALLENGE (R484). The responder answers CHALLENGE with a signature. -/
  | spdmChallenge (q slot nonce : Nat)
  /-- SPDM_GET_MEASUREMENTS (R485). The responder returns the measurement blocks signed by the Alias key. -/
  | spdmGetMeasurements (q index nonce : Nat) (sign : Bool)
  /-- SPDM_KEY_EXCHANGE (R484). The responder answers KEY_EXCHANGE to open a secured session. -/
  | spdmKeyExchange (q slot : Nat)
  /-- SPDM_FINISH (R484). The responder answers FINISH to complete a session. -/
  | spdmFinish (q id : Nat) (ok : Bool)
  /-- SPDM_END_SESSION (R484). The responder ends a secured session. -/
  | spdmEndSession (q id : Nat)
  /-- SPDM_PSK_EXCHANGE (R481). On a DOE mailbox, PSK_EXCHANGE opens the IDE session with the derived pre-shared key. -/
  | spdmPskExchange (q : Nat) (nonce : List Byte)
  /-- IDE_KEY_PROG (R481). A KEY_PROG inside the session programs IDE keys; outside it the link stays down under cause 0x609. -/
  | ideKeyProg (p : Nat) (inSession : Bool)
  /-- MGMT_MESSAGE (R554). A management-port session message is authenticated and served as a PF0 BAR0 access, or dropped under cause 0x627. -/
  | mgmtMessage (key : Nat) (tagOk : Bool) (op : BarOp)
  /-- LOGLINE_RECORD (R495). A record arrives at the Crown die, gets SEQ, enters the Crown ring, and is copied to the HBM ring and the partition ring. -/
  | loglineRecord (src : Nat)
  /-- LOG_EXPORT_DATAGRAM (R496). Within 50 µs of arrival, records of SEV at or above MIN_SEV are sent in a UDP datagram to LOG_EXPORT_DST. -/
  | logExportDatagram (n : Nat) (sent : Bool)
  /-- LOG_SAMPLE_FREE (R504). A write to LOG_SAMPLE_FREE frees the sample with that ID. -/
  | logSampleFree (id : Nat)
  /-- CTX_WATCHDOG_EXPIRY (R498). A READY context that issues nothing for the context watchdog is reset under cause 0x530. -/
  | ctxWatchdogExpiry (c : Nat)
  /-- ENGINE_WATCHDOG_EXPIRY (R498). An engine without completions for the engine watchdog is reset under cause 0x531. -/
  | engineWatchdogExpiry (e : Nat)
  /-- PARTITION_WATCHDOG_EXPIRY (R498). A partition whose held requests make no progress for its watchdog is fenced under cause 0x630. -/
  | partitionWatchdogExpiry (p : Nat)
  /-- SWITCH_WATCHDOG_EXPIRY (R498). Missing Crown heartbeat or unit progress for the switch watchdog starts a switch reset under cause 0x730. -/
  | switchWatchdogExpiry
  /-- CONTEXT_RESET_TIMEOUT (R500). A context reset not complete within 1 ms escalates to engine reset. -/
  | contextResetTimeout (c : Nat)
  /-- ENGINE_RESET_TIMEOUT (R500). An engine reset not complete within 1 ms, or repeated beyond RESET_LIMIT, takes the engine offline under cause 0x534. -/
  | engineResetTimeout (e : Nat)
  /-- FENCE_OVERRUN (R500). A partition in FENCING longer than FENCE_DRAIN_US plus the partition watchdog starts a switch reset under cause 0x731. -/
  | fenceOverrun (p : Nat)
  /-- BOOT_WATCHDOG_EXPIRY (R500). A switch reset that misses the ready point within the switch watchdog requests a power cycle under cause 0x733. -/
  | bootWatchdogExpiry
  /-- MIRROR_LINK_UP (R509). The mirror link coming up starts RESYNC under cause 0x880. -/
  | mirrorLinkUp
  /-- MIRROR_LINK_DOWN (R444). Both octets losing lock takes the mirror link down under cause 0x118 and the pair to SOLO. -/
  | mirrorLinkDown (partnerLost : Bool)
  /-- MIRROR_ACK_TIMEOUT (R444). No acknowledgment advance for DOWN_US takes the mirror link down. -/
  | mirrorAckTimeout (partnerLost : Bool)
  /-- MIRROR_OCTET_LOST (R444). One mirror octet losing lock runs the link at half rate, DEGRADED under cause 0x119. -/
  | mirrorOctetLost
  /-- MIRROR_FRAME_RECEIVE (R444). A mirror link frame is checked by sequence number, applied in order and acknowledged. -/
  | mirrorFrameReceive (seq ack : Nat) (body : MirBody)
  /-- MIRROR_REPLAY_TIMER (R444). A frame unacknowledged for 2 µs makes the sender replay go-back-N. -/
  | mirrorReplayTimer
  /-- MIRROR_UPDATE_ACK (R510). The partner's in-order acknowledgment advances CROWN_MIRROR_ACK_SEQ. -/
  | mirrorUpdateAck (n : Nat)
  /-- RESYNC_COMPLETE (R509). Both full copies complete and the pair enters PAIRED under cause 0x881, clearing the SOLO mark. -/
  | resyncComplete (held : Option Domain)
  /-- MIRROR_ADOPT (R514). A write of 1 to ADOPT in state OFF starts loading the survivor's copy of the failed switch's domain. -/
  | mirrorAdopt
  /-- MIRROR_ADOPT_COMPLETE (R514). Adoption ends; extents of the old identity enter LOST and the pair moves on to RESYNC. -/
  | mirrorAdoptComplete (copy : Option Domain)
  /-- MIRROR_CLEAR_LOST (R516). A write of 1 to CLEAR_LOST moves a LOST switch to SOLO, or to RESYNC when the link is up. -/
  | mirrorClearLost
  /-- HEALTH_DECAY (R520). Every second each health score falls by max(1, S >> DECAY_SHIFT). -/
  | healthDecay
  /-- ENG_FENCE_COMMAND (R521). CROWN_ENG_FENCE GO fences or unfences an engine from placement under cause 0x902. -/
  | engFenceCommand
  /-- SHADOW_COMPARE (R517). A shadow run completes and is compared bit for bit with the first, a mismatch raising health scores under 0x910, 0x911 or 0x912. -/
  | shadowCompare (which : ShadowRun) (mismatch : Bool)
  /-- MMA_SHADOW_SKIP (R517). An mma shadow check that finds no matrix slot within 100 µs is skipped and counted. -/
  | mmaShadowSkip (die : Nat)
  /-- BTP_PACKET_RECEIVE (R47). A received UDP datagram on the BTP port is checked (checksum, VER, EXT_WORDS, lengths, check value, PSN window) and delivered in PSN order. -/
  | btpPacketReceive (die port udpPort : Nat) (csumOk ce : Bool) (verify : Verify) (bytes : List Byte)
  /-- BTP_ACK (R72). A received ACK with optional SACK retires acknowledged packets and retransmits gaps at once. -/
  | btpAck (c epoch psn ackPsn : Nat) (sack : Option Nat)
  /-- CONN_OPEN (R66). A CONN_OPEN with matching token opens a CREATED connection; a mismatch is refused and 16 failures move it to ERROR. -/
  | connOpen (r : Nat)
  /-- CONN_CLOSE (R65). A CONN_CLOSE moves the connection to CLOSING. -/
  | connClose (r : Nat)
  /-- LOAD (R59). A LOAD reads 1 to 256 bytes within one 256-byte block and returns them. -/
  | load (r : Nat) (t : TierRead) (far : List Byte)
  /-- STORE (R59). A STORE writes 1 to 256 bytes within one 256-byte block. -/
  | store (r : Nat)
  /-- ATOMIC (R60). An ATOMIC performs ATOP on ASIZE bytes and returns the old value. -/
  | atomic (r : Nat) (t : TierRead)
  /-- TRIGGER (R61). A TRIGGER to a knot's trigger address launches its registered program, answered when the launch is accepted. -/
  | trigger (r : Nat)
  /-- BULK_READ (R59). A BULK_READ returns up to 16 MiB in segments. -/
  | bulkRead (r : Nat) (t : TierRead) (far : List Byte)
  /-- BULK_WRITE_SEGMENT (R59). A BULK_WRITE segment is placed by SEG_OFF; the transfer completes with its last segment. -/
  | bulkWriteSegment (r : Nat)
  /-- NEAR_OP (R130). A NEAR_OP runs FILL, COPY, COMPARE, REDUCE or ACCUMULATE at the home on the near-pool units. -/
  | nearOp (r : Nat) (t : TierRead) (tl : Nat) (src : Bool) (far : FarSource)
  /-- SVC_KV_PUT (R95). SVC_KV_PUT stores a block under a key once its body has arrived. -/
  | svcKvPut (r : Nat)
  /-- SVC_KV_GET (R95). SVC_KV_GET returns the block under a key, or a zero-length payload. -/
  | svcKvGet (r : Nat)
  /-- SVC_KV_DEL (R95). SVC_KV_DEL removes the block under a key. -/
  | svcKvDel (r : Nat)
  /-- SVC_PS_PUSH (R95). SVC_PS_PUSH adds gradient values into the parameter table in FP32. -/
  | svcPsPush (r : Nat)
  /-- SVC_PS_PULL (R95). SVC_PS_PULL returns parameter values converted to the element type. -/
  | svcPsPull (r : Nat)
  /-- BTP_RESPONSE_RECEIVE (R58). A response from a peer is matched by TID and ends the switch's outstanding request, resending on ROUTE_EPOCH_STALE. -/
  | btpResponseReceive (r : Nat)
  /-- BTP_RETRANSMIT_TIMER (R73). An unacknowledged packet's timer expires: the packet is resent with doubled timer, or the connection enters ERROR under 0x810. -/
  | btpRetransmitTimer (c psn : Nat)
  /-- BTP_ACK_TIMER (R72). 2 µs after an unacknowledged receipt the switch sends an ACK with SACK. -/
  | btpAckTimer (c : Nat)
  /-- BTP_REQUEST_TIMEOUT (R74). A request the switch sent gets no response within BRIM_BTP_REQ_TIMEOUT and ends with TIMEOUT. -/
  | btpRequestTimeout (t : Nat)
  /-- CONN_CLOSING_TIMEOUT (R65). 1 ms after CLOSING begins, open requests end with TIMEOUT and the connection becomes FREE. -/
  | connClosingTimeout (c : Nat)
  /-- ECN_RATE_INTERVAL (R48). Each 10 µs interval the switch halves or raises its send rate on a connection by whether CE arrived. -/
  | ecnRateInterval (qp : Bool) (n : Nat)
  /-- ROUTE_DRAIN_EXPIRY (R81). DRAIN_US after a route epoch commit the previous map stops being usable. -/
  | routeDrainExpiry
  /-- GATEWAY_GATHER_TIMEOUT (R91). 2 µs after gathering starts, gathered gateway stores or loads are sent as one bulk transfer or one for one. -/
  | gatewayGatherTimeout (n : Nat)
  /-- FORWARDED_REQUEST (R110). A request on a switch-to-switch connection is served, forwarded, or dropped by its ownership epoch and hop count. -/
  | forwardedRequest (r hops : Nat)
  /-- ROCE_RDMA_WRITE (R89). An RDMA WRITE packet is checked by R_Key and written to fabric memory. -/
  | roceRdmaWrite (n port psn : Nat) (seg : WriteSeg) (icrcOk ce : Bool) (data : List Byte)
  /-- ROCE_RDMA_READ_REQUEST (R89). An RDMA READ request up to 16 MiB is served with read responses. -/
  | roceRdmaReadRequest (n port psn rkey va len : Nat) (icrcOk ce : Bool)
  /-- ROCE_UNSUPPORTED_REQUEST (R89). A SEND, write with immediate, atomic or memory-window request is answered with NAK Invalid Request. -/
  | roceUnsupportedRequest (n port psn : Nat) (icrcOk ce : Bool)
  /-- ROCE_ACK_RECEIVE (R89). A RoCEv2 acknowledgment or NAK from the endpoint retires or retransmits queue pair packets. -/
  | roceAckReceive (n port psn : Nat) (nak icrcOk : Bool)
  /-- ROCE_CNP_RECEIVE (R89). A received CNP halves the switch's send rate on the queue pair. -/
  | roceCnpReceive (n port : Nat) (icrcOk : Bool)
  /-- MBOX_EXT_ADD (R115). EXT_ADD installs an extent entry and its Cleat entries; it completes DONE when the extent is ACTIVE. -/
  | mboxExtAdd (slot : Nat)
  /-- MBOX_EXT_REVOKE (R105). EXT_REVOKE puts an extent into DRAINING. -/
  | mboxExtRevoke (slot : Nat)
  /-- MBOX_EXT_RELEASE (R107). EXT_RELEASE moves a DRAINED or LOST extent to RELEASING and removes its Cleat entry. -/
  | mboxExtRelease (slot : Nat)
  /-- MBOX_EXT_QUERY (R114). EXT_QUERY returns an extent's state, open requests and placement counts. -/
  | mboxExtQuery (slot : Nat)
  /-- MBOX_EXT_SET_POLICY (R114). EXT_SET_POLICY changes PIN_HOT, PIN_WARM and STAGING_OK of an extent. -/
  | mboxExtSetPolicy (slot : Nat)
  /-- MBOX_EXT_ROUTE (R109). EXT_ROUTE adds or removes a route entry, draining a lower-epoch local home. -/
  | mboxExtRoute (slot : Nat)
  /-- MBOX_PAGE_CLEAR (R134). PAGE_CLEAR fills a POISONED page with zeros and clears its poison. -/
  | mboxPageClear (slot : Nat)
  /-- MBOX_TRAY_ATTACH (R138). TRAY_ATTACH enumerates and checks a tray and reports its usable capacity. -/
  | mboxTrayAttach (slot : Nat) (dev : Option TrayDev)
  /-- MBOX_TRAY_DETACH (R117). TRAY_DETACH removes an unused tray. -/
  | mboxTrayDetach (slot : Nat)
  /-- MBOX_STRIPE_SET_DEFINE (R118). STRIPE_SET_DEFINE defines, redefines or removes a stripe set. -/
  | mboxStripeSetDefine (slot : Nat)
  /-- MBOX_STRIPE_SET_REBUILD (R122). STRIPE_SET_REBUILD starts rebuilding a failed tray's units onto a replacement. -/
  | mboxStripeSetRebuild (slot : Nat)
  /-- MBOX_CONN_CREATE (R116). CONN_CREATE creates a connection entry and returns its ID. -/
  | mboxConnCreate (slot : Nat)
  /-- MBOX_CONN_MODIFY (R116). CONN_MODIFY changes a connection entry's fields. -/
  | mboxConnModify (slot : Nat)
  /-- MBOX_CONN_DESTROY (R65). CONN_DESTROY moves a connection to CLOSING or FREE. -/
  | mboxConnDestroy (slot : Nat)
  /-- MBOX_QP_CREATE (R116). QP_CREATE creates a RoCEv2 queue pair at a chosen index. -/
  | mboxQpCreate (slot : Nat)
  /-- MBOX_QP_DESTROY (R88). QP_DESTROY removes a queue pair. -/
  | mboxQpDestroy (slot : Nat)
  /-- MBOX_RESERVED_OPCODE (R114). A mailbox command with a reserved opcode completes BAD_OPCODE under cause 0x350. -/
  | mboxReservedOpcode (slot : Nat)
  /-- EXTENT_ADDING_COMPLETE (R105). An ADDING extent becomes ACTIVE once capacity is reserved and its Cleat entries have taken effect. -/
  | extentAddingComplete (e : Nat)
  /-- EXTENT_DRAIN_TIMEOUT (R106). At the drain timeout, open requests and near-pool operations end with EXTENT_REVOKED and the extent enters DRAINED. -/
  | extentDrainTimeout (e : Nat)
  /-- EXTENT_RELEASE_COMPLETE (R107). A RELEASING extent becomes FREE once its scrub and capacity return are done. -/
  | extentReleaseComplete (e : Nat)
  /-- EXTENT_RECOVERY_COMPLETE (R121). A RECOVERING extent becomes ACTIVE when its parity rows are recomputed and its flash trays recovered. -/
  | extentRecoveryComplete (e : Nat) (maps : List (Nat × MapSource))
  /-- PLACEMENT_WINDOW_EXPIRY (R126). At the end of each WINDOW_MS the Tier engine promotes pages whose access counts reached PROMOTE_THRESH. -/
  | placementWindowExpiry
  /-- PAGE_MIGRATION_START (R128). The Tier engine allocates a destination, marks the page MIGRATING and starts copying sub-blocks. -/
  | pageMigrationStart (p : Nat) (k : Move)
  /-- PAGE_MIGRATION_COPY_DONE (R128). The sub-block copy and recopy rounds end; in-flight requests are held and waited for, or the migration aborts. -/
  | pageMigrationCopyDone (p : Nat)
  /-- PAGE_MIGRATION_VERIFY_DONE (R128). The CRC-64 read-back ends: the descriptor switches and the source frees, or the destination is abandoned. -/
  | pageMigrationVerifyDone (p : Nat) (ok : Bool)
  /-- PREFETCH_DEADLINE (R127). A prefetch descriptor's deadline passes first: a LATE record under cause 0x360 and the fetch continues. -/
  | prefetchDeadline (o : Nat)
  /-- TRAY_LOST (R122). A tray lost makes its stripe sets DEGRADED, and may start auto rebuild onto a spare. -/
  | trayLost (t : Nat)
  /-- REBUILD_COMPLETE (R122). The last rebuilt unit is written and the stripe set leaves DEGRADED under cause 0x322. -/
  | rebuildComplete (k : Nat)
  /-- TRAY_COMPLETION (R470). A tray read or write completion returns to a protection unit, which discards old-epoch blocks under cause 0x605. -/
  | trayCompletion (t p e : Nat)
  /-- DEMOTION_APPEND_COMPLETE (R148). The Zone Appends of a page demotion complete and are read back and verified, or abandoned and restarted. -/
  | demotionAppendComplete (p : Nat) (ok : Bool)
  /-- JOURNAL_APPEND_COMPLETE (R145). A journal append to a tray completes; the next is issued and a group with LAST may commit. -/
  | journalAppendComplete (t : Nat)
  /-- JOURNAL_APPEND_FAILED (R145). A failed journal append is rewritten in a new journal zone under cause 0x377. -/
  | journalAppendFailed (t : Nat)
  /-- JOURNAL_PARTNER_ACK (R146). The partner acknowledges a journal group, committing it or clearing JOURNAL_UNMIRRORED. -/
  | journalPartnerAck (t : Nat)
  /-- JOURNAL_ACK_TIMEOUT (R146). 100 µs without partner acknowledgment commits the group on the tray alone and sets JOURNAL_UNMIRRORED under cause 0x376. -/
  | journalAckTimeout (t : Nat)
  /-- CHECKPOINT_COMPLETE (R147). CKPT_END and the root record are written and older journal, map and checkpoint zones reset. -/
  | checkpointComplete (t : Nat)
  /-- MAP_PAGE_READ_COMPLETE (R141). A map-page read from the tray completes for a waiting read, or fails its check under cause 0x378. -/
  | mapPageReadComplete (t m : Nat) (ok partner : Bool)
  /-- GC_COPY_COMPLETE (R150). The near-pool copy of valid chunks to the GC destination completes and read-back starts, or the copy fails under cause 0x371. -/
  | gcCopyComplete (t : Nat) (ok : Bool)
  /-- GC_VERIFY_COMPLETE (R150). Read-back verifies and MAP_MOVE records and GC_COMMIT are journaled, or the destination is abandoned. -/
  | gcVerifyComplete (t : Nat) (ok : Bool)
  /-- ZONE_RESET_COMPLETE (R150). A Zone Reset completes and ZONE_FREE is journaled. -/
  | zoneResetComplete (t z : Nat)
  /-- ZONE_READ_ONLY (R157). A Zone Descriptor Changed event reporting Read Only retires the zone and starts evacuation under cause 0x373. -/
  | zoneReadOnly (t z : Nat)
  /-- ZONE_OFFLINE (R158). A zone reported Offline is retired and its chunks rebuilt or their pages poisoned under cause 0x375. -/
  | zoneOffline (t z : Nat)
  /-- CXL_RDCURR (R170). An agent RdCurr reads the current line without changing directory state. -/
  | cxlRdcurr (port key : Nat)
  /-- CXL_RDSHARED (R170). An agent RdShared is granted S, snooping an EM owner. -/
  | cxlRdshared (port key : Nat)
  /-- CXL_RDANY (R170). An agent RdAny is granted E, or S with NO_E or sharers. -/
  | cxlRdany (port key : Nat)
  /-- CXL_RDOWN (R170). An agent RdOwn recalls other holders and is granted E. -/
  | cxlRdown (port key : Nat)
  /-- CXL_RDOWNNODATA (R170). An agent RdOwnNoData recalls other holders and is granted E without data. -/
  | cxlRdownnodata (port key : Nat)
  /-- CXL_ITOMWR (R170). An ItoMWr recalls holders and writes the line. -/
  | cxlItomwr (port key : Nat) (data : List Byte) (poison : Bool)
  /-- CXL_WRCUR (R170). A WrCur recalls holders and writes the line. -/
  | cxlWrcur (port key : Nat) (data : List Byte) (poison : Bool)
  /-- CXL_WRINV (R170). A WrInv recalls holders and writes the line. -/
  | cxlWrinv (port key : Nat) (data : List Byte) (poison : Bool)
  /-- CXL_CLFLUSH (R166). A CLFlush flushes a line from the agent. -/
  | cxlClflush (port key : Nat)
  /-- CXL_CLEANEVICT (R170). A CleanEvict removes the requester from the line's holders. -/
  | cxlCleanevict (port key : Nat)
  /-- CXL_CLEANEVICTNODATA (R170). A CleanEvictNoData removes the requester from the line's holders. -/
  | cxlCleanevictnodata (port key : Nat)
  /-- CXL_DIRTYEVICT (R170). A DirtyEvict from the owner is pulled, written and leaves the line I, or completes a crossing snoop. -/
  | cxlDirtyevict (port key : Nat) (data : List Byte) (poison : Bool)
  /-- CXL_CACHEFLUSHED (R166). A CacheFlushed message is accepted and ignored. -/
  | cxlCacheflushed (port : Nat)
  /-- CXL_SNOOP_RESPONSE (R172). A D2H snoop response (RspIHitI, RspVHitV, RspIHitSE, RspSHitSE, RspSFwdM, RspIFwdM, RspVFwdV) advances its transaction or is discarded as late. -/
  | cxlSnoopResponse (n l : Nat) (rsp : SnoopKind) (data : List Byte) (poison : Bool)
  /-- CXL_MEMRD (R170). A host M2S MemRd with MetaValue I, S or A is served under the directory table. -/
  | cxlMemrd (port key : Nat) (m : MetaValue)
  /-- CXL_MEMRDDATA (R166). A host MemRdData reads the line. -/
  | cxlMemrddata (port key : Nat)
  /-- CXL_MEMWR (R170). A host MemWr writes the line, completing a crossing back-invalidation when outstanding. -/
  | cxlMemwr (port key : Nat) (data : List Byte) (poison : Bool)
  /-- CXL_MEMCLNEVCT (R170). A host MemClnEvct removes it from the line's holders. -/
  | cxlMemclnevct (port key : Nat)
  /-- CXL_BICONFLICT (R173). A host BIConflict is answered with BIConflictAck. -/
  | cxlBiconflict (port l : Nat)
  /-- CXL_MEMSPECRD (R166). A MemSpecRd is treated as a hint and not answered. -/
  | cxlMemspecrd (port key : Nat)
  /-- CXL_BIRSP (R172). An M2S BIRspI, BIRspS or BIRspE advances its back-invalidation transaction. -/
  | cxlBirsp (n l : Nat) (rsp : BiRsp)
  /-- CXL_UNLISTED_MESSAGE (R166). An unlisted CXL coherence message completes with an error completion under cause 0x420. -/
  | cxlUnlistedMessage (port : Nat)
  /-- SNOOP_TIMEOUT (R177). A snoop with no response within SNOOP_TIMEOUT_US completes as RspIHitI and starts agent loss under cause 0x403. -/
  | snoopTimeout (n l : Nat)
  /-- LIVENESS_PROBE_PERIOD (R179). Every HB_PERIOD_US the Hitch sends a liveness probe; HB_MISS missed probes declare the agent lost. -/
  | livenessProbePeriod
  /-- AGENT_LINK_DOWN (R179). An agent's CXL link going down starts the agent-loss procedure under cause 0x401. -/
  | agentLinkDown (n : Nat)
  /-- AGENT_LOSS_WALK_COMPLETE (R180). The directory walk ends and the agent's STATE becomes LOST, raising the Hitch interrupt. -/
  | agentLossWalkComplete (n : Nat)
  /-- HITCH_POISON_CLEAR (R181). HITCH_POISON_CTRL GO clears a line's poison in mode ZERO or RELEASE as the home's next transaction. -/
  | hitchPoisonClear
  /-- FULLER_ATOMIC_HOLD_EXPIRY (R185). ATOM_HOLD_NS after its first participant, an atomic combine entry sends its merged request. -/
  | fullerAtomicHoldExpiry (e : Nat) (t : TierRead)
  /-- FULLER_FORWARD_HOLD_EXPIRY (R189). FWD_HOLD_NS after its first participant, a forwarding combine entry forwards its merged request. -/
  | fullerForwardHoldExpiry (e : Nat)
  /-- FULLER_MERGED_RESPONSE (R187). The response to a merged request fans out each participant's data or serial value and status. -/
  | fullerMergedResponse (e : Nat)
  /-- PROG_LOAD (R210). PROG_LOAD finalizes a QPF image and assigns a PROG_ID. -/
  | progLoad (view : Option Nat) (slot : Nat) (t : TierRead) (far farBind : List Byte)
  /-- PROG_UNLOAD (R215). PROG_UNLOAD removes an unplaced, unregistered program. -/
  | progUnload (view : Option Nat) (slot : Nat)
  /-- PROG_PLACE (R213). PROG_PLACE places all COUNT instances or none. -/
  | progPlace (view : Option Nat) (slot : Nat)
  /-- CTX_STOP (R215). CTX_STOP stops a context at the next instruction boundary. -/
  | ctxStop (view : Option Nat) (slot : Nat)
  /-- CTX_RESUME (R215). CTX_RESUME returns a STOPPED context to READY or PARKED. -/
  | ctxResume (view : Option Nat) (slot : Nat)
  /-- CTX_RESET (R214). CTX_RESET zeroes a context and restarts it at ENTRY in its placed mode. -/
  | ctxReset (view : Option Nat) (slot : Nat)
  /-- CTX_FREE (R215). CTX_FREE returns a context to FREE and breaks its owned knots. -/
  | ctxFree (view : Option Nat) (slot : Nat)
  /-- SVC_ENABLE (R217). SVC_ENABLE reserves context 7s and places the QS-700 service program for a partition. -/
  | svcEnable (view : Option Nat) (slot : Nat)
  /-- SVC_DISABLE (R218). SVC_DISABLE stops service intake and lets open requests finish for 1 ms. -/
  | svcDisable (view : Option Nat) (slot : Nat)
  /-- SVC_DISABLE_TIMEOUT (R218). 1 ms after SVC_DISABLE the service contexts are freed, open requests unanswered. -/
  | svcDisableTimeout (p : Nat)
  /-- PROG_RESERVED_OPCODE (R211). A program command with a reserved opcode completes BAD_OPCODE. -/
  | progReservedOpcode (view : Option Nat) (slot : Nat)
  /-- WINDOW_ZEROING_COMPLETE (R202). Zeroing of a context's windows, registers and tiles completes and the context may leave FREE or be reassigned. -/
  | windowZeroingComplete (c : Nat)
  /-- I_S_ALU (R270). s.alu computes a scalar integer or logic result. -/
  | iSAlu (c : Nat)
  /-- I_S_CMP (R270). s.cmp computes a scalar compare, min or max. -/
  | iSCmp (c : Nat)
  /-- I_S_LI (R271). s.li loads a 64-bit immediate. -/
  | iSLi (c : Nat)
  /-- I_S_GETL (R271). s.getl copies one vector lane to a scalar register. -/
  | iSGetl (c : Nat)
  /-- I_S_SETL (R271). s.setl writes a scalar into one vector lane. -/
  | iSSetl (c : Nat)
  /-- I_BR (R272). br branches by a signed offset. -/
  | iBr (c : Nat)
  /-- I_BC (R272). bc branches on a scalar condition. -/
  | iBc (c : Nat)
  /-- I_BP (R272). bp branches on a predicate condition. -/
  | iBp (c : Nat)
  /-- I_BR_L (R272). br.l branches by a 48-bit offset. -/
  | iBrL (c : Nat)
  /-- I_CALL (R272). call saves the return address and branches. -/
  | iCall (c : Nat)
  /-- I_JR (R272). jr jumps to a register address, faulting on a non-instruction target. -/
  | iJr (c : Nat)
  /-- I_HALT (R273). halt stops issue; the context enters DONE or PARKED once its asynchronous operations complete. -/
  | iHalt (c : Nat)
  /-- I_CAP_RD (R207). cap.rd reads a capability index. -/
  | iCapRd (c : Nat)
  /-- I_ST_RD (R226). st.rd copies STAT to a scalar register. -/
  | iStRd (c : Nat)
  /-- I_ST_CLR (R274). st.clr sets STAT to 0 at issue. -/
  | iStClr (c : Nat)
  /-- I_TIME_RD (R272). time.rd reads the die's shadow time counter. -/
  | iTimeRd (c : Nat)
  /-- I_V_IALU (R275). v.ialu applies an integer operation per element. -/
  | iVIalu (c : Nat)
  /-- I_V_ICMP (R276). v.icmp writes a predicate from an integer compare. -/
  | iVIcmp (c : Nat)
  /-- I_V_MOV (R276). v.mov copies, broadcasts, iotas, permutes or rotates lanes. -/
  | iVMov (c : Nat)
  /-- I_P_OP (R276). p.op computes a predicate logic result. -/
  | iPOp (c : Nat)
  /-- I_P_CNT (R276). p.cnt counts the set bits of a predicate. -/
  | iPCnt (c : Nat)
  /-- I_V_FALU (R277). v.falu applies a floating-point operation per element. -/
  | iVFalu (c : Nat)
  /-- I_V_FFMA (R277). v.ffma computes a fused multiply-add per element. -/
  | iVFfma (c : Nat)
  /-- I_V_FCMP (R277). v.fcmp writes a predicate from a float compare. -/
  | iVFcmp (c : Nat)
  /-- I_V_FLONG (R277). v.flong computes divide, square root, exp2 or log2. -/
  | iVFlong (c : Nat)
  /-- I_MMA (R278). mma multiplies an A panel by a B panel into an accumulator tile. -/
  | iMma (c : Nat) (e : Ecc)
  /-- I_TILE_ZERO (R279). tile.zero writes +0.0 to a tile. -/
  | iTileZero (c : Nat)
  /-- I_TILE_RDC (R279). tile.rdc reads a tile column into a vector. -/
  | iTileRdc (c : Nat) (e : Ecc)
  /-- I_TILE_WRC (R279). tile.wrc writes a vector into a tile column. -/
  | iTileWrc (c : Nat)
  /-- I_RED_V (R280). red.v reduces active lanes to a scalar. -/
  | iRedV (c : Nat)
  /-- I_RED_TOPK (R281). red.topk merges candidates into a running top-L list. -/
  | iRedTopk (c : Nat)
  /-- I_RED_ADD (R282). red.add sends a collective contribution into a Felt accumulation region. -/
  | iRedAdd (c : Nat) (e : Ecc)
  /-- I_GF_GATHER (R283). gf.gather gathers elements by index from the cluster window into scratch. -/
  | iGfGather (c : Nat)
  /-- I_GF_FILTER (R284). gf.filter compacts kept elements and their indices. -/
  | iGfFilter (c : Nat) (e : Ecc)
  /-- I_LD_S (R285). ld.s loads a scalar from a local window. -/
  | iLdS (c : Nat) (e : Ecc)
  /-- I_ST_S (R285). st.s stores a scalar to a local window. -/
  | iStS (c : Nat)
  /-- I_LD_V (R285). ld.v loads a vector from a local window. -/
  | iLdV (c : Nat) (e : Ecc)
  /-- I_ST_V (R285). st.v stores a vector to a local window. -/
  | iStV (c : Nat)
  /-- I_LD_VX (R285). ld.vx loads lanes by per-lane offsets. -/
  | iLdVx (c : Nat) (e : Ecc)
  /-- I_ST_VX (R285). st.vx stores lanes by per-lane offsets. -/
  | iStVx (c : Nat)
  /-- I_DMA (R286). dma reads a descriptor at issue and starts a strided tensor transfer. -/
  | iDma (c : Nat) (e : Ecc)
  /-- I_PF_PAGE (R288). pf.page issues a prefetch descriptor to the Tier engine. -/
  | iPfPage (c : Nat)
  /-- I_FAB_LD (R290). fab.ld issues a fabric LOAD of a scalar or vector. -/
  | iFabLd (c : Nat)
  /-- I_FAB_ST (R290). fab.st issues a fabric STORE of a scalar or vector. -/
  | iFabSt (c : Nat)
  /-- I_FAB_ATOM (R291). fab.atom issues a signed, unsigned or float fabric ATOMIC. -/
  | iFabAtom (c : Nat)
  /-- I_FAB_ATOMU (R291). fab.atomu issues an unsigned 64-bit fabric ATOMIC. -/
  | iFabAtomu (c : Nat)
  /-- I_FAB_TRIG (R292). fab.trig sends a TRIGGER with up to 64 bytes of arguments. -/
  | iFabTrig (c : Nat)
  /-- I_FAB_BLD (R293). fab.bld issues a BULK_READ into a local window. -/
  | iFabBld (c : Nat)
  /-- I_FAB_BST (R293). fab.bst issues a BULK_WRITE from a local window. -/
  | iFabBst (c : Nat) (e : Ecc)
  /-- I_FAB_NEAR (R294). fab.near reads a near-pool block and sends NEAR_OP. -/
  | iFabNear (c : Nat) (e : Ecc)
  /-- I_KNOT_BIND (R295). knot.bind binds a handle to a knot of the partition's slice. -/
  | iKnotBind (c : Nat)
  /-- I_KNOT_SIG (R296). knot.sig signals a knot after the context's earlier stores. -/
  | iKnotSig (c : Nat)
  /-- I_KNOT_ARR (R296). knot.arr records a barrier arrival after the context's earlier stores. -/
  | iKnotArr (c : Nat)
  /-- I_KNOT_WAIT (R297). knot.wait waits on a knot's condition with an optional deadline. -/
  | iKnotWait (c : Nat)
  /-- I_KNOT_TEST (R297). knot.test returns a knot's status at once without taking a unit. -/
  | iKnotTest (c : Nat)
  /-- I_CLEAT_LOOK (R299). cleat.look looks up each active lane in a lent Cleat tag. -/
  | iCleatLook (c : Nat) (v : Verify) (l : Nat)
  /-- I_CHK_CFG (R300). chk.cfg loads check-value parameters into the context's slot. -/
  | iChkCfg (c : Nat) (e : Ecc)
  /-- I_CHK_UPD (R300). chk.upd feeds bytes into the running value. -/
  | iChkUpd (c : Nat)
  /-- I_CHK_APP (R300). chk.app feeds bytes and appends the final value. -/
  | iChkApp (c : Nat)
  /-- I_CHK_FIN (R300). chk.fin returns the final value and resets the running value. -/
  | iChkFin (c : Nat)
  /-- I_CHK_RD (R300). chk.rd returns the raw running value. -/
  | iChkRd (c : Nat)
  /-- I_CHK_WR (R300). chk.wr sets the running value. -/
  | iChkWr (c : Nat)
  /-- I_CDC_CARD (R402). cdc.card runs the carding pass and writes card records. -/
  | iCdcCard (c : Nat) (e : Ecc)
  /-- I_CDC_ENC_ENCODE (R401). cdc.enc MODE ENCODE encodes blocks into a COMPRESSED extent. -/
  | iCdcEncEncode (c : Nat) (e : Ecc)
  /-- I_CDC_ENC_FORMAT (R400). cdc.enc MODE FORMAT writes the header and empty index of a COMPRESSED extent. -/
  | iCdcEncFormat (c : Nat) (e : Ecc)
  /-- I_CDC_DEC (R403). cdc.dec decodes blocks of a COMPRESSED extent into a destination. -/
  | iCdcDec (c : Nat) (e : Ecc)
  /-- I_CVT (R302). cvt converts each lane between integer and float formats. -/
  | iCvt (c : Nat)
  /-- I_V_PACK (R303). v.pack moves elements between packed and unpacked form. -/
  | iVPack (c : Nat)
  /-- I_MX_Q (R304). mx.q quantizes FP32 lanes to MX blocks with scale bytes. -/
  | iMxQ (c : Nat)
  /-- I_MX_DQ (R304). mx.dq dequantizes MX bytes to FP32 lanes. -/
  | iMxDq (c : Nat)
  /-- FAB_OP_COMPLETE (R256). A fabric operation's response arrives and is delivered to its destination, knot, STAT or TRAP fault. -/
  | fabOpComplete (o : Nat)
  /-- FAB_OP_TIMEOUT (R246). A fabric operation with no response within TIMEOUT_US ends with TIMEOUT under cause 0x508. -/
  | fabOpTimeout (o : Nat)
  /-- DMA_COMPLETE (R287). A DMA descriptor finishes or ends, writes its record and signals its knot. -/
  | dmaComplete (o : Nat) (t : TierRead) (tl : Nat) (es : List (Nat × Ecc)) (far : List Byte)
  /-- GATHER_FILTER_COMPLETE (R284). A gather or filter request completes, writes OUT_COUNT and signals its knot. -/
  | gatherFilterComplete (o : Nat) (e : Ecc)
  /-- CHECK_VALUE_COMPLETE (R300). A check-value instruction completes, writing its destination and signalling its knot. -/
  | checkValueComplete (o : Nat) (e : Ecc)
  /-- CODEC_REQUEST_COMPLETE (R399). A codec request ends, writes STORED and FAIL_BLOCK and signals its knot. -/
  | codecRequestComplete (o : Nat) (t : TierRead) (tl : Nat) (es : List (Nat × Ecc)) (far : List Byte)
  /-- CODEC_BLOCK_ENCODED (R401). A codec unit finishes encoding a block: the home reserves its offset, writes it and sets the index entry. -/
  | codecBlockEncoded (o : Nat) (t : TierRead) (e : Ecc) (far : List Byte)
  /-- KNOT_WAIT_DEADLINE (R298). A wait's deadline passes and it returns LATE within 100 ns without a unit. -/
  | knotWaitDeadline (o : Nat)
  /-- KNOT_SIGNAL_APPLY (R346). A signal reaches the knot array, updates the value by type and wakes satisfied waiters. -/
  | knotSignalApply (n : Nat)
  /-- KNOT_ARRIVAL_APPLY (R347). An arrival reaches a barrier knot; at TARGET the generation completes or a member sends its stage arrival. -/
  | knotArrivalApply (o : Nat)
  /-- KNOT_WAIT_ARRIVE (R346). A wait reaches the knot and returns at once or stays pending. -/
  | knotWaitArrive (o : Nat)
  /-- KNOT_STAGE_RELEASE (R353). A release store at offset 0x18 advances a member's generation and applies held arrivals. -/
  | knotStageRelease (r : Nat)
  /-- KNOT_REARM (R360). A write of 1 to REARM returns a BROKEN knot to ACTIVE. -/
  | knotRearm (n : Nat)
  /-- KNOT_CLR_FAIL (R366). A write of 1 to CLR_FAIL sets FAIL_STATUS to 0. -/
  | knotClrFail (n : Nat)
  /-- KNOT_QUEUED_LAUNCH_START (R355). A queued launch starts when an instance of its program returns to PARKED. -/
  | knotQueuedLaunchStart (part prog : Nat)
  /-- COLL_SEG (R313). A COLL_SEG contribution or fetch is checked, added or placed, and answered when its granules complete. -/
  | collSeg (r : Nat)
  /-- COLL_GENERATION_TIMEOUT (R317). A generation not COMPLETE TIMEOUT_US after OPEN is aborted with LATE under cause 0x265. -/
  | collGenerationTimeout (n : Nat)
  /-- COLL_HOLD_EXPIRY (R315). HOLD_US after COMPLETE a FETCH generation closes. -/
  | collHoldExpiry (n : Nat)
  /-- COLL_CLOSE_COMPLETE (R314). CLOSING finishes zeroing the region and CUR_GEN advances with the group back in IDLE. -/
  | collCloseComplete (n : Nat)
  /-- COLL_RESULT_WRITE_COMPLETE (R316). A STORE-delivery result write completes; after the last one DONE_KNOT is signalled and the generation closes. -/
  | collResultWriteComplete (n : Nat)
  /-- ATTN_REQ (R326). An ATTN_REQ is checked and cut into split work items when its body has arrived. -/
  | attnReq (r : Nat)
  /-- RETR_REQ (R335). A RETR_REQ is checked and cut into work items of 1,024 tiles. -/
  | retrReq (r : Nat)
  /-- WORK_ITEM_DISPATCH (R325). The dispatcher hands a queued work item to the longest-parked kernel context and launches it. -/
  | workItemDispatch (part : Nat) (attn : Bool)
  /-- WORK_ITEM_COMPLETE (R333). A kernel context finishes a work item; its result is read and the response built once all items end. -/
  | workItemComplete (n : Nat) (t : TierRead) (tl : Nat) (far : List Byte) (e : Ecc)
  /-- CLEAT_INSERT (R378). A Cleat INSERT shifts entries and writes the new entry at its sorted place. -/
  | cleatInsert (set : Nat)
  /-- CLEAT_REMOVE (R378). A Cleat REMOVE invalidates an entry and shifts the entries above it down. -/
  | cleatRemove (set : Nat)
  /-- CLEAT_MODIFY (R376). A Cleat MODIFY replaces HI and RESULT of an entry in one cycle. -/
  | cleatModify (set : Nat)
  /-- CLEAT_FLUSH_TAG (R377). A Cleat FLUSH_TAG removes every non-SYS entry of a tag. -/
  | cleatFlushTag (set : Nat)
  /-- CLEAT_UPDATE_COMPLETE (R375). An update completes once every replica and cache agrees, setting DONE and RESULT. -/
  | cleatUpdateComplete (set : Nat)
  /-- CLEAT_ENTRY_RESTORE (R380). An uncorrectable stored entry is restored from the partner, or removed under cause 0x382. -/
  | cleatEntryRestore (tag lo : Nat) (restored : Bool)
  /-- CLUSTER_CLEAT_FILL (R374). A cluster Cleat miss is filled from the Felt table. -/
  | clusterCleatFill (cluster tag key : Nat)
  /-- FRAME_RECEIVE (R416). A received frame is classified, policed, given a partition and queue, and admitted or dropped. -/
  | frameReceive (port : Nat) (hdr : FrameHdr)
  /-- PAUSE_FRAME_RECEIVE (R440). A received PAUSE or PFC frame is discarded and counted. -/
  | pauseFrameReceive (port : Nat)
  /-- FRAME_LAST_CELL_WRITTEN (R414). A frame's last cell is written: it becomes eligible, unused cells return, or a failed frame is discarded or stomped. -/
  | frameLastCellWritten (f bytes : Nat) (err : RxErr)
  /-- EGRESS_SELECTION (R427). A port scheduler picks the next frame by strict priority, committed and peak eligibility and finish tags. -/
  | egressSelection (port : Nat) (ecc : Ecc)
  /-- RESP_QUEUE_HEAD_CHANGE (R426). The Brim egress arbiter reports a new head length of its BTP response queue to the scheduler. -/
  | respQueueHeadChange (port : Nat)
  /-- PORT_FLUSH_COMPLETE (R433). A queue flush ends and a port that came back up accepts frames. -/
  | portFlushComplete (port : Nat)
  /-- LANE_SIGNAL_DETECT (R446). A port's lane signal detect and CDR lock change, waking a DOWN or FAILED port's bring-up. -/
  | laneSignalDetect (p : Nat) (on : Bool)
  /-- PORT_BRINGUP_STEP_DONE (R445). A bring-up step of an ETH or MIRROR port finishes and the next starts, ending with LINK_STATE UP. -/
  | portBringupStepDone (p : Nat)
  /-- PORT_BRINGUP_TIMEOUT (R446). An attempt not UP within 1,000 ms fails; after 3 failures the port enters FAILED under cause 0x104. -/
  | portBringupTimeout (p : Nat)
  /-- PORT_BRINGUP_RETRY (R446). 100 ms after a failed attempt bring-up starts again. -/
  | portBringupRetry (p : Nat)
  /-- KEY_EXCHANGE_FRAME (R480). A MACsec key exchange frame with the peer's nonce arrives and both ends derive SAKs. -/
  | keyExchangeFrame (p : Nat) (frame : List Byte)
  /-- KEY_EXCHANGE_TIMEOUT (R480). No valid exchange frame within 10 ms fails the bring-up attempt under cause 0x608. -/
  | keyExchangeTimeout (p : Nat)
  /-- MACSEC_REKEY (R480). A sender's packet number reaching 2^REKEY_PN_LOG2 moves it to the next SAK. -/
  | macsecRekey (p : Nat)
  /-- PORT_LINK_DOWN (R446). An UP port losing PCS lock goes down under cause 0x105 and flushes its queues. -/
  | portLinkDown (p : Nat)
  /-- LINK_ERROR_WINDOW (R448). Each 10 ms window is judged; REEQ_WINDOWS bad windows start re-equalize under cause 0x110. -/
  | linkErrorWindow (p : Nat) (syms : List Nat) (unc : Nat) (margins : List Nat)
  /-- REEQ_ADAPT_EXPIRY (R449). After REEQ_MAX_US of adaptation the port checks margin and symbol errors for 100 µs. -/
  | reeqAdaptExpiry (p : Nat)
  /-- REEQ_CHECK_DONE (R449). The re-equalize check ends: the port returns UP, retries once, or goes down under cause 0x112. -/
  | reeqCheckDone (p : Nat) (ok : Bool)
  /-- PCIE_LINK_TRAINED (R447). A PCIE or CXL link reaches L0, possibly DEGRADED, and is enumerated. -/
  | pcieLinkTrained (p lanes rate : Nat)
  /-- PCIE_TRAINING_TIMEOUT (R447). A link not in L0 within 100 ms counts as a failed attempt. -/
  | pcieTrainingTimeout (p : Nat)
  /-- PCIE_MARGIN_CHECK (R451). Every MARGIN_PERIOD_MS lanes are margined and a low lane sends the link to Recovery under cause 0x113. -/
  | pcieMarginCheck (p : Nat) (margins : List Nat)
  /-- PCIE_PERIODIC_RETRAIN (R451). RETRAIN_S after its last equalization a link enters Recovery. -/
  | pciePeriodicRetrain (p : Nat)
  /-- PCIE_RECOVERY_COMPLETE (R451). A link returns to L0 from Recovery and held tray requests and timers resume. -/
  | pcieRecoveryComplete (p : Nat)
  /-- PCIE_RECOVERY_TIMEOUT (R451). A link not back in L0 within 32 ms goes down under cause 0x114 as a tray or agent loss. -/
  | pcieRecoveryTimeout (p : Nat)
  /-- IDE_CHECK_FAIL (R455). A CXL IDE check failure takes the link down under cause 0x121. -/
  | ideCheckFail (p : Nat)
  /-- HBM_RETRAIN (R452). Every PERIOD_MS an HBM channel retrains, raising health under cause 0x130 on low margin. -/
  | hbmRetrain (stack margin : Nat)
  /-- FENCE_ORDERED_SET_RECEIVE (R459). Four identical fence ordered sets end requests on the port's connections with DEVICE_RESET or PARTITION_FENCED. -/
  | fenceOrderedSetReceive (p : Nat) (b : FenceSet)
  /-- PARTITION_CREATE (R467). CREATE checks CROWN_PART_CFG_p, derives keys, writes slices and moves the partition to ACTIVE. -/
  | partitionCreate (p : Nat)
  /-- PARTITION_FENCE (R468). FENCE moves the partition to FENCING and takes every fence step within 10 µs. -/
  | partitionFence (p : Nat)
  /-- PARTITION_REMOVE (R469). REMOVE fences if needed and runs removal, key epoch advance and scrub. -/
  | partitionRemove (p : Nat)
  /-- FENCE_DRAIN_EXPIRY (R468). At FENCE_DRAIN_US open requests end with PARTITION_FENCED and the partition becomes FENCED. -/
  | fenceDrainExpiry (p : Nat)
  /-- KEY_STATE_RECORD_DURABLE (R473). The key state record naming e + 1 is written and acknowledged, and the epoch advances into SCRUBBING. -/
  | keyStateRecordDurable (p : Nat)
  /-- PARTITION_SCRUB_COMPLETE (R469). The zero fill of every extent ends; resources are cleared, the fence released and the partition FREE. -/
  | partitionScrubComplete (p : Nat)
  /-- LC_TRANSITION (R482). A signed life-cycle token moves the fused life-cycle state forward or is refused under cause 0x621. -/
  | lcTransition (lc : Nat) (tokenOk : Bool)
  /-- DEBUG_UNLOCK (R483). A signed token unlocks the debug port until power-on reset under cause 0x620. -/
  | debugUnlock (tokenOk : Bool)
  /-- DEBUG_ACCESS (R483). A debug port access is served, or answered with the fixed locked response. -/
  | debugAccess
  /-- FENCE_ORDERED_SET_END (R459). When a port stops receiving the fence ordered set, a REASON 0 fence takes the port down and flushes its queues, and a REASON 1 fence returns the port to service. -/
  | fenceOrderedSetEnd (p : Nat)
  /-- LIVENESS_PROBE_TIMEOUT (R179). A liveness probe with no response within SNOOP_TIMEOUT_US counts as missed, and HB_MISS consecutive misses declare the agent lost under cause 0x402. -/
  | livenessProbeTimeout (n : Nat)
  /-- REMOTE_FAULT_RECEIVE (R450). An ETH port that receives Remote Fault from its partner sends Idle under 802.3 link fault signalling, so that the partner can re-equalize, and it resumes data when the fault stops. -/
  | remoteFaultReceive (p : Nat) (on : Bool)
  /-- REFCLK_RESTORED (R40). A reference clock that was lost is detected again, which sets REF156_PRESENT or REF100_PRESENT and lets the CLOCK fault bit be cleared by W1C. -/
  | refclkRestored (ref156 : Bool)
  /-- MIRROR_OCTET_RETURN (R444). A lost octet of the mirror link regains PCS lock, and the link returns to full rate with DEGRADED cleared. -/
  | mirrorOctetReturn
  deriving DecidableEq, Repr

end Sys2Proof
end

