-- ==== Sys2Proof/Decode.lean ====
section
/-! DEFINITION. Words that spell a command. spec/opcode_table.json gives no row any bits: a command of this block comes as a register access, a packet, an event of a device or the expiry of
a time, and no word spells one. -/
namespace Sys2Proof

/-- The command that a word spells by the table's bits: none, since the table gives no row bits.
[Marks: DESIGN CHOICE, log entry 5.] -/
def decodeTableWord (_nbits _w : Nat) : Option Instr := none

end Sys2Proof
end

