-- ==== Sys2Proof/Config.lean ====
section
/-! DEFINITION. The free values of the model: what the spec leaves to the implementation, and the secrets and identities of the part. Each is a
constant without a body, so that a statement holds whatever it is. -/
namespace Sys2Proof

/-- Which of the two FP32 values nearest 2^a the part returns: true for the one of larger magnitude (R230).
[Marks: DESIGN CHOICE, log entry 2.] -/
opaque Config.exp2Up : Lane → Bool

/-- Which of the two FP32 values nearest log2 a the part returns: true for the one of larger magnitude (R230).
[Marks: DESIGN CHOICE, log entry 2.] -/
opaque Config.log2Up : Lane → Bool

/-- The switch of the stage whose IPv6 address a connection names as PEER_ADDR: its SWITCH_INDEX plus 1, or 0 where the peer is no switch of the stage
(R46, R109); the spec does not state how a switch learns it.
[Marks: DESIGN CHOICE, log entry 52.] -/
opaque Config.stagePeer : Nat → Nat

/-- The base address of the knot window of the switch with a given SWITCH_INDEX of the stage, to which stage arrivals and releases are
addressed (R344, R353); the spec does not state how a switch learns it.
[Marks: DESIGN CHOICE, log entry 8.] -/
opaque Config.peerWindow : Nat → Nat

/-- The IPv6 address from which the packets of a port leave, by port over all dies (R47); the spec does not state where it is set.
[Marks: DESIGN CHOICE, log entry 25.] -/
opaque Config.ownAddr : Nat → Nat

/-- The hash of a connection ID that its packets carry in the UDP source port and the flow label (R47); the spec does not state the function.
[Marks: DESIGN CHOICE, log entry 25.] -/
opaque Config.connHash : Nat → BitVec 16

/-- The choice of a connection's path hash among a number of ports, by the connection (R449), taken modulo the number; the spec does not state the function.
[Marks: DESIGN CHOICE, log entry 25.] -/
opaque Config.pathIndex : Nat → Nat → Nat

/-- The path MTU of a queue pair: 1,024, 2,048 or 4,096 bytes for 0, 1 and 2 (R89); the spec does not state how it is set.
[Marks: PRESUMED, log entry 29.] -/
opaque Config.pathMtu : Nat → Fin 3

/-- The ICRC of a RoCEv2 packet of a queue pair, by the kind, PSN and code of the packet and its payload (R89); the spec does not state the function.
[Marks: PRESUMED, log entry 29.] -/
opaque Config.icrc : Nat → Nat → Nat → Nat → List Byte → Nat

/-- The switch to which a forwarded request goes that meets a lower-epoch home, by the sender's SWITCH_INDEX, the hall address and OWN_EPOCH_LO:
"the route the sender implied" (R110); the spec does not state how it follows from the request.
[Marks: DESIGN CHOICE, log entry 26.] -/
opaque Config.impliedRoute : Nat → Nat → Nat → Nat

/-- The table tag of a CXL port under which the byte ranges granted to it are looked up (R87, R372), by port over all dies; the spec does not state where
it is set.
[Marks: DESIGN CHOICE, log entry 8.] -/
opaque Config.portTag : Nat → Nat

/-- The partition of a CXL port that is registered to no agent, by port over all dies; the spec does not state where it is set.
[Marks: DESIGN CHOICE, log entry 8.] -/
opaque Config.portPart : Nat → Nat

/-- What the QS-700 service program needs: 0 tiles, 1 scratch granules, 2 cluster granules, 3 code granules; the spec does not state it (R217).
[Marks: DESIGN CHOICE, log entry 8.] -/
opaque Config.serviceNeeds : Nat → Nat

/-- Whether a switch of the stage, by SWITCH_INDEX, belongs to the stage barrier of a MEMBER knot beside its home: the home's MEMBER_MASK names it, at another switch (R352,
R354).
[Marks: DESIGN CHOICE, log entry 25.] -/
opaque Config.barrierMember : Nat → Nat → Bool

/-- Which service context of its partition holds a service request, by its number; none for a number beyond them (R218).
[Marks: DESIGN CHOICE, log entry 42.] -/
opaque Config.svcHolder : Nat → Nat

/-- A byte of a GET's payload beyond the end of the stored block, by the count of values drawn before it and its place; the spec states none (R95, R96).
[Marks: DESIGN CHOICE, log entry 42.] -/
opaque Config.svcPad : Nat → Nat → Byte

/-- The PROG_ID shown for a context that runs the switch's own program: 4096 attention, 4097 retrieval, 4098 service; the spec does not state it.
[Marks: DESIGN CHOICE, log entry 8.] -/
opaque Config.kernelProgId : Nat → Nat

/-- IDS, the 256-bit identity secret of the fuses (R472).
[Marks: DEDUCED, log entry 65.] -/
opaque Config.ids : BitVec 256

/-- The number under which the block of 256 bytes with an index in a zone of a tray is protected where it holds switch metadata: R477 gives these blocks no address.
[Marks: DEDUCED, log entry 65.] -/
opaque Config.metaBlock : Nat → Nat → Nat → Nat

/-- The 32-byte nonces of the Crown random bit generator (R480), by the count of values drawn before.
[Marks: DESIGN CHOICE, log entry 68.] -/
opaque Config.nonce : Nat → BitVec 256

/-- The PLDM terminus ID of the switch; the spec does not state it (R539).
[Marks: DESIGN CHOICE, log entry 7.] -/
opaque Config.terminusId : Nat

/-- What PLDM answers carry beside the values of the spec: versions, identifiers, firmware parameters and PDR contents, by command code and argument (R539).
[Marks: DESIGN CHOICE, log entry 7.] -/
opaque Config.pldmData : Nat → Nat → Nat

/-- The measurement of the Crown ROM (R485).
[Marks: DESIGN CHOICE, log entry 7.] -/
opaque Config.romDigest : Nat

/-- The first byte of the certificate chain of a slot, and the rest of it (R484).
[Marks: DESIGN CHOICE, log entry 7.] -/
opaque Config.certChain : Nat → Byte × List Byte

/-- A fresh value drawn where the spec states no result; the argument is the count of values drawn before it.
[Marks: DESIGN CHOICE, log entry 2.] -/
opaque Config.freeValue : Nat → Word

end Sys2Proof
end

