-- ==== Sys2Proof/Machine/Float.lean ====
section
/-! DEFINITION. Floating-point and microscaling arithmetic (R227 to R239, R277): values are taken apart into exact binary numbers, computed exactly
and rounded once. -/
namespace Sys2Proof.Machine
open Sys2Proof

/-- A floating-point value: NaN, an infinity with its sign, or a finite number m * 2^e with its sign. -/
inductive FVal where
  | nan
  | inf (neg : Bool)
  | fin (neg : Bool) (m : Nat) (e : Int)
  deriving DecidableEq, Repr

/-- A binary format in the IEEE layout: exponent and fraction widths and bias. -/
structure FFmt where
  eb : Nat
  mb : Nat
  bias : Int
  deriving DecidableEq, Repr

/-- FP32. -/
def fp32 : FFmt := ⟨8, 23, 127⟩
/-- BF16. -/
def bf16 : FFmt := ⟨8, 7, 127⟩
/-- FP16. -/
def fp16 : FFmt := ⟨5, 10, 15⟩

/-- The value a word of the format encodes. -/
def FFmt.dec (f : FFmt) (v : Nat) : FVal :=
  let neg := bit v (f.eb + f.mb)
  let e := bits v f.mb f.eb
  let m := bits v 0 f.mb
  if e = 2 ^ f.eb - 1 then (if m = 0 then .inf neg else .nan)
  else if e = 0 then .fin neg m (1 - f.bias - f.mb)
  else .fin neg (2 ^ f.mb + m) ((e : Int) - f.bias - f.mb)

/-- The canonical quiet NaN of a format: 0x7FC0_0000, 0x7FC0 and 0x7E00 (R230, R231). -/
def FFmt.nan (f : FFmt) : Nat := (2 ^ f.eb - 1) * 2 ^ f.mb + 2 ^ (f.mb - 1)

/-- The infinity of a sign. -/
def FFmt.inf (f : FFmt) (neg : Bool) : Nat := b2n neg * 2 ^ (f.eb + f.mb) + (2 ^ f.eb - 1) * 2 ^ f.mb

/-- The largest finite value of a sign. -/
def FFmt.maxFin (f : FFmt) (neg : Bool) : Nat := b2n neg * 2 ^ (f.eb + f.mb) + (2 ^ f.eb - 1) * 2 ^ f.mb - 1

/-- Zero of a sign. -/
def FFmt.zero (f : FFmt) (neg : Bool) : Nat := b2n neg * 2 ^ (f.eb + f.mb)

/-- Whether a magnitude with remainder r under 2^sh (and a nonzero rest where `sticky`) rounds up: mode 0 nearest even, 1 toward zero, 2 toward
+∞, 3 toward -∞ (R251). -/
def roundUp (rm : Nat) (neg odd : Bool) (r half : Nat) (sticky : Bool) : Bool :=
  match rm with
  | 0 => decide (half < r) || (decide (r = half) && decide (0 < half) && (sticky || odd))
  | 1 => false
  | 2 => !neg && (decide (0 < r) || sticky)
  | _ => neg && (decide (0 < r) || sticky)

/-- m * 2^e (plus a nonzero rest below one unit of m where `sticky`) as a whole multiple of 2^q, rounded. -/
def roundTo (rm : Nat) (neg : Bool) (m : Nat) (e q : Int) (sticky : Bool) : Nat :=
  if q ≤ e then
    let m' := m * 2 ^ (e - q).toNat
    if roundUp rm neg (m' % 2 = 1) 0 0 sticky then m' + 1 else m'
  else
    let sh := (q - e).toNat
    let m' := m / 2 ^ sh
    if roundUp rm neg (m' % 2 = 1) (m % 2 ^ sh) (2 ^ (sh - 1)) sticky then m' + 1 else m'

/-- What an overflow gives: an infinity or the largest finite value, by rounding direction (R231).
[Marks: DEDUCED, log entry 39.] -/
def FFmt.overflow (f : FFmt) (rm : Nat) (neg : Bool) : Nat :=
  if rm = 0 ∨ (rm = 2 ∧ ¬ neg) ∨ (rm = 3 ∧ neg) then f.inf neg else f.maxFin neg

/-- A sign and the exact magnitude m * 2^e (with a nonzero rest where `sticky`) rounded once to a format. -/
def FFmt.round (f : FFmt) (rm : Nat) (neg : Bool) (m : Nat) (e : Int) (sticky : Bool) : Nat :=
  if m = 0 ∧ ¬ sticky then f.zero neg
  else
    let lead : Int := e + Nat.log2 m
    let emin : Int := 1 - f.bias
    let q : Int := (if m = 0 then emin else max lead emin) - f.mb
    let r := roundTo rm neg m e q sticky
    let (r, q) := if r = 2 ^ (f.mb + 1) then (2 ^ f.mb, q + 1) else (r, q)
    let emax : Int := 2 ^ f.eb - 2 - f.bias
    if emax < q + f.mb then f.overflow rm neg
    else if r < 2 ^ f.mb then f.zero neg + r
    else f.zero neg + (q + f.mb + f.bias).toNat * 2 ^ f.mb + (r - 2 ^ f.mb)

/-- A value encoded in a format under a rounding direction. -/
def FFmt.enc (f : FFmt) (rm : Nat) : FVal → Nat
  | .nan => f.nan
  | .inf neg => f.inf neg
  | .fin neg m e => f.round rm neg m e false

/-- A finite value as a signed integer at a common scale 2^s, where s is at most its exponent. -/
def scaled (neg : Bool) (m : Nat) (e s : Int) : Int :=
  let v : Int := (m * 2 ^ (e - s).toNat : Nat)
  if neg then -v else v

/-- An exact signed value i * 2^s; an exact zero has the given sign. -/
def ofScaled (i s : Int) (zeroNeg : Bool) : FVal :=
  if i = 0 then .fin zeroNeg 0 s else .fin (decide (i < 0)) i.natAbs s

/-- The sign of an exact zero sum: the common sign of two zeros, else negative only when rounding toward -∞.
[Marks: DEDUCED, log entry 39.] -/
def zeroSign (rm : Nat) (n1 n2 : Bool) (bothZero : Bool) : Bool :=
  if bothZero && decide (n1 = n2) then n1 else decide (rm = 3)

/-- Exact sum. -/
def FVal.add (rm : Nat) : FVal → FVal → FVal
  | .nan, _ => .nan
  | _, .nan => .nan
  | .inf a, .inf b => if a = b then .inf a else .nan
  | .inf a, _ => .inf a
  | _, .inf b => .inf b
  | .fin a m e, .fin b n g =>
    let s := min e g
    ofScaled (scaled a m e s + scaled b n g s) s (zeroSign rm a b (decide (m = 0 ∧ n = 0)))

/-- The value with its sign changed. -/
def FVal.neg : FVal → FVal
  | .nan => .nan
  | .inf a => .inf !a
  | .fin a m e => .fin (!a) m e

/-- The magnitude. -/
def FVal.abs : FVal → FVal
  | .nan => .nan
  | .inf _ => .inf false
  | .fin _ m e => .fin false m e

/-- Exact product. -/
def FVal.mul : FVal → FVal → FVal
  | .nan, _ => .nan
  | _, .nan => .nan
  | .inf a, .inf b => .inf (a != b)
  | .inf a, .fin b n _ => if n = 0 then .nan else .inf (a != b)
  | .fin a m _, .inf b => if m = 0 then .nan else .inf (a != b)
  | .fin a m e, .fin b n g => .fin (a != b) (m * n) (e + g)

/-- Less than, for values that are not NaN; zeros are equal. -/
def FVal.lt : FVal → FVal → Bool
  | .nan, _ => false
  | _, .nan => false
  | .inf a, .inf b => a && !b
  | .inf a, .fin _ _ _ => a
  | .fin _ _ _, .inf b => !b
  | .fin a m e, .fin b n g =>
    let s := min e g
    decide (scaled a m e s < scaled b n g s)

/-- Equality of values; NaN equals nothing and the zeros are equal. -/
def FVal.eq : FVal → FVal → Bool
  | .nan, _ => false
  | _, .nan => false
  | x, y => !x.lt y && !y.lt x

/-- The sign of a value. -/
def FVal.isNeg : FVal → Bool
  | .nan => false
  | .inf a => a
  | .fin a _ _ => a

/-- Whether a value is NaN. -/
def FVal.isNaN : FVal → Bool
  | .nan => true
  | _ => false

/-- minimumNumber of IEEE 754: a NaN is missing data and -0 is below +0 (R60, R230). -/
def FVal.min (x y : FVal) : FVal :=
  if x.isNaN then y else if y.isNaN then x
  else if x.lt y then x else if y.lt x then y else if x.isNeg then x else y

/-- maximumNumber of IEEE 754. -/
def FVal.max (x y : FVal) : FVal :=
  if x.isNaN then y else if y.isNaN then x
  else if x.lt y then y else if y.lt x then x else if x.isNeg then y else x

/-- The integer square root by bits: the largest r + k below 2^n above r whose square is at most m. -/
def isqrt (m : Nat) : Nat → Nat → Nat
  | 0, r => r
  | n + 1, r => if (r + 2 ^ n) * (r + 2 ^ n) ≤ m then isqrt m n (r + 2 ^ n) else isqrt m n r

/-- a / b, correctly rounded (R230). -/
def FFmt.div (f : FFmt) (rm : Nat) : FVal → FVal → Nat
  | .nan, _ => f.nan
  | _, .nan => f.nan
  | .inf _, .inf _ => f.nan
  | .inf a, .fin b _ _ => f.inf (a != b)
  | .fin a _ _, .inf b => f.zero (a != b)
  | .fin a m e, .fin b n g =>
    if n = 0 then (if m = 0 then f.nan else f.inf (a != b))
    else
      let sh := Nat.log2 n + f.mb + 4
      f.round rm (a != b) (m * 2 ^ sh / n) (e - g - sh) (decide (m * 2 ^ sh % n ≠ 0))

/-- The square root, correctly rounded (R230, R277). -/
def FFmt.sqrt (f : FFmt) (rm : Nat) : FVal → Nat
  | .nan => f.nan
  | .inf a => if a then f.nan else f.inf false
  | .fin a m e =>
    if m = 0 then f.zero a
    else if a then f.nan
    else
      let k : Nat := 60 + (if e % 2 = 0 then 0 else 1)
      let m' := m * 2 ^ k
      let e' := e - k
      let r := isqrt m' 64 0
      f.round rm false r (e' / 2) (decide (r * r ≠ m'))

/-! ### 2^a and log2 a (R230, R277): the two nearest FP32 values are found with 320-bit fixed-point series -/

/-- Scale of the fixed-point series. -/
def fxBits : Nat := 320

/-- Sum of the terms t^i / i! from i = k on, each term given, at scale 2^320. -/
def expSeries (t : Nat) : Nat → Nat → Nat → Nat
  | 0, _, _ => 0
  | n + 1, i, term => term + expSeries t n (i + 1) (term * t / 2 ^ fxBits / (i + 1))

/-- Sum of z^(2i+1) / (2i+1), the power given, at scale 2^320. -/
def atanhSeries (z2 : Nat) : Nat → Nat → Nat → Nat
  | 0, _, _ => 0
  | n + 1, i, pw => pw / (2 * i + 1) + atanhSeries z2 n (i + 1) (pw * z2 / 2 ^ fxBits)

/-- ln(a / b) for 1 ≤ a / b ≤ 2, at scale 2^320, rounded down. -/
def lnFx (a b : Nat) : Nat :=
  let z := (a - b) * 2 ^ fxBits / (a + b)
  2 * atanhSeries (z * z / 2 ^ fxBits) 110 0 z

/-- ln 2 at scale 2^320. -/
def ln2Fx : Nat := lnFx 2 1

/-- The two FP32 values nearest an inexact magnitude v * 2^-320 of a sign: the lower one, and where `up` the higher one. -/
def nearest (neg : Bool) (v : Nat) (up : Bool) : Nat :=
  fp32.round (if up then (if neg then 3 else 2) else 1) neg v (-(fxBits : Int)) true

/-- exp2: one of the two FP32 values nearest 2^a; the exact value where there is one (R230, R277). -/
def exp2 (up : Bool) : FVal → Nat
  | .nan => fp32.nan
  | .inf a => if a then 0 else fp32.inf false
  | .fin a m e =>
    if decide (0 ≤ e + Nat.log2 m) && decide (7 < e + Nat.log2 m) && decide (0 < m) then
      if a then nearest false 0 up else fp32.inf false
    else
      let x := scaled a m e (min e 0)
      let d := (-(min e 0)).toNat
      let n : Int := x / (2 ^ d : Nat)
      let k := (x % (2 ^ d : Nat)).toNat
      if 128 ≤ n then fp32.inf false
      else if k = 0 then
        if n < -149 then nearest false 0 up else fp32.round 0 false 1 n false
      else
        let f := if d ≤ fxBits then k * 2 ^ (fxBits - d) else k / 2 ^ (d - fxBits)
        let t := f * ln2Fx / 2 ^ fxBits
        let v := expSeries t 90 0 (2 ^ fxBits)
        fp32.round (if up then 2 else 1) false v (n - fxBits) true

/-- log2: one of the two FP32 values nearest log2 a; the exact value where there is one (R230, R277). -/
def log2 (up : Bool) : FVal → Nat
  | .nan => fp32.nan
  | .inf a => if a then fp32.nan else fp32.inf false
  | .fin a m e =>
    if m = 0 then fp32.inf true
    else if a then fp32.nan
    else
      let l := Nat.log2 m
      let n := e + l
      if m = 2 ^ l then fp32.round 0 (decide (n < 0)) n.natAbs 0 false
      else
        let v : Int := n * (2 ^ fxBits : Nat) + (lnFx m (2 ^ l) * 2 ^ fxBits / ln2Fx : Nat)
        nearest (decide (v < 0)) v.natAbs up

/-! ### Conversions (R233, R302) -/

/-- A floating value converted to an integer of w bits: rounded, saturated, NaN to 0 (R233). -/
def toInt (rm w : Nat) (signed : Bool) : FVal → Int
  | .nan => 0
  | .inf a =>
    if signed then (if a then -(2 ^ (w - 1) : Nat) else (2 ^ (w - 1) : Nat) - 1) else (if a then 0 else (2 ^ w : Nat) - 1)
  | .fin a m e =>
    let r : Int := roundTo rm a m e 0 false
    let v := if a then -r else r
    if signed then sat w v else max 0 (min v ((2 ^ w : Nat) - 1))

/-! ### MX elements (R228, R229) -/

/-- An element of a matrix operand: NaN, an infinity, or an integer at the fixed scale of its format. -/
inductive MEl where
  | nan
  | inf (neg : Bool)
  | val (i : Int)
  deriving DecidableEq, Repr

/-- Bits of an element of an MX format (R227). -/
def mxBits (fmt : Nat) : Nat :=
  if fmt = 6 then 4 else if fmt = 7 ∨ fmt = 8 then 6 else 8

/-- Exponent width, fraction width and bias of an MX float format. -/
def mxFmt (fmt : Nat) : FFmt :=
  if fmt = 6 then ⟨2, 1, 1⟩ else if fmt = 7 then ⟨3, 2, 3⟩ else if fmt = 8 then ⟨2, 3, 1⟩
  else if fmt = 9 then ⟨4, 3, 7⟩ else ⟨5, 2, 15⟩

/-- The number of fraction bits of the fixed scale at which every finite element of a format is an integer. -/
def mxScale (fmt : Nat) : Nat :=
  if fmt = 6 then 1 else if fmt = 7 then 4 else if fmt = 8 then 3 else if fmt = 9 then 9 else if fmt = 10 then 16 else 6

/-- The element an encoding stands for, an integer at scale 2^-mxScale (R228). -/
def mxDec (fmt v : Nat) : MEl :=
  if fmt = 11 then .val (sext 8 v)
  else
    let f := mxFmt fmt
    let neg := bit v (f.eb + f.mb)
    let e := bits v f.mb f.eb
    let m := bits v 0 f.mb
    if fmt = 9 ∧ e = 15 ∧ m = 7 then .nan
    else if fmt = 10 ∧ e = 31 then (if m = 0 then .inf neg else .nan)
    else
      let i : Int := if e = 0 then m else ((2 ^ f.mb + m) * 2 ^ (e - 1) : Nat)
      .val (if neg then -i else i)

/-- The encoding of the largest finite magnitude of an MX float format (R228). -/
def mxMax (fmt : Nat) : Nat :=
  if fmt = 6 then 7 else if fmt = 7 ∨ fmt = 8 then 31 else if fmt = 9 then 0x7e else 0x7b

/-- A finite value m * 2^e of a sign rounded to an MX float format: saturated, or for E5M2 without SAT an infinity past the largest finite
value (R239). -/
def mxEnc (fmt rm : Nat) (satur : Bool) (neg : Bool) (m : Nat) (e : Int) : Nat :=
  let f := mxFmt fmt
  let sign := b2n neg * 2 ^ (f.eb + f.mb)
  if m = 0 then sign
  else
    let q : Int := max (e + Nat.log2 m) (1 - f.bias) - f.mb
    let r := roundTo rm neg m e q false
    let (r, q) := if r = 2 ^ (f.mb + 1) then (2 ^ f.mb, q + 1) else (r, q)
    let code : Int := if r < 2 ^ f.mb then r else (q + f.mb + f.bias) * (2 ^ f.mb : Nat) + (r - 2 ^ f.mb : Nat)
    if (mxMax fmt : Int) < code then
      sign + (if fmt = 10 ∧ ¬ satur then 0x7c else mxMax fmt)
    else sign + code.toNat

/-- EMAX of an MX format (R239). -/
def mxEmax (fmt : Nat) : Int :=
  if fmt = 6 then 2 else if fmt = 7 then 4 else if fmt = 8 then 2 else if fmt = 9 then 8 else if fmt = 10 then 15 else 0

/-- The shared exponent X of a block of finite values (R239, step 2). -/
def mxShared (fmt : Nat) (xs : List FVal) : Int :=
  let lead (x : FVal) : Int := match x with
    | .fin _ m e => if m = 0 then -1000 else e + Nat.log2 m
    | _ => -1000
  let top := xs.foldl (fun a x => max a (lead x)) (-1000)
  if top = -1000 then -127 else max (-127) (min 127 (top - mxEmax fmt))

/-- A block of FP32 values quantized to an MX format: scale byte and element encodings (R239). -/
def mxQuant (fmt rm : Nat) (satur : Bool) (xs : List FVal) : Nat × List Nat :=
  let bad (x : FVal) : Bool := match x with
    | .fin _ _ _ => false
    | _ => true
  if xs.any bad then (255, xs.map (fun _ => 0))
  else
    let x := mxShared fmt xs
    let one (v : FVal) : Nat := match v with
      | .fin neg m e =>
        if fmt = 11 then
          let r : Int := roundTo rm neg m (e + 6 - x) 0 false
          wrap 8 (sat 8 (if neg then -r else r))
        else mxEnc fmt rm satur neg m (e - x)
      | _ => 0
    ((x + 127).toNat, xs.map one)

/-- The FP32 value of an MX element under a scale byte (R228, R304). -/
def mxValue (fmt v scale : Nat) : Nat :=
  if scale = 255 then fp32.nan
  else match mxDec fmt v with
    | .nan => fp32.nan
    | .inf neg => fp32.inf neg
    | .val i => fp32.round 0 (decide (i < 0) || (decide (i = 0) && decide (fmt ≠ 11) && bit v (mxBits fmt - 1)))
        i.natAbs ((scale : Int) - 127 - mxScale fmt) false

/-! ### Matrix multiply (R235 to R237) -/

/-- The product of two matrix elements. -/
def MEl.mul : MEl → MEl → MEl
  | .nan, _ => .nan
  | _, .nan => .nan
  | .inf a, .inf b => .inf (a != b)
  | .inf a, .val i => if i = 0 then .nan else .inf (a != decide (i < 0))
  | .val i, .inf b => if i = 0 then .nan else .inf (b != decide (i < 0))
  | .val i, .val j => .val (i * j)

/-- The sum of two terms. -/
def MEl.add : MEl → MEl → MEl
  | .nan, _ => .nan
  | _, .nan => .nan
  | .inf a, .inf b => if a = b then .inf a else .nan
  | .inf a, .val _ => .inf a
  | .val _, .inf b => .inf b
  | .val i, .val j => .val (i + j)

/-- The sum of products of two lists of elements. -/
def mxDot : List MEl → List MEl → MEl
  | a :: as, b :: bs => (a.mul b).add (mxDot as bs)
  | _, _ => .val 0

/-- One element of an MX matrix multiply: round(C + S * 2^(XA + XB - 254)), rounded once to nearest even; an exact zero is +0 (R235, R237). -/
def mxMma (fmt : Nat) (c : FVal) (as bs : List MEl) (xa xb : Nat) : Nat :=
  if xa = 255 ∨ xb = 255 then fp32.nan
  else match mxDot as bs, c with
    | .nan, _ => fp32.nan
    | _, .nan => fp32.nan
    | .inf a, .inf b => if a = b then fp32.inf a else fp32.nan
    | .inf a, .fin _ _ _ => fp32.inf a
    | .val _, .inf b => fp32.inf b
    | .val i, .fin n m e =>
      let g : Int := (xa : Int) + xb - 254 - 2 * mxScale fmt
      let s := min e g
      fp32.enc 0 (ofScaled (scaled n m e s + scaled (decide (i < 0)) i.natAbs g s) s false)

/-- A finite term truncated toward zero to a multiple of 2^q, as a signed count of 2^q (R236). -/
def truncTerm (q : Int) : FVal → Int
  | .fin neg m e =>
    let v : Nat := if q ≤ e then m * 2 ^ (e - q).toNat else m / 2 ^ (q - e).toNat
    if neg then -(v : Int) else v
  | _ => 0

/-- One element of a BF16 or FP16 matrix multiply from its 32 exact products and C (R236, R237). -/
def f16Mma (c : FVal) (prods : List FVal) : Nat :=
  let ts := c :: prods
  if ts.any FVal.isNaN then fp32.nan
  else
    let pinf := ts.any (fun t => decide (t = .inf false))
    let ninf := ts.any (fun t => decide (t = .inf true))
    if pinf && ninf then fp32.nan
    else if pinf then fp32.inf false
    else if ninf then fp32.inf true
    else
      let lead (x : FVal) : Option Int := match x with
        | .fin _ m e => if m = 0 then none else some (e + Nat.log2 m)
        | _ => none
      match ts.filterMap lead with
      | [] => 0
      | l :: ls =>
        let q := ls.foldl max l - 49
        fp32.enc 0 (ofScaled ((ts.map (truncTerm q)).foldl (· + ·) 0) q false)

/-- Products of two lists of values. -/
def prodList : List FVal → List FVal → List FVal
  | a :: as, b :: bs => a.mul b :: prodList as bs
  | _, _ => []

/-- FP32 addition of encodings. -/
def f32Add (rm a b : Nat) : Nat := fp32.enc rm ((fp32.dec a).add rm (fp32.dec b))

/-- The adjacent-half binary tree sum of a list of encodings, padded length a power of two 2^k: element i is added to element i + half (R131). -/
def treeSum (rm : Nat) : Nat → List Nat → Nat
  | 0, xs => xs.headD 0
  | k + 1, xs =>
    let h := 2 ^ k
    let lo := xs.take h
    let hi := xs.drop h
    treeSum rm k (lo.zipIdx.map (fun p => match hi[p.2]? with
      | some y => f32Add rm p.1 y
      | none => p.1))

/-- reduce_add_f32 of R131 over a list of n elements. -/
def reduceAdd (rm : Nat) (xs : List Nat) : Nat :=
  treeSum rm (if xs.length ≤ 1 then 0 else Nat.log2 (xs.length - 1) + 1) xs

end Sys2Proof.Machine
end

