-- ==== Sys2Proof/Machine/TypesEng.lean ====
section
/-! DEFINITION. The plain data of engines, contexts and programs (ch. 06 to 08): contexts with their registers, asynchronous operations
in flight, loaded programs, and samples taken before a reset. -/
namespace Sys2Proof.Machine
open Sys2Proof

/-- Context states, numbered as SPL_CTX_INFO.STATE (R220). -/
inductive CtxState where
  | free | parked | ready | stopped | done | faulted | fenced
  deriving DecidableEq, Repr

/-- What a context becomes when the zeroing of its windows ends (R202). -/
inductive ZeroThen where
  | free | park | start | fault
  deriving DecidableEq, Repr

/-- A knot handle k0 to k7 (R225): the bound knot, the arrival generation hidden from the program (R347), and a number that tells one binding from another. -/
structure Handle where
  bound : Bool := false
  knot : Nat := 0
  arrGen : Option Nat := none
  id : Nat := 0
  deriving DecidableEq, Repr

/-- A check-value slot: parameters and raw running value (R405, R406). -/
structure ChkSlot where
  width : Nat := 0
  poly : Nat := 0
  init : Nat := 0
  xorout : Nat := 0
  refin : Bool := false
  refout : Bool := false
  run : Nat := 0
  deriving DecidableEq, Repr

/-- One hardware context (R194, R213, R214, R222): its placement, its registers (sparse, zero where unlisted; vector lane l of v_r at
key 64 r + l, tile element (i, j) of a_t at key 6144 t + 96 i + j), PC and STAT; `monAt` is the time of its last issue, from which its
monitor counts (R499), and `rid` the record of the fault that ended its run (R260). -/
structure Ctx where
  st : CtxState := .free
  wasParked : Bool := false
  mode : Bool := false
  autoRearm : Bool := false
  svc : Bool := false
  xsvc : Bool := false
  part : Nat := 0
  prog : Nat := 0
  inst : Nat := 0
  count : Nat := 0
  args : List Nat := []
  last : Nat := 0
  atiles : Nat := 0
  chkSlot : Bool := false
  scrBase : Nat := 0
  scrSize : Nat := 0
  cluBase : Nat := 0
  cluSize : Nat := 0
  parkedAt : Nat := 0
  issuedAt : Nat := 0
  monAt : Nat := 0
  halting : Bool := false
  zero : Option ZeroThen := none
  resetting : Bool := false
  s : SMap Word := []
  v : SMap Lane := []
  p : SMap Word := []
  k : SMap Handle := []
  a : SMap Lane := []
  pc : Nat := 0
  stat : Nat := 0
  rid : Nat := 0
  chk : ChkSlot := {}
  deriving DecidableEq, Repr

/-- The kinds of asynchronous operation a context can have in flight (class A of R196); `kernel` is a work item that a kernel context runs (R325). -/
inductive AKind where
  | fabLd | fabSt | fabAtom | fabTrig | fabBld | fabBst | fabNear
  | dma | pfPage | gather | filter | check | codec
  | knotSig | knotArr | knotWait | cleatLook | redAdd | kernel
  deriving DecidableEq, Repr

/-- Where the result of an operation goes. -/
inductive Dest where
  | none
  | s (r : Nat)
  | v (r : Nat)
  | win (cluster : Bool) (off : Nat)
  deriving DecidableEq, Repr

/-- An asynchronous operation in flight (R256, R258): the issuing context and its PC, its kind, the destination of its data and of its
status, the completion knot (bound at issue), TRAP, CREC and the record's address, the operands read at issue, and the response that has
come for it. `buf` holds what a unit has read and not yet written, `fail` the bytes done before an access failed and the first failing byte (R259), and
`gen` the arrival generation that a wait captured with its handle (R347). -/
structure AOp where
  ctx : Nat
  pc : Nat
  kind : AKind
  dst : Dest := .none
  stDst : Option Nat := none
  knot : Option Nat := none
  trap : Bool := false
  crec : Option Nat := none
  req : Option Nat := none
  dead : Bool := false
  part : Nat := 0
  a : Nat := 0
  b : Nat := 0
  c : Nat := 0
  d : Nat := 0
  fn : Nat := 0
  len : Nat := 0
  mask : Nat := 0
  data : List Byte := []
  buf : List Byte := []
  words : List Nat := []
  deadline : Option Nat := none
  reply : Option (Nat × List Byte) := none
  fail : Option (Nat × Nat) := none
  gen : Option Nat := none
  deriving DecidableEq, Repr

/-- A loaded program (R209, R210): header fields with DIGEST, and finalized code. -/
structure Prg where
  part : Nat
  level : Nat
  atiles : Nat
  chkSlots : Nat
  handles : Nat
  scr : Nat
  clu : Nat
  entry : Nat
  shared : Bool
  service : Bool
  code : List Byte
  starts : List Nat
  digest : List Byte := []
  deriving DecidableEq, Repr

/-- A code region held in a cluster (R203): first granule and granules. -/
structure Region where
  base : Nat
  size : Nat
  deriving DecidableEq, Repr

/-- The compatibility service mode of a partition (R95, R217, R218): whether it is on or draining, the addresses of its extents, the blocks under
their keys (NAMESPACE * 2^128 + KEY) and the parameter tables in FP32 (NAMESPACE * 2^128 + table ID * 2^64 + element). -/
structure Svc where
  on : Bool := false
  draining : Bool := false
  index : Nat := 0
  data : Nat := 0
  kv : SMap (Option (List Byte)) := []
  ps : SMap Lane := []
  deriving DecidableEq, Repr

/-- The image a sample keeps (R502): header fields, the states of the engine's 8 contexts, the contexts of the named context's
partition, and the scratch bytes 0 to 44,799 of the named context's window. -/
structure Sample where
  id : Nat
  rid : Nat
  time : Nat
  ctx : Nat
  level : Nat
  part : Nat
  eng : Nat
  states : List CtxState
  ctxs : List Ctx
  scratch : SMap Byte
  deriving DecidableEq, Repr

end Sys2Proof.Machine
end

