-- ==== Sys2Proof/Machine/Ins.lean ====
section
/-! DEFINITION. Splice instruction words (R248 to R255) and the opcode map (R265 to R269): fields, the kinds of register they name, and which
words are reserved encodings. -/
namespace Sys2Proof.Machine
open Sys2Proof

/-- An instruction word taken apart, with its extension word (R248, R253). -/
structure Ins where
  op  : Nat
  fmt : Nat
  dst : Nat
  sa  : Nat
  sb  : Nat
  sc  : Nat
  pg  : Nat
  mod : Nat
  imm : Nat
  ext : Nat
  deriving DecidableEq, Repr

/-- The fields of a word and an extension word (R248).
[Marks: DEDUCED, log entry 39.] -/
def Ins.ofWord (w ext : Nat) : Ins :=
  { op := bits w 56 8, fmt := bits w 52 4, dst := bits w 46 6, sa := bits w 40 6, sb := bits w 34 6, sc := bits w 28 6,
    pg := bits w 25 3, mod := bits w 16 9, imm := bits w 0 16, ext := ext }

/-- MOD.FN. -/
def Ins.fn (i : Ins) : Nat := i.mod % 16
/-- MOD.SBI. -/
def Ins.sbi (i : Ins) : Bool := bit i.mod 4
/-- MOD.SAT. -/
def Ins.sat (i : Ins) : Bool := bit i.mod 5
/-- MOD.RM. -/
def Ins.rm (i : Ins) : Nat := bits i.mod 6 2
/-- MOD.Z. -/
def Ins.z (i : Ins) : Bool := bit i.mod 8
/-- MOD.ACC. -/
def Ins.acc (i : Ins) : Bool := bit i.mod 8
/-- MOD.TRAP. -/
def Ins.trap (i : Ins) : Bool := bit i.mod 8
/-- MOD.CREC. -/
def Ins.crec (i : Ins) : Bool := bit i.mod 7
/-- MOD.ORD. -/
def Ins.ord (i : Ins) : Nat := bits i.mod 5 2
/-- MOD.NOCOMB. -/
def Ins.nocomb (i : Ins) : Bool := bit i.mod 4

/-- The length of an instruction in bytes: 16 for s.li and br.l, else 8 (R253, R269). -/
def Ins.len (i : Ins) : Nat := if i.op = 0x02 ∨ i.op = 0x13 then 16 else 8

/-- The kind of register a field names (R265). -/
inductive RK where
  | none | s | v | a | p | k
  deriving DecidableEq, Repr

/-- Timing classes as far as the model uses them: the layout of MOD (R251) and the pipe whose credit an instruction needs (R196, R216). -/
inductive Cls where
  | s | v | vl | m | l | a
  deriving DecidableEq, Repr

/-- One row of the opcode map: accepted formats, FN values, field kinds (`.none` unused; SB with `imm` takes IMM16 under SBI; SB with `rec` is a
completion record address), class, and the MOD fields the entry uses. -/
structure OpRow where
  op   : Nat
  fmts : List Nat := [0]
  fns  : List Nat := [0]
  dst  : RK := .none
  sa   : RK := .none
  sb   : RK := .none
  sc   : RK := .none
  imm  : Bool := false
  rcd  : Bool := false
  cls  : Cls
  pg   : Bool := false
  z    : Bool := false
  rm   : Bool := false
  ord  : Bool := false
  nc   : Bool := false
  deriving DecidableEq, Repr

/-- 0 to n - 1. -/
def upTo (n : Nat) : List Nat := List.range n

/-- Groups 0x0 and 0x1 of the opcode map. -/
def opRows0 : List OpRow := [
  { op := 0x00, fns := upTo 16, dst := .s, sa := .s, sb := .s, imm := true, cls := .s },
  { op := 0x01, fns := upTo 10, dst := .s, sa := .s, sb := .s, imm := true, cls := .s },
  { op := 0x02, dst := .s, cls := .s },
  { op := 0x03, dst := .s, sa := .v, sb := .s, imm := true, cls := .s },
  { op := 0x04, dst := .v, sa := .s, sb := .s, imm := true, cls := .s },
  { op := 0x10, cls := .s },
  { op := 0x11, fns := upTo 4, sa := .s, cls := .s },
  { op := 0x12, fns := upTo 3, sa := .p, cls := .s },
  { op := 0x13, cls := .s },
  { op := 0x14, dst := .s, cls := .s },
  { op := 0x15, sa := .s, cls := .s },
  { op := 0x16, cls := .s },
  { op := 0x17, dst := .s, sb := .s, imm := true, cls := .s },
  { op := 0x18, dst := .s, cls := .s },
  { op := 0x19, cls := .s },
  { op := 0x1A, dst := .s, cls := .s }]

/-- Groups 0x2 and 0x3. The kinds of v.mov, p.op and of the entries with an unused SB depend on FN: see `Ins.kinds`. -/
def opRows1 : List OpRow := [
  { op := 0x20, fmts := [0, 1, 5], fns := upTo 14, dst := .v, sa := .v, sb := .v, imm := true, cls := .v, pg := true, z := true },
  { op := 0x21, fmts := [0, 1], fns := upTo 6, dst := .p, sa := .v, sb := .v, imm := true, cls := .v, pg := true, z := true },
  { op := 0x22, fns := upTo 5, dst := .v, sa := .v, sb := .v, cls := .v, pg := true, z := true },
  { op := 0x23, fns := upTo 6, dst := .p, sa := .p, sb := .p, cls := .v },
  { op := 0x24, dst := .s, sa := .p, cls := .v },
  { op := 0x30, fmts := [2, 3, 4], fns := upTo 7, dst := .v, sa := .v, sb := .v, imm := true, cls := .v, pg := true, z := true, rm := true },
  { op := 0x31, fmts := [2, 3, 4], fns := upTo 3, dst := .v, sa := .v, sb := .v, sc := .v, imm := true, cls := .v, pg := true,
    z := true, rm := true },
  { op := 0x32, fmts := [2], fns := upTo 7, dst := .p, sa := .v, sb := .v, imm := true, cls := .v, pg := true, z := true },
  { op := 0x33, fmts := [2], fns := upTo 4, dst := .v, sa := .v, sb := .v, cls := .vl, pg := true, z := true, rm := true }]

/-- Groups 0x4 to 0x8. -/
def opRows2 : List OpRow := [
  { op := 0x40, fmts := [3, 4, 6, 7, 8, 9, 10, 11], dst := .a, sa := .s, sb := .s, cls := .m },
  { op := 0x41, dst := .a, cls := .v, pg := true },
  { op := 0x42, dst := .v, sa := .a, sb := .s, cls := .v, pg := true, z := true },
  { op := 0x43, dst := .a, sa := .v, sb := .s, cls := .v, pg := true, z := true },
  { op := 0x50, fmts := [0, 1, 2], fns := upTo 5, dst := .s, sa := .v, cls := .v, pg := true, rm := true },
  { op := 0x51, fmts := [2], dst := .v, sa := .v, sb := .v, cls := .v, pg := true },
  { op := 0x58, fmts := [2, 3, 4, 9, 10], fns := upTo 3, sa := .s, sb := .s, sc := .k, cls := .a, ord := true },
  { op := 0x60, fmts := upTo 6, dst := .s, sa := .s, sb := .v, sc := .k, cls := .a, pg := true },
  { op := 0x61, fmts := upTo 5, fns := upTo 5, sa := .s, sc := .k, rcd := true, cls := .a },
  { op := 0x70, fns := upTo 7, dst := .s, sa := .s, cls := .l },
  { op := 0x71, fns := upTo 4, sa := .s, sb := .s, cls := .l },
  { op := 0x72, dst := .v, sa := .s, cls := .l, pg := true, z := true },
  { op := 0x73, sa := .s, sb := .v, cls := .l, pg := true },
  { op := 0x74, dst := .v, sa := .s, sb := .v, cls := .l, pg := true, z := true },
  { op := 0x75, sa := .s, sb := .v, sc := .v, cls := .l, pg := true },
  { op := 0x80, sa := .s, sc := .k, rcd := true, cls := .a },
  { op := 0x81, sa := .s, sb := .s, sc := .k, cls := .a }]

/-- Groups 0x9 to 0xE. -/
def opRows3 : List OpRow := [
  { op := 0x90, fns := upTo 5, dst := .s, sa := .s, cls := .a, ord := true, nc := true },
  { op := 0x91, fns := upTo 5, sa := .s, sb := .s, sc := .k, cls := .a, ord := true },
  { op := 0x92, fmts := [0, 1, 2, 12], fns := upTo 8, dst := .s, sa := .s, sb := .s, cls := .a, ord := true, nc := true },
  { op := 0x93, fmts := [12], fns := upTo 8, dst := .s, sa := .s, sb := .s, cls := .a, ord := true, nc := true },
  { op := 0x94, fns := upTo 9, sa := .s, sb := .v, sc := .k, cls := .a, ord := true },
  { op := 0x95, sa := .s, sb := .s, sc := .k, cls := .a, ord := true },
  { op := 0x96, sa := .s, sb := .s, sc := .k, cls := .a, ord := true },
  { op := 0x97, fmts := [0, 1, 2, 12], fns := [1, 2, 3, 4, 5], sa := .s, sc := .k, rcd := true, cls := .a, ord := true },
  { op := 0xA0, dst := .k, cls := .s },
  { op := 0xA1, sa := .k, sb := .s, cls := .a },
  { op := 0xA2, sa := .k, cls := .a },
  { op := 0xA3, dst := .s, sa := .k, sb := .s, cls := .a },
  { op := 0xA4, dst := .s, sa := .k, cls := .a },
  { op := 0xB0, fmts := [0, 1, 2], fns := upTo 4, dst := .v, sa := .v, sb := .s, cls := .a },
  { op := 0xC0, sa := .s, sc := .k, rcd := true, cls := .a },
  { op := 0xC1, sa := .s, sb := .s, sc := .k, cls := .a },
  { op := 0xC2, sa := .s, sb := .s, sc := .k, cls := .a },
  { op := 0xC3, dst := .s, sc := .k, rcd := true, cls := .a },
  { op := 0xC4, dst := .s, sc := .k, rcd := true, cls := .a },
  { op := 0xC5, sa := .s, sc := .k, rcd := true, cls := .a },
  { op := 0xD0, sa := .s, sc := .k, rcd := true, cls := .a },
  { op := 0xD1, sa := .s, sc := .k, rcd := true, cls := .a },
  { op := 0xD2, sa := .s, sc := .k, rcd := true, cls := .a },
  { op := 0xE0, fmts := upTo 6, fns := upTo 6, dst := .v, sa := .v, cls := .v, pg := true, z := true, rm := true },
  { op := 0xE1, fns := upTo 9, dst := .v, sa := .v, sb := .v, cls := .v },
  { op := 0xE2, fmts := [6, 7, 8, 9, 10, 11], dst := .v, sa := .v, sc := .s, cls := .v, rm := true },
  { op := 0xE3, fmts := [6, 7, 8, 9, 10, 11], dst := .v, sa := .v, sb := .s, cls := .v }]

/-- The opcode map of R269. -/
def opRows : List OpRow := opRows0 ++ opRows1 ++ opRows2 ++ opRows3

/-- The row of an opcode. -/
def opRow (op : Nat) : Option OpRow := opRows.find? (fun r => decide (r.op = op))

/-- The FN of an instruction leaves its SB unused (R275, R277). -/
def Ins.noSb (i : Ins) : Bool :=
  decide ((i.op = 0x20 ∧ i.fn = 13) ∨ (i.op = 0x30 ∧ (i.fn = 5 ∨ i.fn = 6)) ∨ (i.op = 0x33 ∧ i.fn ≠ 0))

/-- The kinds of DST, SA, SB and SC of an instruction, once FN, SBI and CREC are taken into account (R265, R275 to R277, R290). -/
def Ins.kinds (i : Ins) (r : OpRow) : RK × RK × RK × RK :=
  let sb := if r.rcd then (if i.crec then .s else .none) else if r.imm && i.sbi then .none else r.sb
  if i.op = 0x22 then
    (r.dst, if i.fn = 1 ∨ i.fn = 2 then .s else .v, if i.fn = 3 then .v else if i.fn = 4 then .s else .none, .none)
  else if i.op = 0x23 then
    (r.dst, if i.fn = 5 then .s else .p, if i.fn ≤ 3 then .p else .none, .none)
  else if i.noSb then (r.dst, r.sa, .none, r.sc)
  else if i.op = 0x90 ∧ i.fn = 4 then (.v, r.sa, sb, r.sc)
  else if i.op = 0x91 ∧ i.fn = 4 then (r.dst, r.sa, .v, r.sc)
  else (r.dst, r.sa, sb, r.sc)

/-- A field value is in the range of its kind; an unused field is 0 (R223, R224, R250, R265). -/
def fieldOk (rk : RK) (v atiles handles : Nat) : Bool :=
  match rk with
  | .none => decide (v = 0)
  | .s => decide (v < 32)
  | .v => decide (v < 64)
  | .a => decide (v < 8 ∧ v < atiles)
  | .p => decide (v < 8)
  | .k => decide (v < 8 ∧ v < handles)

/-- An instruction rounds: not the functions that give one of their operands, a relation, or an index, nor 2^a and log2 a, whose results are not rounded under RM (R231,
R277, R280).
[Marks: DEDUCED, log entry 39.] -/
def Ins.rounds (i : Ins) (r : OpRow) : Bool :=
  r.rm && !(decide (i.op = 0x30) && decide (3 ≤ i.fn)) && !(decide (i.op = 0x33) && decide (2 ≤ i.fn)) &&
  !(decide (i.op = 0x50) && decide (i.fmt ≠ 2 ∨ i.fn ≠ 0))

/-- An instruction uses IMM16: an offset, a branch offset, a knot number, or an immediate under SBI (R250, R252). -/
def Ins.usesImm (i : Ins) (r : OpRow) : Bool :=
  (r.imm && i.sbi) || [0x10, 0x11, 0x12, 0x14, 0x70, 0x71, 0x72, 0x73, 0xA0].contains i.op

/-- The MOD bits that the entry of an instruction uses (R251, R267, R275, R302, R304). -/
def Ins.modMask (i : Ins) (r : OpRow) : Nat :=
  match r.cls with
  | .s => 0xF + (if r.imm then 0x10 else 0)
  | .m => 0x100
  | .a =>
    0xF + (if i.op / 16 = 0xA then 0 else 0x100) + (if r.rcd then 0x80 else 0) + (if r.ord then 0x60 else 0) +
      (if r.nc then 0x10 else 0)
  | _ =>
    0xF + (if r.imm && !i.noSb then 0x10 else 0) + (if r.z then 0x100 else 0) + (if i.rounds r then 0xC0 else 0) +
      (if i.op = 0xE0 ∨ i.op = 0xE2 ∨ (i.op = 0x20 ∧ (i.fn ≤ 2 ∨ i.fn = 13)) then 0x20 else 0)

/-- The limits that single entries add: register pairs, formats that go with a function, ORD 3, the INT8 immediate and the extension word
(R251, R253, R275, R281, R291, R294, R299, R302). -/
def Ins.extraOk (i : Ins) (r : OpRow) : Bool :=
  (!r.ord || decide (i.ord ≠ 3)) &&
  (decide (i.op ≠ 0x51) || decide (i.dst ≤ 62)) &&
  (decide (i.op ≠ 0x92) || decide (i.fmt ≠ 2) || decide (i.fn ≤ 2)) &&
  (decide (i.op ≠ 0x97) || decide (3 < i.fn) || decide (i.fmt = 0)) &&
  (decide (i.op ≠ 0xE0) || decide (i.fn ≠ i.fmt)) &&
  (decide (i.op ≠ 0xB0) ||
    ((!bit i.fn 0 || (decide (i.fmt = 1) && decide (i.sa ≤ 62))) && (!bit i.fn 1 || decide (i.dst ≤ 62)))) &&
  (decide (i.op ≠ 0x20) || decide (i.fmt ≠ 5) || !i.sbi || decide (i.imm / 256 = if bit i.imm 7 then 0xFF else 0)) &&
  (decide (i.op ≠ 0x13) || decide (i.ext / 2 ^ 48 = if bit i.ext 47 then 0xFFFF else 0))

/-- Whether an instruction is an encoding of the opcode map, for a program of the given tiles and knot handles: every other word is reserved
(R210 step 4, R250, R255). -/
def Ins.valid (i : Ins) (atiles handles : Nat) : Bool :=
  match opRow i.op with
  | none => false
  | some r =>
    let (kd, ka, kb, kc) := i.kinds r
    r.fmts.contains i.fmt && r.fns.contains i.fn && decide ((i.mod &&& i.modMask r) = i.mod) &&
    (r.pg || decide (i.pg = 0)) && (i.usesImm r || decide (i.imm = 0)) &&
    fieldOk kd i.dst atiles handles && fieldOk ka i.sa atiles handles && fieldOk kb i.sb atiles handles &&
    fieldOk kc i.sc atiles handles && (decide (kd ≠ .p) || decide (i.dst ≠ 0)) && i.extraOk r

/-- The scalar and vector registers an instruction reads or writes, as (vector, number): an issue waits for a class A writer of any of them
(R256). -/
def Ins.regs (i : Ins) : List (Bool × Nat) :=
  match opRow i.op with
  | none => []
  | some r =>
    let (kd, ka, kb, kc) := i.kinds r
    let one (rk : RK) (n : Nat) : List (Bool × Nat) := match rk with
      | .s => [(false, n)]
      | .v => [(true, n)]
      | _ => []
    one kd i.dst ++ one ka i.sa ++ one kb i.sb ++ one kc i.sc ++
      (if i.op = 0x51 then [(true, i.dst + 1)] else []) ++
      (if i.op = 0xB0 ∧ bit i.fn 0 then [(true, i.sa + 1)] else []) ++
      (if i.op = 0xB0 ∧ bit i.fn 1 then [(true, i.dst + 1)] else [])

/-- The pipe and the cycles an instruction occupies under the governor: vector (false) or matrix (true) (R196, R197, R216). -/
def Ins.occupancy (i : Ins) : Option (Bool × Nat) :=
  match opRow i.op with
  | none => none
  | some r => match r.cls with
    | .v => some (false, 1)
    | .vl => some (false, 4)
    | .m => some (true, if i.fmt = 6 ∨ i.fmt = 11 then 32 else if i.fmt = 3 ∨ i.fmt = 4 then 128 else 64)
    | _ => none

/-- The target of a branch with a static offset (R272). -/
def Ins.target (i : Ins) (pc : Nat) : Option Int :=
  if i.op = 0x10 ∨ i.op = 0x11 ∨ i.op = 0x12 ∨ i.op = 0x14 then some (pc + sext 16 i.imm * 8)
  else if i.op = 0x13 then some (pc + sext 48 i.ext * 8)
  else none

end Sys2Proof.Machine
end

