-- ==== Sys2Proof/Machine/Msg.lean ====
section
/-! DEFINITION. What the switch puts on its links, ports and pins: the messages by which the outside sees the effect of a command. -/
namespace Sys2Proof.Machine
open Sys2Proof

/-- The IPv6 and UDP headers of a packet that the switch generates (R47, R48, R89): addresses, ECN field, flow label, ports and UDP checksum. -/
structure NetHdr where
  src : Nat
  dst : Nat
  ecn : Nat
  flow : Nat
  udpSrc : Nat
  udpDst : Nat
  csum : Nat
  deriving DecidableEq, Repr

/-- The BTP base header (R50), field by field. -/
structure BtpHdr where
  ver : Nat := 2
  sack : Bool
  chk : Bool
  ackValid : Bool
  resp : Bool
  op : Nat
  dst : Nat
  psn : Nat
  ackPsn : Nat
  epoch : Nat
  ord : Nat
  status : Nat
  extN : Nat
  tid : Nat
  plen : Nat
  credit : Nat
  deriving DecidableEq, Repr

/-- What a RoCEv2 packet of the switch is (R89, R90): an acknowledgment, a NAK with its code, one packet of read data, or a CNP. -/
inductive RocePkt where
  | ack (psn : Nat)
  | nak (psn code : Nat)
  | read (psn : Nat) (data : List Byte)
  | cnp
  deriving DecidableEq, Repr

/-- One message sent. -/
inductive Msg where
  /-- A BTP packet on a connection (R47 to R58): its network headers, base header, extension words, payload and check value. An ACK is one with opcode 0x00. -/
  | btp (conn : Nat) (net : NetHdr) (hdr : BtpHdr) (ext data chk : List Byte)
  /-- A RoCEv2 packet on a queue pair with its UDP destination port and its ICRC (R89). -/
  | roce (qp udpDst : Nat) (pkt : RocePkt) (icrc : Nat)
  /-- A CXL response to an agent or port: message, granted state and data (R166). -/
  | cxl (port : Nat) (msg : Nat) (line : Nat) (data : List Byte)
  /-- A snoop or probe to an agent (R166, R179). -/
  | snoop (agent : Nat) (kind : Snoop) (line : Nat)
  /-- An MSI-X write: vectors 0 to 7 of PF0, 8 + p of VF p + 1 (R529). -/
  | msix (vector : Nat)
  /-- A datagram of exported Logline records (R496): destination address and UDP port, the bytes of its header, and its records, in their stored form. -/
  | logExport (dst udpDst : Nat) (hdr : List Byte) (recs : List LogRec)
  /-- The fence ordered set on a port or on the mirror link (R456 to R458), or the Disabled link of PCIe or CXL. -/
  | fence (port : Nat) (block : FenceSet)
  | disabled (port : Nat)
  /-- A PlatformEventMessage with the fault summary (R539, R540) and other PLDM answers. -/
  | pldm (kind : Nat) (vals : List Nat)
  /-- An SPDM answer (R484). -/
  | spdm (code : Nat) (vals : List Nat)
  /-- The completion of a read that came over the host port on an access path (R14, R15). -/
  | host (path value : Nat)
  /-- An answer on the management port, a debug port or a DOE mailbox. -/
  | mgmt (session : Nat) (vals : List Nat)
  | debug (vals : List Nat)
  /-- A change sent to the mirror partner (R510), or an acknowledgment or replay on the mirror link (R444). -/
  | mirror (link seq : Nat) (u : DomUpd)
  | mirrorAck (seq : Nat)
  /-- A cell-plane frame leaves on a port, with its CE mark and the DSCP written into it (R423, R425, R431) and the bytes it leaves with, to which the MAC adds the FCS (R413); or it is ended on the wire with an inverted FCS (R414, R415). -/
  | frame (port : Nat) (frame : Nat) (ce : Bool) (dscp : Option Nat) (data : List Byte)
  | stomp (port : Nat) (frame : Nat)
  /-- The port's scheduler grants the BTP response queue (R426). -/
  | grant (port : Nat)
  /-- A command to a tray: read, write, append, reset (ch. 03, 04). -/
  | tray (tray : Nat) (cmd : Nat) (vals : List Nat) (data : List Byte := [])
  /-- A duty value sent to the compute dies (R546), and a broadcast of the time counter (R37). -/
  | duty (d : Nat)
  | time (t : Nat)
  /-- A level driven on an output pin: 0 FAULT_N, 1 PCYC_REQ_N, 2 THERMTRIP_N, 3 PPS_OUT (R540, R541, R547, R552). -/
  | pin (pin : Nat) (high : Bool)
  /-- A key exchange frame or other link management frame on a port (R480, R450). -/
  | link (port : Nat) (kind : Nat) (vals : List Nat)
  deriving DecidableEq, Repr

end Sys2Proof.Machine
end

