-- ==== Sys2Proof/Machine/Regs.lean ====
section
/-! DEFINITION. The register fields of the switch, each with the place, width, type, reset value and listed encodings that the register
tables of spec/ give it (R14 to R21), and the list of all of them by which an offset is decoded. A field is named
`F.<register>.<field>` with the spec's own names; an index letter of a register name (n, p, t, e, c, i, k ...) is an entry of the index list. -/
set_option linter.unusedVariables false
namespace Sys2Proof.Machine

/-- The field types of R15. -/
inductive FTy where
  | ro | rw | rws | w1c | w1s | wo
  deriving DecidableEq, Repr

/-- One register field. `st` lists the strides of the register's indices with their counts, outermost first (die or partition,
then the index letters in the order of the register's name); `legal` lists the ranges of encodings the Description states
(R19; empty: every value of the width). Offsets of a partition view p are written 0x1000_0000 + p * 0x10_0000 + view offset. -/
structure Fld where
  base  : Nat
  st    : List (Nat × Nat)
  lo    : Nat
  w     : Nat
  ty    : FTy
  rst   : Nat
  w64   : Bool
  legal : List (Nat × Nat)
  deriving DecidableEq, Repr

/-- The byte offset of the register holding the field, for the given indices. -/
def Fld.off (f : Fld) (ix : List Nat) : Nat :=
  f.base + ((f.st.zip ix).map (fun p => p.1.1 * p.2)).sum

/-- The key of the field's value in the register file: 64 numbers for each byte offset, one for each bit of the register. -/
def Fld.key (f : Fld) (ix : List Nat) : Nat := f.off ix * 64 + f.lo

/-- Whether a value is one of the field's encodings (R19). -/
def Fld.ok (f : Fld) (v : Nat) : Bool :=
  f.legal.isEmpty || f.legal.any (fun r => decide (r.1 ≤ v) && decide (v ≤ r.2))

/-- The indices at which an offset from the base falls, where it falls on one. -/
def Fld.indices : List (Nat × Nat) → Nat → Option (List Nat)
  | [], 0 => some []
  | [], _ + 1 => none
  | (s, n) :: st, r =>
    if r / s < n then (Fld.indices st (r % s)).map (fun ix => r / s :: ix) else none

/-- The indices of the field's register at a byte offset, where the register lies there. -/
def Fld.at? (f : Fld) (off : Nat) : Option (List Nat) :=
  if f.base ≤ off then Fld.indices f.st (off - f.base) else none


/-- CROWN_DIE_STATUS.COMPUTE_ONLINE (R43). -/
def F.CROWN_DIE_STATUS.COMPUTE_ONLINE : Fld := ⟨0x40, [], 0, 8, .ro, 0, false, []⟩

/-- CROWN_DIE_STATUS.BRIM_ONLINE (R43). -/
def F.CROWN_DIE_STATUS.BRIM_ONLINE : Fld := ⟨0x40, [], 8, 8, .ro, 0, false, []⟩

/-- CROWN_DIE_STATUS.HBM_ONLINE (R43). -/
def F.CROWN_DIE_STATUS.HBM_ONLINE : Fld := ⟨0x40, [], 16, 6, .ro, 0, false, []⟩

/-- CROWN_DIE_STATUS.HOST_LINK_UP (R43). -/
def F.CROWN_DIE_STATUS.HOST_LINK_UP : Fld := ⟨0x40, [], 22, 1, .ro, 0, false, []⟩

/-- CROWN_CLK_STATUS.REF156_PRESENT (R43). -/
def F.CROWN_CLK_STATUS.REF156_PRESENT : Fld := ⟨0x44, [], 0, 1, .ro, 0, false, []⟩

/-- CROWN_CLK_STATUS.REF100_PRESENT (R43). -/
def F.CROWN_CLK_STATUS.REF100_PRESENT : Fld := ⟨0x44, [], 1, 1, .ro, 0, false, []⟩

/-- CROWN_CLK_STATUS.ENG_PLL_LOCK (R43). -/
def F.CROWN_CLK_STATUS.ENG_PLL_LOCK : Fld := ⟨0x44, [], 8, 8, .ro, 0, false, []⟩

/-- CROWN_CLK_STATUS.FELT_PLL_LOCK (R43). -/
def F.CROWN_CLK_STATUS.FELT_PLL_LOCK : Fld := ⟨0x44, [], 16, 1, .ro, 0, false, []⟩

/-- CROWN_CLK_STATUS.BRIM_PLL_LOCK (R43). -/
def F.CROWN_CLK_STATUS.BRIM_PLL_LOCK : Fld := ⟨0x44, [], 17, 8, .ro, 0, false, []⟩

/-- CROWN_CLK_STATUS.CROWN_PLL_LOCK (R43). -/
def F.CROWN_CLK_STATUS.CROWN_PLL_LOCK : Fld := ⟨0x44, [], 25, 1, .ro, 0, false, []⟩

/-- CROWN_CLK_STATUS.FALLBACK_OSC (R43). -/
def F.CROWN_CLK_STATUS.FALLBACK_OSC : Fld := ⟨0x44, [], 26, 1, .ro, 0, false, []⟩

/-- CROWN_D2D_STATUS.REPLAY_COUNT (R43). -/
def F.CROWN_D2D_STATUS.REPLAY_COUNT : Fld := ⟨0x80, [(4, 19)], 0, 16, .ro, 0, false, []⟩

/-- CROWN_D2D_STATUS.RETRAIN_COUNT (R43). -/
def F.CROWN_D2D_STATUS.RETRAIN_COUNT : Fld := ⟨0x80, [(4, 19)], 16, 8, .ro, 0, false, []⟩

/-- CROWN_D2D_STATUS.LOST (R43). -/
def F.CROWN_D2D_STATUS.LOST : Fld := ⟨0x80, [(4, 19)], 24, 1, .ro, 0, false, []⟩

/-- FELT_STAGE.STAGE_ID (R97). -/
def F.FELT_STAGE.STAGE_ID : Fld := ⟨0x1000100, [], 0, 12, .rws, 0xfff, false, []⟩

/-- FELT_STAGE.SWITCH_INDEX (R97). -/
def F.FELT_STAGE.SWITCH_INDEX : Fld := ⟨0x1000100, [], 12, 4, .rws, 0, false, []⟩

/-- FELT_ROUTE_EPOCH.CURRENT (R97). -/
def F.FELT_ROUTE_EPOCH.CURRENT : Fld := ⟨0x1000104, [], 0, 16, .rws, 0, false, []⟩

/-- FELT_ROUTE_EPOCH.DRAIN_US (R97). -/
def F.FELT_ROUTE_EPOCH.DRAIN_US : Fld := ⟨0x1000104, [], 16, 12, .rws, 0x1f4, false, [(1, 4095)]⟩

/-- FELT_EPOCH_AHEAD_COUNT.COUNT (R97). -/
def F.FELT_EPOCH_AHEAD_COUNT.COUNT : Fld := ⟨0x1000108, [], 0, 32, .ro, 0, false, []⟩

/-- BRIM_BTP_CTRL.UDP_PORT (R98). -/
def F.BRIM_BTP_CTRL.UDP_PORT : Fld := ⟨0x2001000, [(0x100000, 8)], 0, 16, .rw, 0x6a5c, false, []⟩

/-- BRIM_BTP_CTRL.BTP_EN (R98). -/
def F.BRIM_BTP_CTRL.BTP_EN : Fld := ⟨0x2001000, [(0x100000, 8)], 16, 1, .rw, 0, false, []⟩

/-- BRIM_BTP_CTRL.ROCE_EN (R98). -/
def F.BRIM_BTP_CTRL.ROCE_EN : Fld := ⟨0x2001000, [(0x100000, 8)], 17, 1, .rw, 0, false, []⟩

/-- BRIM_BTP_TIMER.RTO_INIT_US (R98). -/
def F.BRIM_BTP_TIMER.RTO_INIT_US : Fld := ⟨0x2001004, [(0x100000, 8)], 0, 8, .rw, 0x10, false, [(1, 255)]⟩

/-- BRIM_BTP_TIMER.RTO_MAX_US (R98). -/
def F.BRIM_BTP_TIMER.RTO_MAX_US : Fld := ⟨0x2001004, [(0x100000, 8)], 8, 12, .rw, 0x400, false, []⟩

/-- BRIM_BTP_TIMER.RETRY_LIMIT (R98). -/
def F.BRIM_BTP_TIMER.RETRY_LIMIT : Fld := ⟨0x2001004, [(0x100000, 8)], 20, 4, .rw, 8, false, [(1, 15)]⟩

/-- BRIM_BTP_REQ_TIMEOUT.TIMEOUT_US (R98). -/
def F.BRIM_BTP_REQ_TIMEOUT.TIMEOUT_US : Fld := ⟨0x2001008, [(0x100000, 8)], 0, 16, .rw, 0x3e8, false, [(1, 65535)]⟩

/-- TIER_CTRL.TIER_EN (R137). -/
def F.TIER_CTRL.TIER_EN : Fld := ⟨0x1004000, [], 0, 1, .rw, 0, false, []⟩

/-- TIER_CTRL.MIGRATE_EN (R137). -/
def F.TIER_CTRL.MIGRATE_EN : Fld := ⟨0x1004000, [], 1, 1, .rws, 0, false, []⟩

/-- TIER_CTRL.AUTO_REBUILD (R137). -/
def F.TIER_CTRL.AUTO_REBUILD : Fld := ⟨0x1004000, [], 2, 1, .rws, 0, false, []⟩

/-- TIER_POLICY.PROMOTE_THRESH (R137). -/
def F.TIER_POLICY.PROMOTE_THRESH : Fld := ⟨0x1004004, [], 0, 8, .rws, 0x20, false, [(1, 255)]⟩

/-- TIER_POLICY.WINDOW_MS (R137). -/
def F.TIER_POLICY.WINDOW_MS : Fld := ⟨0x1004004, [], 8, 8, .rws, 0xa, false, [(1, 255)]⟩

/-- TIER_POLICY.HBM_LOW_WATER (R137). -/
def F.TIER_POLICY.HBM_LOW_WATER : Fld := ⟨0x1004004, [], 16, 8, .rws, 8, false, []⟩

/-- TIER_POLICY.HBM_HIGH_WATER (R137). -/
def F.TIER_POLICY.HBM_HIGH_WATER : Fld := ⟨0x1004004, [], 24, 8, .rws, 0x10, false, []⟩

/-- TIER_MIGRATE_RATE.UP_GBPS (R137). -/
def F.TIER_MIGRATE_RATE.UP_GBPS : Fld := ⟨0x1004008, [], 0, 12, .rws, 0x190, false, [(1, 4095)]⟩

/-- TIER_MIGRATE_RATE.DOWN_GBPS (R137). -/
def F.TIER_MIGRATE_RATE.DOWN_GBPS : Fld := ⟨0x1004008, [], 12, 12, .rws, 0xc8, false, [(1, 4095)]⟩

/-- TIER_HBM_CFG.RESERVED_GIB (R137). -/
def F.TIER_HBM_CFG.RESERVED_GIB : Fld := ⟨0x100400c, [], 0, 7, .rw, 0x10, false, [(8, 64)]⟩

/-- TIER_DRAIN.DEFAULT_US (R137). -/
def F.TIER_DRAIN.DEFAULT_US : Fld := ⟨0x1004010, [], 0, 16, .rw, 0x1f4, false, [(1, 65535)]⟩

/-- TIER_REBUILD_RATE.GBPS (R137). -/
def F.TIER_REBUILD_RATE.GBPS : Fld := ⟨0x1004014, [], 0, 12, .rws, 0x40, false, [(1, 4095)]⟩

/-- TIER_STATUS.HOT_FREE (R137). -/
def F.TIER_STATUS.HOT_FREE : Fld := ⟨0x1004020, [], 0, 18, .ro, 0, false, []⟩

/-- TIER_STATUS.REBUILD_ACTIVE (R137). -/
def F.TIER_STATUS.REBUILD_ACTIVE : Fld := ⟨0x1004020, [], 18, 1, .ro, 0, false, []⟩

/-- TIER_STATUS.RECOVERING (R137). -/
def F.TIER_STATUS.RECOVERING : Fld := ⟨0x1004020, [], 19, 1, .ro, 0, false, []⟩

/-- TIER_MBOX_INT_EN.SLOT_EN (R137). -/
def F.TIER_MBOX_INT_EN.SLOT_EN : Fld := ⟨0x1004080, [], 0, 8, .rw, 0, false, []⟩

/-- TIER_MBOX.GO (R137). -/
def F.TIER_MBOX.GO : Fld := ⟨0x1005060, [(0x100, 8)], 0, 1, .w1s, 0, false, []⟩

/-- TIER_MBOX.DONE (R137). -/
def F.TIER_MBOX.DONE : Fld := ⟨0x1005060, [(0x100, 8)], 1, 1, .w1c, 0, false, []⟩

/-- TIER_MBOX.RESULT (R137). -/
def F.TIER_MBOX.RESULT : Fld := ⟨0x1005060, [(0x100, 8)], 8, 8, .ro, 0, false, []⟩

/-- TIER_MBOX.CMD (R137). -/
def F.TIER_MBOX.CMD : Fld := ⟨0x1005000, [(0x100, 8), (4, 16)], 0, 32, .rw, 0, false, []⟩

/-- TIER_MBOX.RSP (R137). -/
def F.TIER_MBOX.RSP : Fld := ⟨0x1005040, [(0x100, 8), (4, 8)], 0, 32, .ro, 0, false, []⟩

/-- TIER_FLASH_CTRL.GC_EN (R161). -/
def F.TIER_FLASH_CTRL.GC_EN : Fld := ⟨0x1006000, [], 0, 1, .rws, 1, false, []⟩

/-- TIER_FLASH_CTRL.FREE_LOW (R161). -/
def F.TIER_FLASH_CTRL.FREE_LOW : Fld := ⟨0x1006000, [], 8, 8, .rws, 0x10, false, [(2, 255)]⟩

/-- TIER_FLASH_CTRL.FREE_HIGH (R161). -/
def F.TIER_FLASH_CTRL.FREE_HIGH : Fld := ⟨0x1006000, [], 16, 8, .rws, 0x20, false, []⟩

/-- TIER_FLASH_CTRL.GC_RETRY (R161). -/
def F.TIER_FLASH_CTRL.GC_RETRY : Fld := ⟨0x1006000, [], 24, 4, .rws, 3, false, [(1, 15)]⟩

/-- TIER_FLASH_GC_RATE.GBPS (R161). -/
def F.TIER_FLASH_GC_RATE.GBPS : Fld := ⟨0x1006004, [], 0, 12, .rws, 0x20, false, [(1, 4095)]⟩

/-- TIER_FLASH_JOURNAL.CKPT_MIB (R161). -/
def F.TIER_FLASH_JOURNAL.CKPT_MIB : Fld := ⟨0x1006008, [], 0, 12, .rws, 0x40, false, [(16, 1024)]⟩

/-- TIER_FLASH_JOURNAL.DIRTY_FRAC (R161). -/
def F.TIER_FLASH_JOURNAL.DIRTY_FRAC : Fld := ⟨0x1006008, [], 12, 8, .rws, 0x40, false, [(1, 255)]⟩

/-- TIER_FLASH_CACHE.CACHE_MIB (R161). -/
def F.TIER_FLASH_CACHE.CACHE_MIB : Fld := ⟨0x100600c, [], 0, 16, .rw, 0x800, false, [(256, 16384)]⟩

/-- TIER_FLASH_STATUS.RECOVERING (R161). -/
def F.TIER_FLASH_STATUS.RECOVERING : Fld := ⟨0x1006010, [], 0, 1, .ro, 0, false, []⟩

/-- TIER_FLASH_STATUS.CKPT_ACTIVE (R161). -/
def F.TIER_FLASH_STATUS.CKPT_ACTIVE : Fld := ⟨0x1006010, [], 1, 1, .ro, 0, false, []⟩

/-- TIER_FLASH_TRAY.FREE_ZONES (R161). -/
def F.TIER_FLASH_TRAY.FREE_ZONES : Fld := ⟨0x1006100, [(8, 64)], 0, 24, .ro, 0, true, []⟩

/-- TIER_FLASH_TRAY.RETIRED_ZONES (R161). -/
def F.TIER_FLASH_TRAY.RETIRED_ZONES : Fld := ⟨0x1006100, [(8, 64)], 24, 24, .ro, 0, true, []⟩

/-- TIER_FLASH_TRAY.LOW_SPACE (R161). -/
def F.TIER_FLASH_TRAY.LOW_SPACE : Fld := ⟨0x1006100, [(8, 64)], 48, 1, .ro, 0, true, []⟩

/-- TIER_FLASH_TRAY.EVACUATING (R161). -/
def F.TIER_FLASH_TRAY.EVACUATING : Fld := ⟨0x1006100, [(8, 64)], 49, 1, .ro, 0, true, []⟩

/-- TIER_FLASH_TRAY.JOURNAL_UNMIRRORED (R161). -/
def F.TIER_FLASH_TRAY.JOURNAL_UNMIRRORED : Fld := ⟨0x1006100, [(8, 64)], 50, 1, .ro, 0, true, []⟩

/-- HITCH_CTRL.HITCH_EN (R192). -/
def F.HITCH_CTRL.HITCH_EN : Fld := ⟨0x1002000, [], 0, 1, .rw, 0, false, []⟩

/-- HITCH_CTRL.NO_E (R192). -/
def F.HITCH_CTRL.NO_E : Fld := ⟨0x1002000, [], 1, 1, .rws, 0, false, []⟩

/-- HITCH_CTRL.LOST_INT_EN (R192). -/
def F.HITCH_CTRL.LOST_INT_EN : Fld := ⟨0x1002000, [], 2, 1, .rw, 0, false, []⟩

/-- HITCH_TIMING.SNOOP_TIMEOUT_US (R192). -/
def F.HITCH_TIMING.SNOOP_TIMEOUT_US : Fld := ⟨0x1002004, [], 0, 12, .rws, 0x1f4, false, [(1, 4095)]⟩

/-- HITCH_TIMING.HB_PERIOD_US (R192). -/
def F.HITCH_TIMING.HB_PERIOD_US : Fld := ⟨0x1002004, [], 12, 12, .rws, 0x3e8, false, [(100, 4095)]⟩

/-- HITCH_TIMING.HB_MISS (R192). -/
def F.HITCH_TIMING.HB_MISS : Fld := ⟨0x1002004, [], 24, 4, .rws, 2, false, [(1, 15)]⟩

/-- HITCH_STATUS.AGENT_LOST (R192). -/
def F.HITCH_STATUS.AGENT_LOST : Fld := ⟨0x1002008, [], 0, 32, .w1c, 0, false, []⟩

/-- HITCH_AGENT.VALID (R192). -/
def F.HITCH_AGENT.VALID : Fld := ⟨0x1002100, [(4, 32)], 0, 1, .rws, 0, false, []⟩

/-- HITCH_AGENT.KIND (R192). -/
def F.HITCH_AGENT.KIND : Fld := ⟨0x1002100, [(4, 32)], 1, 1, .rws, 0, false, []⟩

/-- HITCH_AGENT.PARTITION (R192). -/
def F.HITCH_AGENT.PARTITION : Fld := ⟨0x1002100, [(4, 32)], 2, 4, .rws, 0, false, []⟩

/-- HITCH_AGENT.DIE (R192). -/
def F.HITCH_AGENT.DIE : Fld := ⟨0x1002100, [(4, 32)], 6, 2, .rws, 0, false, []⟩

/-- HITCH_AGENT.PORT (R192). -/
def F.HITCH_AGENT.PORT : Fld := ⟨0x1002100, [(4, 32)], 8, 6, .rws, 0, false, []⟩

/-- HITCH_AGENT.STATE (R192). -/
def F.HITCH_AGENT.STATE : Fld := ⟨0x1002100, [(4, 32)], 16, 2, .ro, 0, false, []⟩

/-- HITCH_WAYMASK.WAYS (R192). -/
def F.HITCH_WAYMASK.WAYS : Fld := ⟨0x1002200, [(4, 16)], 0, 16, .rws, 0xffff, false, []⟩

/-- HITCH_TXN_MIN.MIN (R192). -/
def F.HITCH_TXN_MIN.MIN : Fld := ⟨0x1002280, [(4, 16)], 0, 13, .rws, 0x800, false, []⟩

/-- HITCH_POISON_ADDR.LINE (R192). -/
def F.HITCH_POISON_ADDR.LINE : Fld := ⟨0x1002300, [], 6, 46, .rw, 0, true, []⟩

/-- HITCH_POISON_CTRL.GO (R192). -/
def F.HITCH_POISON_CTRL.GO : Fld := ⟨0x1002308, [], 0, 1, .w1s, 0, false, []⟩

/-- HITCH_POISON_CTRL.DONE (R192). -/
def F.HITCH_POISON_CTRL.DONE : Fld := ⟨0x1002308, [], 1, 1, .w1c, 0, false, []⟩

/-- HITCH_POISON_CTRL.MODE (R192). -/
def F.HITCH_POISON_CTRL.MODE : Fld := ⟨0x1002308, [], 2, 1, .rw, 0, false, []⟩

/-- HITCH_POISON_CTRL.WAS_POISONED (R192). -/
def F.HITCH_POISON_CTRL.WAS_POISONED : Fld := ⟨0x1002308, [], 3, 1, .ro, 0, false, []⟩

/-- FULL_CTRL.FULL_EN (R192). -/
def F.FULL_CTRL.FULL_EN : Fld := ⟨0x1003000, [], 0, 1, .rws, 1, false, []⟩

/-- FULL_CTRL.FADD_COMB (R192). -/
def F.FULL_CTRL.FADD_COMB : Fld := ⟨0x1003000, [], 1, 1, .rws, 0, false, []⟩

/-- FULL_CTRL.MAX_FANOUT (R192). -/
def F.FULL_CTRL.MAX_FANOUT : Fld := ⟨0x1003000, [], 8, 8, .rws, 0x40, false, [(2, 255)]⟩

/-- FULL_HOLD.ATOM_HOLD_NS (R192). -/
def F.FULL_HOLD.ATOM_HOLD_NS : Fld := ⟨0x1003004, [], 0, 10, .rws, 0x64, false, []⟩

/-- FULL_HOLD.FWD_HOLD_NS (R192). -/
def F.FULL_HOLD.FWD_HOLD_NS : Fld := ⟨0x1003004, [], 10, 10, .rws, 0x32, false, []⟩

/-- FULL_QUOTA.MAX_ENTRIES (R192). -/
def F.FULL_QUOTA.MAX_ENTRIES : Fld := ⟨0x1003100, [(4, 16)], 0, 13, .rws, 0x1000, false, []⟩

/-- SPL_DIE_STATUS.DUTY (R220). -/
def F.SPL_DIE_STATUS.DUTY : Fld := ⟨0x4000000, [(0x400000, 8)], 0, 7, .ro, 0x40, false, []⟩

/-- SPL_ENG_AVAIL.AVAIL (R220). -/
def F.SPL_ENG_AVAIL.AVAIL : Fld := ⟨0x4000008, [(0x400000, 8)], 0, 64, .ro, 0, true, []⟩

/-- SPL_CAP.VALUE (R220). -/
def F.SPL_CAP.VALUE : Fld := ⟨0x4000100, [(0x400000, 8), (4, 16)], 0, 32, .ro, 0, false, []⟩

/-- SPL_ENG_STATUS.TILES_USED (R220). -/
def F.SPL_ENG_STATUS.TILES_USED : Fld := ⟨0x4010000, [(0x400000, 8), (0x400, 64)], 0, 5, .ro, 0, false, []⟩

/-- SPL_ENG_STATUS.CTX_BUSY (R220). -/
def F.SPL_ENG_STATUS.CTX_BUSY : Fld := ⟨0x4010000, [(0x400000, 8), (0x400, 64)], 8, 8, .ro, 0, false, []⟩

/-- SPL_ENG_STATUS.SCRATCH_FREE (R220). -/
def F.SPL_ENG_STATUS.SCRATCH_FREE : Fld := ⟨0x4010000, [(0x400000, 8), (0x400, 64)], 16, 6, .ro, 0, false, []⟩

/-- SPL_CTX_INFO.STATE (R220). -/
def F.SPL_CTX_INFO.STATE : Fld := ⟨0x4010100, [(0x400000, 8), (0x400, 64), (0x40, 8)], 0, 3, .ro, 0, true, []⟩

/-- SPL_CTX_INFO.MODE (R220). -/
def F.SPL_CTX_INFO.MODE : Fld := ⟨0x4010100, [(0x400000, 8), (0x400, 64), (0x40, 8)], 3, 1, .ro, 0, true, []⟩

/-- SPL_CTX_INFO.AUTO_REARM (R220). -/
def F.SPL_CTX_INFO.AUTO_REARM : Fld := ⟨0x4010100, [(0x400000, 8), (0x400, 64), (0x40, 8)], 4, 1, .ro, 0, true, []⟩

/-- SPL_CTX_INFO.SVC (R220). -/
def F.SPL_CTX_INFO.SVC : Fld := ⟨0x4010100, [(0x400000, 8), (0x400, 64), (0x40, 8)], 5, 1, .ro, 0, true, []⟩

/-- SPL_CTX_INFO.PARTITION (R220). -/
def F.SPL_CTX_INFO.PARTITION : Fld := ⟨0x4010100, [(0x400000, 8), (0x400, 64), (0x40, 8)], 8, 4, .ro, 0, true, []⟩

/-- SPL_CTX_INFO.ATILES (R220). -/
def F.SPL_CTX_INFO.ATILES : Fld := ⟨0x4010100, [(0x400000, 8), (0x400, 64), (0x40, 8)], 12, 4, .ro, 0, true, []⟩

/-- SPL_CTX_INFO.PROG_ID (R220). -/
def F.SPL_CTX_INFO.PROG_ID : Fld := ⟨0x4010100, [(0x400000, 8), (0x400, 64), (0x40, 8)], 16, 12, .ro, 0, true, []⟩

/-- SPL_CTX_INFO.LAST_STATUS (R220). -/
def F.SPL_CTX_INFO.LAST_STATUS : Fld := ⟨0x4010100, [(0x400000, 8), (0x400, 64), (0x40, 8)], 32, 6, .ro, 0, true, []⟩

/-- SPL_CTX_PC.PC (R220). -/
def F.SPL_CTX_PC.PC : Fld := ⟨0x4010108, [(0x400000, 8), (0x400, 64), (0x40, 8)], 0, 48, .ro, 0, true, []⟩

/-- SPL_CTX_WIN.SCR_BASE (R220). -/
def F.SPL_CTX_WIN.SCR_BASE : Fld := ⟨0x4010110, [(0x400000, 8), (0x400, 64), (0x40, 8)], 0, 6, .ro, 0, false, []⟩

/-- SPL_CTX_WIN.SCR_SIZE (R220). -/
def F.SPL_CTX_WIN.SCR_SIZE : Fld := ⟨0x4010110, [(0x400000, 8), (0x400, 64), (0x40, 8)], 8, 6, .ro, 0, false, []⟩

/-- SPL_CTX_WIN.CLU_BASE (R220). -/
def F.SPL_CTX_WIN.CLU_BASE : Fld := ⟨0x4010110, [(0x400000, 8), (0x400, 64), (0x40, 8)], 16, 7, .ro, 0, false, []⟩

/-- SPL_CTX_WIN.CLU_SIZE (R220). -/
def F.SPL_CTX_WIN.CLU_SIZE : Fld := ⟨0x4010110, [(0x400000, 8), (0x400, 64), (0x40, 8)], 24, 8, .ro, 0, false, []⟩

/-- SPL_FAB_CTRL.TIMEOUT_US (R263). -/
def F.SPL_FAB_CTRL.TIMEOUT_US : Fld := ⟨0x4000010, [(0x400000, 8)], 0, 16, .rw, 0x3e8, false, [(1, 65535)]⟩

/-- SPL_FAB_CTRL.MAX_INFLIGHT (R263). -/
def F.SPL_FAB_CTRL.MAX_INFLIGHT : Fld := ⟨0x4000010, [(0x400000, 8)], 16, 6, .rw, 0x20, false, [(1, 63)]⟩

/-- SPL_PART_ACCESS.CLEAT_TAG (R263). -/
def F.SPL_PART_ACCESS.CLEAT_TAG : Fld := ⟨0x4000200, [(0x400000, 8), (4, 16)], 0, 16, .ro, 0, false, []⟩

/-- SPL_PART_ACCESS.MEM (R263). -/
def F.SPL_PART_ACCESS.MEM : Fld := ⟨0x4000200, [(0x400000, 8), (4, 16)], 16, 1, .ro, 0, false, []⟩

/-- SPL_PART_ACCESS.TRIGGER (R263). -/
def F.SPL_PART_ACCESS.TRIGGER : Fld := ⟨0x4000200, [(0x400000, 8), (4, 16)], 17, 1, .ro, 0, false, []⟩

/-- SPL_PART_ACCESS.BULK (R263). -/
def F.SPL_PART_ACCESS.BULK : Fld := ⟨0x4000200, [(0x400000, 8), (4, 16)], 18, 1, .ro, 0, false, []⟩

/-- SPL_PART_ACCESS.NEAR (R263). -/
def F.SPL_PART_ACCESS.NEAR : Fld := ⟨0x4000200, [(0x400000, 8), (4, 16)], 19, 1, .ro, 0, false, []⟩

/-- SPL_PART_ACCESS.VALID (R263). -/
def F.SPL_PART_ACCESS.VALID : Fld := ⟨0x4000200, [(0x400000, 8), (4, 16)], 20, 1, .ro, 0, false, []⟩

/-- FELT_COLL_RESERVE.CELLS (R341). -/
def F.FELT_COLL_RESERVE.CELLS : Fld := ⟨0x1007000, [], 0, 21, .rws, 0x10000, false, [(0, 1048576)]⟩

/-- FELT_COLL_FREE.CELLS_FREE (R341). -/
def F.FELT_COLL_FREE.CELLS_FREE : Fld := ⟨0x1007004, [], 0, 21, .ro, 0x10000, false, []⟩

/-- FELT_COLL_EXACT_FREE.GRAN_FREE (R341). -/
def F.FELT_COLL_EXACT_FREE.GRAN_FREE : Fld := ⟨0x1007008, [], 0, 16, .ro, 0xc000, false, []⟩

/-- FELT_SHADOW_CFG.SVC_N (R341). -/
def F.FELT_SHADOW_CFG.SVC_N : Fld := ⟨0x1007020, [], 0, 16, .rws, 0x400, false, []⟩

/-- FELT_SHADOW_CFG.RED_N (R341). -/
def F.FELT_SHADOW_CFG.RED_N : Fld := ⟨0x1007020, [], 16, 16, .rws, 0x1000, false, []⟩

/-- FELT_COLL_CAP.CELLS (R341). -/
def F.FELT_COLL_CAP.CELLS : Fld := ⟨0x1007100, [(8, 16)], 0, 21, .rws, 0, true, []⟩

/-- FELT_COLL_CAP.EXACT_GRAN (R341). -/
def F.FELT_COLL_CAP.EXACT_GRAN : Fld := ⟨0x1007100, [(8, 16)], 32, 16, .rws, 0, true, [(0, 49152)]⟩

/-- FELT_XSVC_QUOTA.MAX_ITEMS (R341). -/
def F.FELT_XSVC_QUOTA.MAX_ITEMS : Fld := ⟨0x1007200, [(4, 16)], 0, 15, .rws, 0x400, false, [(0, 16384)]⟩

/-- FELT_COLL.VALID (R341). -/
def F.FELT_COLL.VALID : Fld := ⟨0x1010000, [(0x20, 4096)], 0, 1, .rws, 0, false, []⟩

/-- FELT_COLL.PARTITION (R341). -/
def F.FELT_COLL.PARTITION : Fld := ⟨0x1010000, [(0x20, 4096)], 1, 4, .rws, 0, false, []⟩

/-- FELT_COLL.KIND (R341). -/
def F.FELT_COLL.KIND : Fld := ⟨0x1010000, [(0x20, 4096)], 5, 2, .rws, 0, false, [(0, 1)]⟩

/-- FELT_COLL.MODE (R341). -/
def F.FELT_COLL.MODE : Fld := ⟨0x1010000, [(0x20, 4096)], 7, 2, .rws, 0, false, [(0, 2)]⟩

/-- FELT_COLL.FMT (R341). -/
def F.FELT_COLL.FMT : Fld := ⟨0x1010000, [(0x20, 4096)], 9, 4, .rws, 0, false, []⟩

/-- FELT_COLL.RES_FMT (R341). -/
def F.FELT_COLL.RES_FMT : Fld := ⟨0x1010000, [(0x20, 4096)], 13, 4, .rws, 0, false, []⟩

/-- FELT_COLL.NRANKS_M1 (R341). -/
def F.FELT_COLL.NRANKS_M1 : Fld := ⟨0x1010000, [(0x20, 4096)], 17, 12, .rws, 0, false, []⟩

/-- FELT_COLL.DELIVER (R341). -/
def F.FELT_COLL.DELIVER : Fld := ⟨0x1010000, [(0x20, 4096)], 29, 1, .rws, 0, false, []⟩

/-- FELT_COLL.GRANULES (R341). -/
def F.FELT_COLL.GRANULES : Fld := ⟨0x1010004, [(0x20, 4096)], 0, 24, .rws, 0, false, []⟩

/-- FELT_COLL.SHARD_GRAN (R341). -/
def F.FELT_COLL.SHARD_GRAN : Fld := ⟨0x1010008, [(0x20, 4096)], 0, 24, .rws, 0, false, []⟩

/-- FELT_COLL.ROOT (R341). -/
def F.FELT_COLL.ROOT : Fld := ⟨0x101000c, [(0x20, 4096)], 0, 12, .rws, 0, false, []⟩

/-- FELT_COLL.WINDOW_CELLS (R341). -/
def F.FELT_COLL.WINDOW_CELLS : Fld := ⟨0x101000c, [(0x20, 4096)], 16, 16, .rws, 0, false, []⟩

/-- FELT_COLL.DONE_KNOT (R341). -/
def F.FELT_COLL.DONE_KNOT : Fld := ⟨0x1010010, [(0x20, 4096)], 0, 16, .rws, 0, false, []⟩

/-- FELT_COLL.DONE_EN (R341). -/
def F.FELT_COLL.DONE_EN : Fld := ⟨0x1010010, [(0x20, 4096)], 16, 1, .rws, 0, false, []⟩

/-- FELT_COLL.TIMEOUT_US (R341). -/
def F.FELT_COLL.TIMEOUT_US : Fld := ⟨0x1010014, [(0x20, 4096)], 0, 16, .rws, 0x2710, false, []⟩

/-- FELT_COLL.HOLD_US (R341). -/
def F.FELT_COLL.HOLD_US : Fld := ⟨0x1010014, [(0x20, 4096)], 16, 16, .rws, 0x1f4, false, []⟩

/-- FELT_COLL.RESULT_ADDR_LO (R341). -/
def F.FELT_COLL.RESULT_ADDR_LO : Fld := ⟨0x1010018, [(0x20, 4096)], 0, 32, .rws, 0, false, []⟩

/-- FELT_COLL.RESULT_ADDR_HI (R341). -/
def F.FELT_COLL.RESULT_ADDR_HI : Fld := ⟨0x101001c, [(0x20, 4096)], 0, 32, .rws, 0, false, []⟩

/-- FELT_COLL_STATUS.STATE (R341). -/
def F.FELT_COLL_STATUS.STATE : Fld := ⟨0x1030000, [(4, 4096)], 0, 3, .ro, 0, false, []⟩

/-- FELT_COLL_STATUS.CUR_GEN (R341). -/
def F.FELT_COLL_STATUS.CUR_GEN : Fld := ⟨0x1030000, [(4, 4096)], 3, 8, .ro, 0, false, []⟩

/-- CROWN_XSVC.ATTN_CTX (R342). -/
def F.CROWN_XSVC.ATTN_CTX : Fld := ⟨0x3000, [(4, 16)], 0, 12, .rws, 0, false, []⟩

/-- CROWN_XSVC.RETR_CTX (R342). -/
def F.CROWN_XSVC.RETR_CTX : Fld := ⟨0x3000, [(4, 16)], 12, 12, .rws, 0, false, []⟩

/-- CROWN_XSVC.STATE (R342). -/
def F.CROWN_XSVC.STATE : Fld := ⟨0x3000, [(4, 16)], 26, 2, .ro, 0, false, []⟩

/-- KNOT_WINDOW.WIN_EN (R365). -/
def F.KNOT_WINDOW.WIN_EN : Fld := ⟨0x1008008, [], 0, 1, .rws, 0, true, []⟩

/-- KNOT_WINDOW.BASE (R365). -/
def F.KNOT_WINDOW.BASE : Fld := ⟨0x1008008, [], 23, 29, .rws, 0, true, []⟩

/-- KNOT_SLICE.BASE (R365). -/
def F.KNOT_SLICE.BASE : Fld := ⟨0x1008100, [(4, 16)], 0, 16, .ro, 0, false, []⟩

/-- KNOT_SLICE.COUNT (R365). -/
def F.KNOT_SLICE.COUNT : Fld := ⟨0x1008100, [(4, 16)], 16, 15, .ro, 0, false, []⟩

/-- KNOT_LAUNCH.MAX_QUEUED (R365). -/
def F.KNOT_LAUNCH.MAX_QUEUED : Fld := ⟨0x1008200, [(4, 16)], 0, 12, .rws, 0x100, false, []⟩

/-- KNOT.VALID (R366). -/
def F.KNOT.VALID : Fld := ⟨0x1400000, [(0x20, 65536)], 0, 1, .rws, 0, false, []⟩

/-- KNOT.TYPE (R366). -/
def F.KNOT.TYPE : Fld := ⟨0x1400000, [(0x20, 65536)], 1, 2, .rws, 0, false, []⟩

/-- KNOT.STAGE (R366). -/
def F.KNOT.STAGE : Fld := ⟨0x1400000, [(0x20, 65536)], 3, 2, .rws, 0, false, [(0, 2)]⟩

/-- KNOT.HOME_INDEX (R366). -/
def F.KNOT.HOME_INDEX : Fld := ⟨0x1400000, [(0x20, 65536)], 5, 4, .rws, 0, false, []⟩

/-- KNOT.OWNER_CTX_EN (R366). -/
def F.KNOT.OWNER_CTX_EN : Fld := ⟨0x1400000, [(0x20, 65536)], 9, 1, .rws, 0, false, []⟩

/-- KNOT.OWNER_CTX (R366). -/
def F.KNOT.OWNER_CTX : Fld := ⟨0x1400000, [(0x20, 65536)], 10, 12, .rws, 0, false, []⟩

/-- KNOT.TRIG_EN (R366). -/
def F.KNOT.TRIG_EN : Fld := ⟨0x1400000, [(0x20, 65536)], 22, 1, .rws, 0, false, []⟩

/-- KNOT.TARGET (R366). -/
def F.KNOT.TARGET : Fld := ⟨0x1400004, [(0x20, 65536)], 0, 32, .rws, 0, false, []⟩

/-- KNOT.TRIG_PROG (R366). -/
def F.KNOT.TRIG_PROG : Fld := ⟨0x1400008, [(0x20, 65536)], 0, 12, .rws, 0, false, []⟩

/-- KNOT.MEMBER_MASK (R366). -/
def F.KNOT.MEMBER_MASK : Fld := ⟨0x1400008, [(0x20, 65536)], 16, 16, .rws, 0, false, []⟩

/-- KNOT.INIT (R366). -/
def F.KNOT.INIT : Fld := ⟨0x140000c, [(0x20, 65536)], 0, 32, .rws, 0, false, []⟩

/-- KNOT.STATE (R366). -/
def F.KNOT.STATE : Fld := ⟨0x1400010, [(0x20, 65536)], 0, 3, .ro, 0, false, []⟩

/-- KNOT.READY (R366). -/
def F.KNOT.READY : Fld := ⟨0x1400010, [(0x20, 65536)], 3, 1, .ro, 0, false, []⟩

/-- KNOT.FAIL_STATUS (R366). -/
def F.KNOT.FAIL_STATUS : Fld := ⟨0x1400010, [(0x20, 65536)], 4, 6, .ro, 0, false, []⟩

/-- KNOT.REARM (R366). -/
def F.KNOT.REARM : Fld := ⟨0x1400010, [(0x20, 65536)], 10, 1, .w1s, 0, false, []⟩

/-- KNOT.CLR_FAIL (R366). -/
def F.KNOT.CLR_FAIL : Fld := ⟨0x1400010, [(0x20, 65536)], 11, 1, .w1s, 0, false, []⟩

/-- KNOT.ARRIVED (R366). -/
def F.KNOT.ARRIVED : Fld := ⟨0x1400010, [(0x20, 65536)], 16, 16, .ro, 0, false, []⟩

/-- KNOT.GEN (R366). -/
def F.KNOT.GEN : Fld := ⟨0x1400014, [(0x20, 65536)], 0, 32, .ro, 0, false, []⟩

/-- KNOT.VALUE (R366). -/
def F.KNOT.VALUE : Fld := ⟨0x1400018, [(0x20, 65536)], 0, 64, .ro, 0, true, []⟩

/-- CLEAT_CFG.SYS_MIN (R385). -/
def F.CLEAT_CFG.SYS_MIN : Fld := ⟨0x1009000, [], 0, 18, .rws, 0x10000, false, [(0, 131072)]⟩

/-- CLEAT_STATUS.USED (R385). -/
def F.CLEAT_STATUS.USED : Fld := ⟨0x1009004, [], 0, 18, .ro, 0, false, []⟩

/-- CLEAT_STATUS.SHIFTING (R385). -/
def F.CLEAT_STATUS.SHIFTING : Fld := ⟨0x1009004, [], 18, 1, .ro, 0, false, []⟩

/-- CLEAT_LEND.TAG_BASE (R385). -/
def F.CLEAT_LEND.TAG_BASE : Fld := ⟨0x1009100, [(8, 16)], 0, 12, .ro, 0, true, []⟩

/-- CLEAT_LEND.TAG_COUNT (R385). -/
def F.CLEAT_LEND.TAG_COUNT : Fld := ⟨0x1009100, [(8, 16)], 12, 12, .ro, 0, true, []⟩

/-- CLEAT_LEND.MAX_ENTRIES (R385). -/
def F.CLEAT_LEND.MAX_ENTRIES : Fld := ⟨0x1009100, [(8, 16)], 32, 17, .ro, 0, true, []⟩

/-- BRIM_CHK_SET.POLY (R412). -/
def F.BRIM_CHK_SET.POLY : Fld := ⟨0x2002020, [(0x100000, 8), (0x20, 255)], 0, 64, .rws, 0, true, []⟩

/-- BRIM_CHK_SET.INIT (R412). -/
def F.BRIM_CHK_SET.INIT : Fld := ⟨0x2002028, [(0x100000, 8), (0x20, 255)], 0, 64, .rws, 0, true, []⟩

/-- BRIM_CHK_SET.XOROUT (R412). -/
def F.BRIM_CHK_SET.XOROUT : Fld := ⟨0x2002030, [(0x100000, 8), (0x20, 255)], 0, 64, .rws, 0, true, []⟩

/-- BRIM_CHK_SET.WIDTH (R412). -/
def F.BRIM_CHK_SET.WIDTH : Fld := ⟨0x2002038, [(0x100000, 8), (0x20, 255)], 0, 7, .rws, 0, false, [(8, 64)]⟩

/-- BRIM_CHK_SET.REFIN (R412). -/
def F.BRIM_CHK_SET.REFIN : Fld := ⟨0x2002038, [(0x100000, 8), (0x20, 255)], 7, 1, .rws, 0, false, []⟩

/-- BRIM_CHK_SET.REFOUT (R412). -/
def F.BRIM_CHK_SET.REFOUT : Fld := ⟨0x2002038, [(0x100000, 8), (0x20, 255)], 8, 1, .rws, 0, false, []⟩

/-- BRIM_CHK_SET.SCOPE (R412). -/
def F.BRIM_CHK_SET.SCOPE : Fld := ⟨0x2002038, [(0x100000, 8), (0x20, 255)], 9, 1, .rws, 0, false, []⟩

/-- BRIM_CHK_SET.VALID (R412). -/
def F.BRIM_CHK_SET.VALID : Fld := ⟨0x2002038, [(0x100000, 8), (0x20, 255)], 10, 1, .rws, 0, false, []⟩

/-- CODEC_CTRL.CODEC_EN (R412). -/
def F.CODEC_CTRL.CODEC_EN : Fld := ⟨0x2004000, [(0x100000, 8)], 0, 1, .rw, 1, false, []⟩

/-- CODEC_STATUS.UNIT_BUSY (R412). -/
def F.CODEC_STATUS.UNIT_BUSY : Fld := ⟨0x2004004, [(0x100000, 8)], 0, 8, .ro, 0, false, []⟩

/-- TM_CTRL.TM_EN (R435). -/
def F.TM_CTRL.TM_EN : Fld := ⟨0x100a000, [], 0, 1, .rw, 0, false, []⟩

/-- TM_CTRL.CUT_THROUGH (R435). -/
def F.TM_CTRL.CUT_THROUGH : Fld := ⟨0x100a000, [], 1, 1, .rws, 1, false, []⟩

/-- TM_BUF_SIZE.CELLS (R435). -/
def F.TM_BUF_SIZE.CELLS : Fld := ⟨0x100a004, [], 0, 23, .ro, 0x3f0000, false, []⟩

/-- TM_BUF_FREE.CELLS (R435). -/
def F.TM_BUF_FREE.CELLS : Fld := ⟨0x100a008, [], 0, 23, .ro, 0x3f0000, false, []⟩

/-- FELT_D2D_SHARE.MEM_WEIGHT (R435). -/
def F.FELT_D2D_SHARE.MEM_WEIGHT : Fld := ⟨0x100a010, [], 0, 4, .rws, 1, false, [(1, 15)]⟩

/-- FELT_D2D_SHARE.CELL_WEIGHT (R435). -/
def F.FELT_D2D_SHARE.CELL_WEIGHT : Fld := ⟨0x100a010, [], 4, 4, .rws, 2, false, [(1, 15)]⟩

/-- TM_PART.SHARED_MAX (R435). -/
def F.TM_PART.SHARED_MAX : Fld := ⟨0x100a100, [(4, 16)], 0, 23, .rws, 0x400000, false, []⟩

/-- TM_PART_USED.SHARED_USED (R435). -/
def F.TM_PART_USED.SHARED_USED : Fld := ⟨0x100a140, [(4, 16)], 0, 23, .ro, 0, false, []⟩

/-- TM_Q.VALID (R435). -/
def F.TM_Q.VALID : Fld := ⟨0x1040000, [(0x20, 16384)], 0, 1, .rws, 0, false, []⟩

/-- TM_Q.PARTITION (R435). -/
def F.TM_Q.PARTITION : Fld := ⟨0x1040000, [(0x20, 16384)], 1, 4, .rws, 0, false, []⟩

/-- TM_Q.PORT (R435). -/
def F.TM_Q.PORT : Fld := ⟨0x1040000, [(0x20, 16384)], 5, 9, .rws, 0, false, []⟩

/-- TM_Q.STRICT (R435). -/
def F.TM_Q.STRICT : Fld := ⟨0x1040000, [(0x20, 16384)], 14, 1, .rws, 0, false, []⟩

/-- TM_Q.ALPHA (R435). -/
def F.TM_Q.ALPHA : Fld := ⟨0x1040000, [(0x20, 16384)], 15, 3, .rws, 4, false, []⟩

/-- TM_Q.ECN_EN (R435). -/
def F.TM_Q.ECN_EN : Fld := ⟨0x1040000, [(0x20, 16384)], 18, 1, .rws, 0, false, []⟩

/-- TM_Q.MIN_CELLS (R435). -/
def F.TM_Q.MIN_CELLS : Fld := ⟨0x1040004, [(0x20, 16384)], 0, 22, .rws, 0, false, []⟩

/-- TM_Q.WEIGHT (R435). -/
def F.TM_Q.WEIGHT : Fld := ⟨0x1040008, [(0x20, 16384)], 0, 16, .rws, 1, false, [(1, 65535)]⟩

/-- TM_Q.BURST_KIB (R435). -/
def F.TM_Q.BURST_KIB : Fld := ⟨0x1040008, [(0x20, 16384)], 16, 16, .rws, 0, false, []⟩

/-- TM_Q.ECN_KMIN (R435). -/
def F.TM_Q.ECN_KMIN : Fld := ⟨0x104000c, [(0x20, 16384)], 0, 16, .rws, 0, false, []⟩

/-- TM_Q.ECN_KMAX (R435). -/
def F.TM_Q.ECN_KMAX : Fld := ⟨0x104000c, [(0x20, 16384)], 16, 16, .rws, 0xffff, false, []⟩

/-- TM_Q.CIR (R435). -/
def F.TM_Q.CIR : Fld := ⟨0x1040010, [(0x20, 16384)], 0, 24, .rws, 0, false, []⟩

/-- TM_Q.ECN_PMAX (R435). -/
def F.TM_Q.ECN_PMAX : Fld := ⟨0x1040010, [(0x20, 16384)], 24, 8, .rws, 0xff, false, []⟩

/-- TM_Q.PIR (R435). -/
def F.TM_Q.PIR : Fld := ⟨0x1040014, [(0x20, 16384)], 0, 24, .rws, 0, false, []⟩

/-- TM_Q.CBS_KIB (R435). -/
def F.TM_Q.CBS_KIB : Fld := ⟨0x1040018, [(0x20, 16384)], 0, 16, .rws, 0x10, false, []⟩

/-- TM_Q.PBS_KIB (R435). -/
def F.TM_Q.PBS_KIB : Fld := ⟨0x1040018, [(0x20, 16384)], 16, 16, .rws, 0x10, false, []⟩

/-- TM_Q_STAT.DEPTH (R435). -/
def F.TM_Q_STAT.DEPTH : Fld := ⟨0x10c0000, [(0x10, 16384)], 0, 22, .ro, 0, false, []⟩

/-- TM_Q_STAT.ACTIVE (R435). -/
def F.TM_Q_STAT.ACTIVE : Fld := ⟨0x10c0000, [(0x10, 16384)], 22, 1, .ro, 0, false, []⟩

/-- TM_Q_STAT.FLUSHING (R435). -/
def F.TM_Q_STAT.FLUSHING : Fld := ⟨0x10c0000, [(0x10, 16384)], 23, 1, .ro, 0, false, []⟩

/-- TM_Q_STAT.SHARED_USED (R435). -/
def F.TM_Q_STAT.SHARED_USED : Fld := ⟨0x10c0004, [(0x10, 16384)], 0, 22, .ro, 0, false, []⟩

/-- TM_Q_STAT.DROP_PKTS (R435). -/
def F.TM_Q_STAT.DROP_PKTS : Fld := ⟨0x10c0008, [(0x10, 16384)], 0, 64, .ro, 0, true, []⟩

/-- TM_MCG.VALID (R435). -/
def F.TM_MCG.VALID : Fld := ⟨0x1100000, [(4, 4096)], 0, 1, .rws, 0, false, []⟩

/-- TM_MCG.PARTITION (R435). -/
def F.TM_MCG.PARTITION : Fld := ⟨0x1100000, [(4, 4096)], 1, 4, .rws, 0, false, []⟩

/-- TM_MCG.FIRST (R435). -/
def F.TM_MCG.FIRST : Fld := ⟨0x1100000, [(4, 4096)], 5, 14, .rws, 0, false, []⟩

/-- TM_MCG.COUNT (R435). -/
def F.TM_MCG.COUNT : Fld := ⟨0x1100000, [(4, 4096)], 19, 10, .rws, 0, false, [(1, 512)]⟩

/-- TM_MCM.QUEUE (R435). -/
def F.TM_MCM.QUEUE : Fld := ⟨0x1110000, [(4, 16384)], 0, 14, .rws, 0, false, []⟩

/-- TM_PORT.RATE (R435). -/
def F.TM_PORT.RATE : Fld := ⟨0x1120000, [(0x10, 512)], 0, 24, .rws, 0, false, []⟩

/-- TM_PORT.RESP_WEIGHT (R435). -/
def F.TM_PORT.RESP_WEIGHT : Fld := ⟨0x1120004, [(0x10, 512)], 0, 16, .rws, 0x4000, false, []⟩

/-- TM_PORT.RESP_PIR (R435). -/
def F.TM_PORT.RESP_PIR : Fld := ⟨0x1120008, [(0x10, 512)], 0, 24, .rws, 0, false, []⟩

/-- TM_PORT.UP (R435). -/
def F.TM_PORT.UP : Fld := ⟨0x112000c, [(0x10, 512)], 0, 1, .ro, 0, false, []⟩

/-- TM_PORT.FLUSHING (R435). -/
def F.TM_PORT.FLUSHING : Fld := ⟨0x112000c, [(0x10, 512)], 1, 1, .ro, 0, false, []⟩

/-- TM_PORT.FENCED (R435). -/
def F.TM_PORT.FENCED : Fld := ⟨0x112000c, [(0x10, 512)], 2, 1, .ro, 0, false, []⟩

/-- TM_CLASS.TC (R436). -/
def F.TM_CLASS.TC : Fld := ⟨0x2010000, [(0x100000, 8), (4, 1024)], 0, 3, .rws, 0, false, []⟩

/-- TM_CLASS.COLOUR (R436). -/
def F.TM_CLASS.COLOUR : Fld := ⟨0x2010000, [(0x100000, 8), (4, 1024)], 3, 2, .rws, 0, false, [(0, 2)]⟩

/-- TM_CLASS.POL_OFF (R436). -/
def F.TM_CLASS.POL_OFF : Fld := ⟨0x2010000, [(0x100000, 8), (4, 1024)], 5, 4, .rws, 0, false, []⟩

/-- TM_CLASS.POL_EN (R436). -/
def F.TM_CLASS.POL_EN : Fld := ⟨0x2010000, [(0x100000, 8), (4, 1024)], 9, 1, .rws, 0, false, []⟩

/-- TM_INPORT.PROFILE (R436). -/
def F.TM_INPORT.PROFILE : Fld := ⟨0x2012000, [(0x100000, 8), (8, 64)], 0, 4, .rws, 0, false, []⟩

/-- TM_INPORT.PARTITION (R436). -/
def F.TM_INPORT.PARTITION : Fld := ⟨0x2012000, [(0x100000, 8), (8, 64)], 4, 4, .rws, 0, false, []⟩

/-- TM_INPORT.SHARED (R436). -/
def F.TM_INPORT.SHARED : Fld := ⟨0x2012000, [(0x100000, 8), (8, 64)], 8, 1, .rws, 0, false, []⟩

/-- TM_INPORT.POL_BASE (R436). -/
def F.TM_INPORT.POL_BASE : Fld := ⟨0x2012000, [(0x100000, 8), (8, 64)], 9, 11, .rws, 0, false, []⟩

/-- TM_VLAN.PARTITION (R436). -/
def F.TM_VLAN.PARTITION : Fld := ⟨0x2014000, [(0x100000, 8), (4, 4096)], 0, 4, .rws, 0, false, []⟩

/-- TM_VLAN.VALID (R436). -/
def F.TM_VLAN.VALID : Fld := ⟨0x2014000, [(0x100000, 8), (4, 4096)], 4, 1, .rws, 0, false, []⟩

/-- TM_POL.CIR (R436). -/
def F.TM_POL.CIR : Fld := ⟨0x2020000, [(0x100000, 8), (0x20, 2048)], 0, 24, .rws, 0, false, []⟩

/-- TM_POL.MODE (R436). -/
def F.TM_POL.MODE : Fld := ⟨0x2020000, [(0x100000, 8), (0x20, 2048)], 24, 1, .rws, 0, false, []⟩

/-- TM_POL.EN (R436). -/
def F.TM_POL.EN : Fld := ⟨0x2020000, [(0x100000, 8), (0x20, 2048)], 25, 1, .rws, 0, false, []⟩

/-- TM_POL.YELLOW_ACT (R436). -/
def F.TM_POL.YELLOW_ACT : Fld := ⟨0x2020000, [(0x100000, 8), (0x20, 2048)], 26, 2, .rws, 0, false, []⟩

/-- TM_POL.RED_ACT (R436). -/
def F.TM_POL.RED_ACT : Fld := ⟨0x2020000, [(0x100000, 8), (0x20, 2048)], 28, 1, .rws, 0, false, []⟩

/-- TM_POL.PIR (R436). -/
def F.TM_POL.PIR : Fld := ⟨0x2020004, [(0x100000, 8), (0x20, 2048)], 0, 24, .rws, 0, false, []⟩

/-- TM_POL.CBS_KIB (R436). -/
def F.TM_POL.CBS_KIB : Fld := ⟨0x2020008, [(0x100000, 8), (0x20, 2048)], 0, 16, .rws, 0x10, false, [(10, 65535)]⟩

/-- TM_POL.PBS_KIB (R436). -/
def F.TM_POL.PBS_KIB : Fld := ⟨0x2020008, [(0x100000, 8), (0x20, 2048)], 16, 16, .rws, 0x10, false, [(10, 65535)]⟩

/-- TM_POL.YELLOW_DSCP (R436). -/
def F.TM_POL.YELLOW_DSCP : Fld := ⟨0x202000c, [(0x100000, 8), (0x20, 2048)], 0, 6, .rws, 0, false, []⟩

/-- TM_POL.GREEN_PKTS (R436). -/
def F.TM_POL.GREEN_PKTS : Fld := ⟨0x2020010, [(0x100000, 8), (0x20, 2048)], 0, 32, .ro, 0, false, []⟩

/-- TM_POL.YELLOW_PKTS (R436). -/
def F.TM_POL.YELLOW_PKTS : Fld := ⟨0x2020014, [(0x100000, 8), (0x20, 2048)], 0, 32, .ro, 0, false, []⟩

/-- TM_POL.RED_PKTS (R436). -/
def F.TM_POL.RED_PKTS : Fld := ⟨0x2020018, [(0x100000, 8), (0x20, 2048)], 0, 32, .ro, 0, false, []⟩

/-- BRIM_OCTET.MODE (R463). -/
def F.BRIM_OCTET.MODE : Fld := ⟨0x2040000, [(0x100000, 8), (4, 16)], 0, 3, .rws, 0, false, [(0, 4)]⟩

/-- BRIM_OCTET.ROLE (R463). -/
def F.BRIM_OCTET.ROLE : Fld := ⟨0x2040000, [(0x100000, 8), (4, 16)], 3, 1, .rws, 0, false, []⟩

/-- BRIM_OCTET.IDE_EN (R463). -/
def F.BRIM_OCTET.IDE_EN : Fld := ⟨0x2040000, [(0x100000, 8), (4, 16)], 4, 1, .rws, 0, false, []⟩

/-- BRIM_OCTET.LANE_REV (R463). -/
def F.BRIM_OCTET.LANE_REV : Fld := ⟨0x2040000, [(0x100000, 8), (4, 16)], 5, 1, .rws, 0, false, []⟩

/-- BRIM_OCTET.MAX_RATE (R463). -/
def F.BRIM_OCTET.MAX_RATE : Fld := ⟨0x2040000, [(0x100000, 8), (4, 16)], 6, 2, .rws, 0, false, [(0, 2)]⟩

/-- BRIM_LINK_CTRL.MARGIN_MIN (R463). -/
def F.BRIM_LINK_CTRL.MARGIN_MIN : Fld := ⟨0x2040040, [(0x100000, 8)], 0, 8, .rws, 0x20, false, []⟩

/-- BRIM_LINK_CTRL.FENCE_HOLD_US (R463). -/
def F.BRIM_LINK_CTRL.FENCE_HOLD_US : Fld := ⟨0x2040040, [(0x100000, 8)], 8, 12, .rws, 0x14, false, [(10, 4095)]⟩

/-- BRIM_PCIE_CTRL.MARGIN_PERIOD_MS (R463). -/
def F.BRIM_PCIE_CTRL.MARGIN_PERIOD_MS : Fld := ⟨0x2040044, [(0x100000, 8)], 0, 16, .rws, 0x3e8, false, [(100, 65535)]⟩

/-- BRIM_PCIE_CTRL.RETRAIN_S (R463). -/
def F.BRIM_PCIE_CTRL.RETRAIN_S : Fld := ⟨0x2040044, [(0x100000, 8)], 16, 16, .rws, 0x258, false, []⟩

/-- BRIM_MIRROR_CTRL.DOWN_US (R463). -/
def F.BRIM_MIRROR_CTRL.DOWN_US : Fld := ⟨0x2040048, [(0x100000, 8)], 0, 12, .rws, 0x64, false, [(10, 4095)]⟩

/-- BRIM_PORT.EN (R463). -/
def F.BRIM_PORT.EN : Fld := ⟨0x2041000, [(0x100000, 8), (0x40, 64)], 0, 1, .rws, 0, false, []⟩

/-- BRIM_PORT.WIDTH (R463). -/
def F.BRIM_PORT.WIDTH : Fld := ⟨0x2041000, [(0x100000, 8), (0x40, 64)], 1, 2, .rws, 0, false, []⟩

/-- BRIM_PORT.AN_EN (R463). -/
def F.BRIM_PORT.AN_EN : Fld := ⟨0x2041000, [(0x100000, 8), (0x40, 64)], 3, 1, .rws, 0, false, []⟩

/-- BRIM_PORT.MACSEC_EN (R463). -/
def F.BRIM_PORT.MACSEC_EN : Fld := ⟨0x2041000, [(0x100000, 8), (0x40, 64)], 4, 1, .rws, 0, false, []⟩

/-- BRIM_PORT.MAX_FRAME (R463). -/
def F.BRIM_PORT.MAX_FRAME : Fld := ⟨0x2041000, [(0x100000, 8), (0x40, 64)], 5, 14, .rws, 0x2580, false, [(1518, 9600)]⟩

/-- BRIM_PORT.REEQ_SYM_K (R463). -/
def F.BRIM_PORT.REEQ_SYM_K : Fld := ⟨0x2041004, [(0x100000, 8), (0x40, 64)], 0, 8, .rws, 0x14, false, []⟩

/-- BRIM_PORT.REEQ_WINDOWS (R463). -/
def F.BRIM_PORT.REEQ_WINDOWS : Fld := ⟨0x2041004, [(0x100000, 8), (0x40, 64)], 8, 4, .rws, 3, false, [(1, 15)]⟩

/-- BRIM_PORT.REEQ_MAX_US (R463). -/
def F.BRIM_PORT.REEQ_MAX_US : Fld := ⟨0x2041004, [(0x100000, 8), (0x40, 64)], 12, 12, .rws, 0x3e8, false, [(100, 4095)]⟩

/-- BRIM_PORT.REPLAY_WINDOW (R463). -/
def F.BRIM_PORT.REPLAY_WINDOW : Fld := ⟨0x2041008, [(0x100000, 8), (0x40, 64)], 0, 12, .rws, 0, false, []⟩

/-- BRIM_PORT.LINK_STATE (R463). -/
def F.BRIM_PORT.LINK_STATE : Fld := ⟨0x204100c, [(0x100000, 8), (0x40, 64)], 0, 3, .ro, 0, false, []⟩

/-- BRIM_PORT.DEGRADED (R463). -/
def F.BRIM_PORT.DEGRADED : Fld := ⟨0x204100c, [(0x100000, 8), (0x40, 64)], 3, 1, .ro, 0, false, []⟩

/-- BRIM_PORT.LANES (R463). -/
def F.BRIM_PORT.LANES : Fld := ⟨0x204100c, [(0x100000, 8), (0x40, 64)], 4, 5, .ro, 0, false, []⟩

/-- BRIM_PORT.RATE (R463). -/
def F.BRIM_PORT.RATE : Fld := ⟨0x204100c, [(0x100000, 8), (0x40, 64)], 9, 2, .ro, 0, false, []⟩

/-- BRIM_PORT.MIN_MARGIN (R463). -/
def F.BRIM_PORT.MIN_MARGIN : Fld := ⟨0x204100c, [(0x100000, 8), (0x40, 64)], 11, 8, .ro, 0, false, []⟩

/-- BRIM_LANE.TX_INV (R463). -/
def F.BRIM_LANE.TX_INV : Fld := ⟨0x2044000, [(0x100000, 8), (8, 128)], 0, 1, .rws, 0, false, []⟩

/-- BRIM_LANE.RX_INV (R463). -/
def F.BRIM_LANE.RX_INV : Fld := ⟨0x2044000, [(0x100000, 8), (8, 128)], 1, 1, .rws, 0, false, []⟩

/-- BRIM_LANE.MARGIN (R463). -/
def F.BRIM_LANE.MARGIN : Fld := ⟨0x2044000, [(0x100000, 8), (8, 128)], 2, 8, .ro, 0, false, []⟩

/-- BRIM_LANE.CDR_LOCK (R463). -/
def F.BRIM_LANE.CDR_LOCK : Fld := ⟨0x2044000, [(0x100000, 8), (8, 128)], 10, 1, .ro, 0, false, []⟩

/-- FELT_HBM_TRAIN.PERIOD_MS (R464). -/
def F.FELT_HBM_TRAIN.PERIOD_MS : Fld := ⟨0x100b000, [], 0, 16, .rw, 0x40, false, [(1, 65535)]⟩

/-- FELT_HBM_TRAIN.MARGIN_MIN (R464). -/
def F.FELT_HBM_TRAIN.MARGIN_MIN : Fld := ⟨0x100b000, [], 16, 8, .rw, 0x20, false, []⟩

/-- CROWN_PART_CFG.RIGHTS_TAG (R488). -/
def F.CROWN_PART_CFG.RIGHTS_TAG : Fld := ⟨0x4000, [(0x20, 16)], 0, 16, .rws, 0, false, []⟩

/-- CROWN_PART_CFG.MEM (R488). -/
def F.CROWN_PART_CFG.MEM : Fld := ⟨0x4000, [(0x20, 16)], 16, 1, .rws, 0, false, []⟩

/-- CROWN_PART_CFG.TRIGGER (R488). -/
def F.CROWN_PART_CFG.TRIGGER : Fld := ⟨0x4000, [(0x20, 16)], 17, 1, .rws, 0, false, []⟩

/-- CROWN_PART_CFG.BULK (R488). -/
def F.CROWN_PART_CFG.BULK : Fld := ⟨0x4000, [(0x20, 16)], 18, 1, .rws, 0, false, []⟩

/-- CROWN_PART_CFG.NEAR (R488). -/
def F.CROWN_PART_CFG.NEAR : Fld := ⟨0x4000, [(0x20, 16)], 19, 1, .rws, 0, false, []⟩

/-- CROWN_PART_CFG.KNOT_BASE (R488). -/
def F.CROWN_PART_CFG.KNOT_BASE : Fld := ⟨0x4004, [(0x20, 16)], 0, 16, .rws, 0, false, []⟩

/-- CROWN_PART_CFG.KNOT_COUNT (R488). -/
def F.CROWN_PART_CFG.KNOT_COUNT : Fld := ⟨0x4004, [(0x20, 16)], 16, 15, .rws, 0, false, [(0, 16384)]⟩

/-- CROWN_PART_CFG.TAG_BASE (R488). -/
def F.CROWN_PART_CFG.TAG_BASE : Fld := ⟨0x4008, [(0x20, 16)], 0, 12, .rws, 0, false, []⟩

/-- CROWN_PART_CFG.TAG_COUNT (R488). -/
def F.CROWN_PART_CFG.TAG_COUNT : Fld := ⟨0x4008, [(0x20, 16)], 12, 12, .rws, 0, false, [(0, 4094)]⟩

/-- CROWN_PART_CFG.MAX_ENTRIES (R488). -/
def F.CROWN_PART_CFG.MAX_ENTRIES : Fld := ⟨0x400c, [(0x20, 16)], 0, 17, .rws, 0, false, [(0, 65536)]⟩

/-- CROWN_PART_CFG.FENCE_DRAIN_US (R488). -/
def F.CROWN_PART_CFG.FENCE_DRAIN_US : Fld := ⟨0x4010, [(0x20, 16)], 0, 16, .rws, 0x3e8, false, [(1, 65535)]⟩

/-- CROWN_PART_CTRL.CREATE (R488). -/
def F.CROWN_PART_CTRL.CREATE : Fld := ⟨0x4200, [(4, 16)], 0, 1, .w1s, 0, false, []⟩

/-- CROWN_PART_CTRL.FENCE (R488). -/
def F.CROWN_PART_CTRL.FENCE : Fld := ⟨0x4200, [(4, 16)], 1, 1, .w1s, 0, false, []⟩

/-- CROWN_PART_CTRL.REMOVE (R488). -/
def F.CROWN_PART_CTRL.REMOVE : Fld := ⟨0x4200, [(4, 16)], 2, 1, .w1s, 0, false, []⟩

/-- CROWN_PART_CTRL.DONE (R488). -/
def F.CROWN_PART_CTRL.DONE : Fld := ⟨0x4200, [(4, 16)], 3, 1, .w1c, 0, false, []⟩

/-- CROWN_PART_CTRL.STATE (R488). -/
def F.CROWN_PART_CTRL.STATE : Fld := ⟨0x4200, [(4, 16)], 8, 3, .ro, 0, false, []⟩

/-- CROWN_PART_CTRL.RESULT (R488). -/
def F.CROWN_PART_CTRL.RESULT : Fld := ⟨0x4200, [(4, 16)], 16, 8, .ro, 0, false, []⟩

/-- CROWN_KEY_EPOCH.EPOCH (R488). -/
def F.CROWN_KEY_EPOCH.EPOCH : Fld := ⟨0x4240, [(4, 16)], 0, 32, .ro, 0, false, []⟩

/-- CROWN_SEC_CTRL.REKEY_PN_LOG2 (R488). -/
def F.CROWN_SEC_CTRL.REKEY_PN_LOG2 : Fld := ⟨0x5000, [], 0, 6, .rws, 0x3c, false, [(32, 62)]⟩

/-- CROWN_LC_STATUS.LC_STATE (R488). -/
def F.CROWN_LC_STATUS.LC_STATE : Fld := ⟨0x5004, [], 0, 2, .ro, 0, false, []⟩

/-- CROWN_LC_STATUS.DEBUG_STATE (R488). -/
def F.CROWN_LC_STATUS.DEBUG_STATE : Fld := ⟨0x5004, [], 2, 1, .ro, 0, false, []⟩

/-- CROWN_LC_STATUS.SVN_CROWN (R488). -/
def F.CROWN_LC_STATUS.SVN_CROWN : Fld := ⟨0x5004, [], 16, 8, .ro, 0, false, []⟩

/-- CROWN_LC_STATUS.SVN_BRIM (R488). -/
def F.CROWN_LC_STATUS.SVN_BRIM : Fld := ⟨0x5004, [], 24, 8, .ro, 0, false, []⟩

/-- CROWN_PEER.PUB_X (R488). -/
def F.CROWN_PEER.PUB_X : Fld := ⟨0x10000, [(0x80, 512), (4, 12)], 0, 32, .rws, 0, false, []⟩

/-- CROWN_PEER.PUB_Y (R488). -/
def F.CROWN_PEER.PUB_Y : Fld := ⟨0x10030, [(0x80, 512), (4, 12)], 0, 32, .rws, 0, false, []⟩

/-- CROWN_PEER.VALID (R488). -/
def F.CROWN_PEER.VALID : Fld := ⟨0x10060, [(0x80, 512)], 0, 1, .rws, 0, false, []⟩

/-- PART_SELF.STATE (R489). -/
def F.PART_SELF.STATE : Fld := ⟨0x10000000, [(0x100000, 16)], 0, 3, .ro, 0, true, []⟩

/-- PART_SELF.KEY_EPOCH (R489). -/
def F.PART_SELF.KEY_EPOCH : Fld := ⟨0x10000000, [(0x100000, 16)], 32, 32, .ro, 0, true, []⟩

/-- LOG_CTRL.EXPORT_EN (R524). -/
def F.LOG_CTRL.EXPORT_EN : Fld := ⟨0x8000, [], 0, 1, .rw, 0, false, []⟩

/-- LOG_CTRL.MIN_SEV (R524). -/
def F.LOG_CTRL.MIN_SEV : Fld := ⟨0x8000, [], 1, 2, .rw, 2, false, []⟩

/-- LOG_SEQ_NEXT.SEQ (R524). -/
def F.LOG_SEQ_NEXT.SEQ : Fld := ⟨0x8008, [], 0, 64, .ro, 1, true, []⟩

/-- LOG_INT_EN.CLASS_EN (R524). -/
def F.LOG_INT_EN.CLASS_EN : Fld := ⟨0x8030, [], 0, 9, .rw, 0, false, []⟩

/-- LOG_INT_STATUS.CLASS (R524). -/
def F.LOG_INT_STATUS.CLASS : Fld := ⟨0x8034, [], 0, 9, .w1c, 0, false, []⟩

/-- LOG_WIN_SEL.PAGE (R524). -/
def F.LOG_WIN_SEL.PAGE : Fld := ⟨0x8038, [], 0, 7, .rw, 0, false, [(0, 64)]⟩

/-- LOG_SAMPLE_SEL.ID (R524). -/
def F.LOG_SAMPLE_SEL.ID : Fld := ⟨0x9000, [], 0, 16, .rw, 0, false, []⟩

/-- LOG_SAMPLE_SEL.PRESENT (R524). -/
def F.LOG_SAMPLE_SEL.PRESENT : Fld := ⟨0x9000, [], 16, 1, .ro, 0, false, []⟩

/-- LOG_SAMPLE_FREE.ID (R524). -/
def F.LOG_SAMPLE_FREE.ID : Fld := ⟨0x9004, [], 0, 16, .wo, 0, false, []⟩

/-- LOG_SAMPLE_STATUS.STORE_USED (R524). -/
def F.LOG_SAMPLE_STATUS.STORE_USED : Fld := ⟨0x9008, [], 0, 9, .ro, 0, false, []⟩

/-- LOG_SAMPLE_STATUS.OVF_USED (R524). -/
def F.LOG_SAMPLE_STATUS.OVF_USED : Fld := ⟨0x9008, [], 9, 11, .ro, 0, false, []⟩

/-- CROWN_WDT_CTRL.CTX_EN (R525). -/
def F.CROWN_WDT_CTRL.CTX_EN : Fld := ⟨0xa000, [], 0, 1, .rw, 1, false, []⟩

/-- CROWN_WDT_CTRL.ENG_EN (R525). -/
def F.CROWN_WDT_CTRL.ENG_EN : Fld := ⟨0xa000, [], 1, 1, .rw, 1, false, []⟩

/-- CROWN_WDT_CTRL.PART_EN (R525). -/
def F.CROWN_WDT_CTRL.PART_EN : Fld := ⟨0xa000, [], 2, 1, .rw, 1, false, []⟩

/-- CROWN_WDT_CTRL.SW_EN (R525). -/
def F.CROWN_WDT_CTRL.SW_EN : Fld := ⟨0xa000, [], 3, 1, .rw, 1, false, []⟩

/-- CROWN_WDT_CTRL.PWR_EN (R525). -/
def F.CROWN_WDT_CTRL.PWR_EN : Fld := ⟨0xa000, [], 4, 1, .rw, 1, false, []⟩

/-- CROWN_WDT_CTRL.RESET_LIMIT (R525). -/
def F.CROWN_WDT_CTRL.RESET_LIMIT : Fld := ⟨0xa000, [], 8, 4, .rw, 4, false, [(1, 15)]⟩

/-- CROWN_WDT_CTX.US (R525). -/
def F.CROWN_WDT_CTX.US : Fld := ⟨0xa004, [], 0, 24, .rw, 0x7d0, false, []⟩

/-- CROWN_WDT_ENG.US (R525). -/
def F.CROWN_WDT_ENG.US : Fld := ⟨0xa008, [], 0, 24, .rw, 0x1388, false, []⟩

/-- CROWN_WDT_PART.US (R525). -/
def F.CROWN_WDT_PART.US : Fld := ⟨0xa00c, [], 0, 24, .rw, 0x4e20, false, []⟩

/-- CROWN_WDT_SW.US (R525). -/
def F.CROWN_WDT_SW.US : Fld := ⟨0xa010, [], 0, 24, .rw, 0x186a0, false, []⟩

/-- CROWN_MIRROR_CTRL.MIRROR_EN (R525). -/
def F.CROWN_MIRROR_CTRL.MIRROR_EN : Fld := ⟨0xa100, [], 0, 1, .rw, 0, false, []⟩

/-- CROWN_MIRROR_CTRL.ADOPT (R525). -/
def F.CROWN_MIRROR_CTRL.ADOPT : Fld := ⟨0xa100, [], 1, 1, .w1s, 0, false, []⟩

/-- CROWN_MIRROR_CTRL.CLEAR_LOST (R525). -/
def F.CROWN_MIRROR_CTRL.CLEAR_LOST : Fld := ⟨0xa100, [], 2, 1, .w1s, 0, false, []⟩

/-- CROWN_MIRROR_STATUS.STATE (R525). -/
def F.CROWN_MIRROR_STATUS.STATE : Fld := ⟨0xa104, [], 0, 3, .ro, 0, false, []⟩

/-- CROWN_MIRROR_STATUS.OWN_COPY (R525). -/
def F.CROWN_MIRROR_STATUS.OWN_COPY : Fld := ⟨0xa104, [], 3, 1, .ro, 0, false, []⟩

/-- CROWN_MIRROR_STATUS.HELD (R525). -/
def F.CROWN_MIRROR_STATUS.HELD : Fld := ⟨0xa104, [], 4, 2, .ro, 0, false, []⟩

/-- CROWN_MIRROR_STATUS.SOLO_MARK (R525). -/
def F.CROWN_MIRROR_STATUS.SOLO_MARK : Fld := ⟨0xa104, [], 6, 1, .ro, 0, false, []⟩

/-- CROWN_HEALTH_CFG.DECAY_SHIFT (R525). -/
def F.CROWN_HEALTH_CFG.DECAY_SHIFT : Fld := ⟨0xa200, [], 0, 4, .rw, 6, false, [(1, 15)]⟩

/-- CROWN_HEALTH_THRESH.WARN (R525). -/
def F.CROWN_HEALTH_THRESH.WARN : Fld := ⟨0xa204, [], 0, 16, .rw, 0x100, false, []⟩

/-- CROWN_HEALTH_THRESH.SUSPECT (R525). -/
def F.CROWN_HEALTH_THRESH.SUSPECT : Fld := ⟨0xa204, [], 16, 16, .rw, 0x400, false, []⟩

/-- CROWN_HEALTH_WT_0.WEIGHT (R525). -/
def F.CROWN_HEALTH_WT_0.WEIGHT : Fld := ⟨0xa210, [], 0, 16, .rw, 1, false, []⟩

/-- CROWN_HEALTH_WT_1.WEIGHT (R525). -/
def F.CROWN_HEALTH_WT_1.WEIGHT : Fld := ⟨0xa214, [], 0, 16, .rw, 4, false, []⟩

/-- CROWN_HEALTH_WT_2.WEIGHT (R525). -/
def F.CROWN_HEALTH_WT_2.WEIGHT : Fld := ⟨0xa218, [], 0, 16, .rw, 1, false, []⟩

/-- CROWN_HEALTH_WT_3.WEIGHT (R525). -/
def F.CROWN_HEALTH_WT_3.WEIGHT : Fld := ⟨0xa21c, [], 0, 16, .rw, 0x20, false, []⟩

/-- CROWN_HEALTH_WT_4.WEIGHT (R525). -/
def F.CROWN_HEALTH_WT_4.WEIGHT : Fld := ⟨0xa220, [], 0, 16, .rw, 0x80, false, []⟩

/-- CROWN_HEALTH_WT_5.WEIGHT (R525). -/
def F.CROWN_HEALTH_WT_5.WEIGHT : Fld := ⟨0xa224, [], 0, 16, .rw, 0x100, false, []⟩

/-- CROWN_HEALTH_WT_6.WEIGHT (R525). -/
def F.CROWN_HEALTH_WT_6.WEIGHT : Fld := ⟨0xa228, [], 0, 16, .rw, 0x10, false, []⟩

/-- CROWN_HEALTH_WT_7.WEIGHT (R525). -/
def F.CROWN_HEALTH_WT_7.WEIGHT : Fld := ⟨0xa22c, [], 0, 16, .rw, 0x400, false, []⟩

/-- CROWN_HEALTH_WT_8.WEIGHT (R525). -/
def F.CROWN_HEALTH_WT_8.WEIGHT : Fld := ⟨0xa230, [], 0, 16, .rw, 0x40, false, []⟩

/-- CROWN_HEALTH_WT_9.WEIGHT (R525). -/
def F.CROWN_HEALTH_WT_9.WEIGHT : Fld := ⟨0xa234, [], 0, 16, .rw, 0x200, false, []⟩

/-- CROWN_ENG_FENCE.ENGINE (R525). -/
def F.CROWN_ENG_FENCE.ENGINE : Fld := ⟨0xa300, [], 0, 9, .rw, 0, false, []⟩

/-- CROWN_ENG_FENCE.FENCE (R525). -/
def F.CROWN_ENG_FENCE.FENCE : Fld := ⟨0xa300, [], 9, 1, .rw, 0, false, []⟩

/-- CROWN_ENG_FENCE.GO (R525). -/
def F.CROWN_ENG_FENCE.GO : Fld := ⟨0xa300, [], 10, 1, .w1s, 0, false, []⟩

/-- CROWN_ENG_FENCE.DONE (R525). -/
def F.CROWN_ENG_FENCE.DONE : Fld := ⟨0xa300, [], 11, 1, .w1c, 0, false, []⟩

/-- CROWN_ENG_FENCE.RESULT (R525). -/
def F.CROWN_ENG_FENCE.RESULT : Fld := ⟨0xa300, [], 16, 8, .ro, 0, false, []⟩

/-- CROWN_HEALTH.SCORE (R525). -/
def F.CROWN_HEALTH.SCORE : Fld := ⟨0xc000, [(4, 1112)], 0, 16, .ro, 0, false, []⟩

/-- CROWN_HEALTH.WARN (R525). -/
def F.CROWN_HEALTH.WARN : Fld := ⟨0xc000, [(4, 1112)], 16, 1, .w1c, 0, false, []⟩

/-- CROWN_HEALTH.SUSPECT (R525). -/
def F.CROWN_HEALTH.SUSPECT : Fld := ⟨0xc000, [(4, 1112)], 17, 1, .w1c, 0, false, []⟩

/-- CROWN_HEALTH.FENCED (R525). -/
def F.CROWN_HEALTH.FENCED : Fld := ⟨0xc000, [(4, 1112)], 18, 1, .ro, 0, false, []⟩

/-- SPL_SHADOW_CFG.MMA_N (R526). -/
def F.SPL_SHADOW_CFG.MMA_N : Fld := ⟨0x4000020, [(0x400000, 8)], 0, 24, .rw, 0x10000, false, []⟩

/-- CROWN_BOOT_STATUS.READY (R555). -/
def F.CROWN_BOOT_STATUS.READY : Fld := ⟨0x20, [], 0, 1, .ro, 0, false, []⟩

/-- CROWN_BOOT_STATUS.PHASE (R555). -/
def F.CROWN_BOOT_STATUS.PHASE : Fld := ⟨0x20, [], 1, 4, .ro, 0, false, []⟩

/-- CROWN_BOOT_STATUS.SLOT (R555). -/
def F.CROWN_BOOT_STATUS.SLOT : Fld := ⟨0x20, [], 5, 1, .ro, 0, false, []⟩

/-- CROWN_BOOT_STATUS.FALLBACK (R555). -/
def F.CROWN_BOOT_STATUS.FALLBACK : Fld := ⟨0x20, [], 6, 1, .ro, 0, false, []⟩

/-- CROWN_BOOT_STATUS.SLOT_ID (R555). -/
def F.CROWN_BOOT_STATUS.SLOT_ID : Fld := ⟨0x20, [], 7, 4, .ro, 0, false, []⟩

/-- CROWN_BOOT_STATUS.READY_BLOCKS (R555). -/
def F.CROWN_BOOT_STATUS.READY_BLOCKS : Fld := ⟨0x20, [], 16, 12, .ro, 0, false, []⟩

/-- CROWN_RESET.SWITCH (R555). -/
def F.CROWN_RESET.SWITCH : Fld := ⟨0x24, [], 0, 1, .w1s, 0, false, []⟩

/-- CROWN_FAULT_STATUS.RESETTING (R555). -/
def F.CROWN_FAULT_STATUS.RESETTING : Fld := ⟨0x28, [], 0, 1, .ro, 1, false, []⟩

/-- CROWN_FAULT_STATUS.HOST_LINK (R555). -/
def F.CROWN_FAULT_STATUS.HOST_LINK : Fld := ⟨0x28, [], 1, 1, .w1c, 0, false, []⟩

/-- CROWN_FAULT_STATUS.CLOCK (R555). -/
def F.CROWN_FAULT_STATUS.CLOCK : Fld := ⟨0x28, [], 2, 1, .w1c, 0, false, []⟩

/-- CROWN_FAULT_STATUS.THERMAL (R555). -/
def F.CROWN_FAULT_STATUS.THERMAL : Fld := ⟨0x28, [], 3, 1, .w1c, 0, false, []⟩

/-- CROWN_FAULT_STATUS.RECOVERY (R555). -/
def F.CROWN_FAULT_STATUS.RECOVERY : Fld := ⟨0x28, [], 4, 1, .ro, 0, false, []⟩

/-- CROWN_FAULT_STATUS.PCYCLE (R555). -/
def F.CROWN_FAULT_STATUS.PCYCLE : Fld := ⟨0x28, [], 5, 1, .ro, 0, false, []⟩

/-- PWR_CTRL.LIMIT_W (R555). -/
def F.PWR_CTRL.LIMIT_W : Fld := ⟨0xb000, [], 0, 12, .rws, 0xb54, false, [(1200, 2900)]⟩

/-- PWR_CTRL.DUTY_FLOOR (R555). -/
def F.PWR_CTRL.DUTY_FLOOR : Fld := ⟨0xb000, [], 12, 7, .rws, 1, false, [(1, 64)]⟩

/-- PWR_CTRL.GOV_EN (R555). -/
def F.PWR_CTRL.GOV_EN : Fld := ⟨0xb000, [], 19, 1, .rws, 1, false, []⟩

/-- PWR_LOOP.STEP_W (R555). -/
def F.PWR_LOOP.STEP_W : Fld := ⟨0xb004, [], 0, 8, .rws, 0x14, false, [(1, 255)]⟩

/-- PWR_LOOP.HYST_W (R555). -/
def F.PWR_LOOP.HYST_W : Fld := ⟨0xb004, [], 8, 8, .rws, 0x19, false, []⟩

/-- PWR_STATUS.POWER_W (R555). -/
def F.PWR_STATUS.POWER_W : Fld := ⟨0xb008, [], 0, 12, .ro, 0, false, []⟩

/-- PWR_STATUS.DUTY (R555). -/
def F.PWR_STATUS.DUTY : Fld := ⟨0xb008, [], 12, 7, .ro, 0x40, false, []⟩

/-- PWR_STATUS.AT_FLOOR (R555). -/
def F.PWR_STATUS.AT_FLOOR : Fld := ⟨0xb008, [], 19, 1, .ro, 0, false, []⟩

/-- PWR_STATUS.THROTTLE (R555). -/
def F.PWR_STATUS.THROTTLE : Fld := ⟨0xb008, [], 20, 1, .ro, 0, false, []⟩

/-- PWR_THERM.WARN_C (R555). -/
def F.PWR_THERM.WARN_C : Fld := ⟨0xb00c, [], 0, 8, .rw, 0x5f, false, [(60, 110)]⟩

/-- PWR_THERM.THROTTLE_C (R555). -/
def F.PWR_THERM.THROTTLE_C : Fld := ⟨0xb00c, [], 8, 8, .rw, 0x69, false, [(0, 112)]⟩

/-- PWR_RAIL.CURRENT (R555). -/
def F.PWR_RAIL.CURRENT : Fld := ⟨0xb100, [(4, 19)], 0, 16, .ro, 0, false, []⟩

/-- PWR_TEMP.TEMP (R555). -/
def F.PWR_TEMP.TEMP : Fld := ⟨0xb200, [(4, 25)], 0, 16, .ro, 0, false, []⟩

/-- TIME_CTRL.PPS_EN (R555). -/
def F.TIME_CTRL.PPS_EN : Fld := ⟨0xb400, [], 0, 1, .rw, 1, false, []⟩

/-- TIME_CTRL.PPS_OUT_EN (R555). -/
def F.TIME_CTRL.PPS_OUT_EN : Fld := ⟨0xb400, [], 1, 1, .rw, 0, false, []⟩

/-- TIME_CTRL.LOCK_NS (R555). -/
def F.TIME_CTRL.LOCK_NS : Fld := ⟨0xb400, [], 2, 10, .rw, 0x64, false, [(1, 1023)]⟩

/-- TIME_CTRL.DELAY_NS (R555). -/
def F.TIME_CTRL.DELAY_NS : Fld := ⟨0xb400, [], 12, 16, .rw, 0, false, []⟩

/-- TIME_STATUS.STATE (R555). -/
def F.TIME_STATUS.STATE : Fld := ⟨0xb408, [], 0, 2, .ro, 0, true, []⟩

/-- TIME_STATUS.SPURIOUS (R555). -/
def F.TIME_STATUS.SPURIOUS : Fld := ⟨0xb408, [], 2, 14, .ro, 0, true, []⟩

/-- TIME_STATUS.LAST_ERR_NS (R555). -/
def F.TIME_STATUS.LAST_ERR_NS : Fld := ⟨0xb408, [], 32, 32, .ro, 0, true, []⟩

/-- TIME_TRIM.TRIM_MAX_PPB (R555). -/
def F.TIME_TRIM.TRIM_MAX_PPB : Fld := ⟨0xb404, [], 0, 21, .rw, 0x186a0, false, [(1, 1000000)]⟩

/-- HOST_MGMT_CTRL.UDP_PORT (R556). -/
def F.HOST_MGMT_CTRL.UDP_PORT : Fld := ⟨0x800020, [], 0, 16, .rw, 0x6a5e, false, []⟩

/-- HOST_MGMT_CTRL.EN (R556). -/
def F.HOST_MGMT_CTRL.EN : Fld := ⟨0x800020, [], 16, 1, .rw, 0, false, []⟩

/-- CROWN_COMMIT.GO (R533). -/
def F.CROWN_COMMIT.GO : Fld := ⟨0x10, [], 0, 1, .w1s, 0, false, []⟩

/-- CROWN_COMMIT.DONE (R533). -/
def F.CROWN_COMMIT.DONE : Fld := ⟨0x10, [], 1, 1, .w1c, 0, false, []⟩

/-- CROWN_COMMIT.DISCARD (R533). -/
def F.CROWN_COMMIT.DISCARD : Fld := ⟨0x10, [], 2, 1, .w1s, 0, false, []⟩

/-- CROWN_COMMIT.RESULT (R533). -/
def F.CROWN_COMMIT.RESULT : Fld := ⟨0x10, [], 8, 2, .ro, 0, false, []⟩

/-- CROWN_COMMIT.SEQ (R533). -/
def F.CROWN_COMMIT.SEQ : Fld := ⟨0x10, [], 16, 16, .ro, 0, false, []⟩

/-- FELT_COMMIT.GO (R533). -/
def F.FELT_COMMIT.GO : Fld := ⟨0x1000110, [], 0, 1, .w1s, 0, false, []⟩

/-- FELT_COMMIT.DONE (R533). -/
def F.FELT_COMMIT.DONE : Fld := ⟨0x1000110, [], 1, 1, .w1c, 0, false, []⟩

/-- FELT_COMMIT.DISCARD (R533). -/
def F.FELT_COMMIT.DISCARD : Fld := ⟨0x1000110, [], 2, 1, .w1s, 0, false, []⟩

/-- FELT_COMMIT.RESULT (R533). -/
def F.FELT_COMMIT.RESULT : Fld := ⟨0x1000110, [], 8, 2, .ro, 0, false, []⟩

/-- FELT_COMMIT.SEQ (R533). -/
def F.FELT_COMMIT.SEQ : Fld := ⟨0x1000110, [], 16, 16, .ro, 0, false, []⟩

/-- HITCH_COMMIT.GO (R533). -/
def F.HITCH_COMMIT.GO : Fld := ⟨0x1002010, [], 0, 1, .w1s, 0, false, []⟩

/-- HITCH_COMMIT.DONE (R533). -/
def F.HITCH_COMMIT.DONE : Fld := ⟨0x1002010, [], 1, 1, .w1c, 0, false, []⟩

/-- HITCH_COMMIT.DISCARD (R533). -/
def F.HITCH_COMMIT.DISCARD : Fld := ⟨0x1002010, [], 2, 1, .w1s, 0, false, []⟩

/-- HITCH_COMMIT.RESULT (R533). -/
def F.HITCH_COMMIT.RESULT : Fld := ⟨0x1002010, [], 8, 2, .ro, 0, false, []⟩

/-- HITCH_COMMIT.SEQ (R533). -/
def F.HITCH_COMMIT.SEQ : Fld := ⟨0x1002010, [], 16, 16, .ro, 0, false, []⟩

/-- FULL_COMMIT.GO (R533). -/
def F.FULL_COMMIT.GO : Fld := ⟨0x1003008, [], 0, 1, .w1s, 0, false, []⟩

/-- FULL_COMMIT.DONE (R533). -/
def F.FULL_COMMIT.DONE : Fld := ⟨0x1003008, [], 1, 1, .w1c, 0, false, []⟩

/-- FULL_COMMIT.DISCARD (R533). -/
def F.FULL_COMMIT.DISCARD : Fld := ⟨0x1003008, [], 2, 1, .w1s, 0, false, []⟩

/-- FULL_COMMIT.RESULT (R533). -/
def F.FULL_COMMIT.RESULT : Fld := ⟨0x1003008, [], 8, 2, .ro, 0, false, []⟩

/-- FULL_COMMIT.SEQ (R533). -/
def F.FULL_COMMIT.SEQ : Fld := ⟨0x1003008, [], 16, 16, .ro, 0, false, []⟩

/-- TIER_COMMIT.GO (R533). -/
def F.TIER_COMMIT.GO : Fld := ⟨0x1004018, [], 0, 1, .w1s, 0, false, []⟩

/-- TIER_COMMIT.DONE (R533). -/
def F.TIER_COMMIT.DONE : Fld := ⟨0x1004018, [], 1, 1, .w1c, 0, false, []⟩

/-- TIER_COMMIT.DISCARD (R533). -/
def F.TIER_COMMIT.DISCARD : Fld := ⟨0x1004018, [], 2, 1, .w1s, 0, false, []⟩

/-- TIER_COMMIT.RESULT (R533). -/
def F.TIER_COMMIT.RESULT : Fld := ⟨0x1004018, [], 8, 2, .ro, 0, false, []⟩

/-- TIER_COMMIT.SEQ (R533). -/
def F.TIER_COMMIT.SEQ : Fld := ⟨0x1004018, [], 16, 16, .ro, 0, false, []⟩

/-- FELT_COLL_COMMIT.GO (R533). -/
def F.FELT_COLL_COMMIT.GO : Fld := ⟨0x1007010, [], 0, 1, .w1s, 0, false, []⟩

/-- FELT_COLL_COMMIT.DONE (R533). -/
def F.FELT_COLL_COMMIT.DONE : Fld := ⟨0x1007010, [], 1, 1, .w1c, 0, false, []⟩

/-- FELT_COLL_COMMIT.DISCARD (R533). -/
def F.FELT_COLL_COMMIT.DISCARD : Fld := ⟨0x1007010, [], 2, 1, .w1s, 0, false, []⟩

/-- FELT_COLL_COMMIT.RESULT (R533). -/
def F.FELT_COLL_COMMIT.RESULT : Fld := ⟨0x1007010, [], 8, 2, .ro, 0, false, []⟩

/-- FELT_COLL_COMMIT.SEQ (R533). -/
def F.FELT_COLL_COMMIT.SEQ : Fld := ⟨0x1007010, [], 16, 16, .ro, 0, false, []⟩

/-- KNOT_COMMIT.GO (R533). -/
def F.KNOT_COMMIT.GO : Fld := ⟨0x1008000, [], 0, 1, .w1s, 0, false, []⟩

/-- KNOT_COMMIT.DONE (R533). -/
def F.KNOT_COMMIT.DONE : Fld := ⟨0x1008000, [], 1, 1, .w1c, 0, false, []⟩

/-- KNOT_COMMIT.DISCARD (R533). -/
def F.KNOT_COMMIT.DISCARD : Fld := ⟨0x1008000, [], 2, 1, .w1s, 0, false, []⟩

/-- KNOT_COMMIT.RESULT (R533). -/
def F.KNOT_COMMIT.RESULT : Fld := ⟨0x1008000, [], 8, 2, .ro, 0, false, []⟩

/-- KNOT_COMMIT.SEQ (R533). -/
def F.KNOT_COMMIT.SEQ : Fld := ⟨0x1008000, [], 16, 16, .ro, 0, false, []⟩

/-- CLEAT_COMMIT.GO (R533). -/
def F.CLEAT_COMMIT.GO : Fld := ⟨0x1009008, [], 0, 1, .w1s, 0, false, []⟩

/-- CLEAT_COMMIT.DONE (R533). -/
def F.CLEAT_COMMIT.DONE : Fld := ⟨0x1009008, [], 1, 1, .w1c, 0, false, []⟩

/-- CLEAT_COMMIT.DISCARD (R533). -/
def F.CLEAT_COMMIT.DISCARD : Fld := ⟨0x1009008, [], 2, 1, .w1s, 0, false, []⟩

/-- CLEAT_COMMIT.RESULT (R533). -/
def F.CLEAT_COMMIT.RESULT : Fld := ⟨0x1009008, [], 8, 2, .ro, 0, false, []⟩

/-- CLEAT_COMMIT.SEQ (R533). -/
def F.CLEAT_COMMIT.SEQ : Fld := ⟨0x1009008, [], 16, 16, .ro, 0, false, []⟩

/-- TM_COMMIT.GO (R533). -/
def F.TM_COMMIT.GO : Fld := ⟨0x100a00c, [], 0, 1, .w1s, 0, false, []⟩

/-- TM_COMMIT.DONE (R533). -/
def F.TM_COMMIT.DONE : Fld := ⟨0x100a00c, [], 1, 1, .w1c, 0, false, []⟩

/-- TM_COMMIT.DISCARD (R533). -/
def F.TM_COMMIT.DISCARD : Fld := ⟨0x100a00c, [], 2, 1, .w1s, 0, false, []⟩

/-- TM_COMMIT.RESULT (R533). -/
def F.TM_COMMIT.RESULT : Fld := ⟨0x100a00c, [], 8, 2, .ro, 0, false, []⟩

/-- TM_COMMIT.SEQ (R533). -/
def F.TM_COMMIT.SEQ : Fld := ⟨0x100a00c, [], 16, 16, .ro, 0, false, []⟩

/-- BRIM_COMMIT.GO (R533). -/
def F.BRIM_COMMIT.GO : Fld := ⟨0x2000010, [(0x100000, 8)], 0, 1, .w1s, 0, false, []⟩

/-- BRIM_COMMIT.DONE (R533). -/
def F.BRIM_COMMIT.DONE : Fld := ⟨0x2000010, [(0x100000, 8)], 1, 1, .w1c, 0, false, []⟩

/-- BRIM_COMMIT.DISCARD (R533). -/
def F.BRIM_COMMIT.DISCARD : Fld := ⟨0x2000010, [(0x100000, 8)], 2, 1, .w1s, 0, false, []⟩

/-- BRIM_COMMIT.RESULT (R533). -/
def F.BRIM_COMMIT.RESULT : Fld := ⟨0x2000010, [(0x100000, 8)], 8, 2, .ro, 0, false, []⟩

/-- BRIM_COMMIT.SEQ (R533). -/
def F.BRIM_COMMIT.SEQ : Fld := ⟨0x2000010, [(0x100000, 8)], 16, 16, .ro, 0, false, []⟩

/-- VIEW_KNOT_COMMIT.GO (R533). -/
def F.VIEW_KNOT_COMMIT.GO : Fld := ⟨0x10004000, [(0x100000, 16)], 0, 1, .w1s, 0, false, []⟩

/-- VIEW_KNOT_COMMIT.DONE (R533). -/
def F.VIEW_KNOT_COMMIT.DONE : Fld := ⟨0x10004000, [(0x100000, 16)], 1, 1, .w1c, 0, false, []⟩

/-- VIEW_KNOT_COMMIT.DISCARD (R533). -/
def F.VIEW_KNOT_COMMIT.DISCARD : Fld := ⟨0x10004000, [(0x100000, 16)], 2, 1, .w1s, 0, false, []⟩

/-- VIEW_KNOT_COMMIT.RESULT (R533). -/
def F.VIEW_KNOT_COMMIT.RESULT : Fld := ⟨0x10004000, [(0x100000, 16)], 8, 2, .ro, 0, false, []⟩

/-- VIEW_KNOT_COMMIT.SEQ (R533). -/
def F.VIEW_KNOT_COMMIT.SEQ : Fld := ⟨0x10004000, [(0x100000, 16)], 16, 16, .ro, 0, false, []⟩

/-- CROWN_CNT_CLR.CLEAR (R534). -/
def F.CROWN_CNT_CLR.CLEAR : Fld := ⟨0x14, [], 0, 1, .wo, 0, false, []⟩

/-- HOST_CNT_CLR.CLEAR (R534). -/
def F.HOST_CNT_CLR.CLEAR : Fld := ⟨0x800014, [], 0, 1, .wo, 0, false, []⟩

/-- FELT_CNT_CLR.CLEAR (R534). -/
def F.FELT_CNT_CLR.CLEAR : Fld := ⟨0x1000114, [], 0, 1, .wo, 0, false, []⟩

/-- HITCH_CNT_CLR.CLEAR (R534). -/
def F.HITCH_CNT_CLR.CLEAR : Fld := ⟨0x1002014, [], 0, 1, .wo, 0, false, []⟩

/-- FULL_CNT_CLR.CLEAR (R534). -/
def F.FULL_CNT_CLR.CLEAR : Fld := ⟨0x100300c, [], 0, 1, .wo, 0, false, []⟩

/-- TIER_CNT_CLR.CLEAR (R534). -/
def F.TIER_CNT_CLR.CLEAR : Fld := ⟨0x100401c, [], 0, 1, .wo, 0, false, []⟩

/-- FELT_COLL_CNT_CLR.CLEAR (R534). -/
def F.FELT_COLL_CNT_CLR.CLEAR : Fld := ⟨0x1007014, [], 0, 1, .wo, 0, false, []⟩

/-- KNOT_CNT_CLR.CLEAR (R534). -/
def F.KNOT_CNT_CLR.CLEAR : Fld := ⟨0x1008004, [], 0, 1, .wo, 0, false, []⟩

/-- CLEAT_CNT_CLR.CLEAR (R534). -/
def F.CLEAT_CNT_CLR.CLEAR : Fld := ⟨0x100900c, [], 0, 1, .wo, 0, false, []⟩

/-- TM_CNT_CLR.CLEAR (R534). -/
def F.TM_CNT_CLR.CLEAR : Fld := ⟨0x100a014, [], 0, 1, .wo, 0, false, []⟩

/-- BRIM_CNT_CLR.CLEAR (R534). -/
def F.BRIM_CNT_CLR.CLEAR : Fld := ⟨0x2000014, [(0x100000, 8)], 0, 1, .wo, 0, false, []⟩

/-- SPL_CNT_CLR.CLEAR (R534). -/
def F.SPL_CNT_CLR.CLEAR : Fld := ⟨0x4000030, [(0x400000, 8)], 0, 1, .wo, 0, false, []⟩

/-- CROWN_PROG.CMD (R221). -/
def F.CROWN_PROG.CMD : Fld := ⟨0x2000, [(0x100, 4), (4, 16)], 0, 32, .rw, 0, false, []⟩

/-- CROWN_PROG.RSP (R221). -/
def F.CROWN_PROG.RSP : Fld := ⟨0x2040, [(0x100, 4), (4, 8)], 0, 32, .ro, 0, false, []⟩

/-- CROWN_PROG.GO (R221). -/
def F.CROWN_PROG.GO : Fld := ⟨0x2060, [(0x100, 4)], 0, 1, .w1s, 0, false, []⟩

/-- CROWN_PROG.DONE (R221). -/
def F.CROWN_PROG.DONE : Fld := ⟨0x2060, [(0x100, 4)], 1, 1, .w1c, 0, false, []⟩

/-- CROWN_PROG.RESULT (R221). -/
def F.CROWN_PROG.RESULT : Fld := ⟨0x2060, [(0x100, 4)], 8, 8, .ro, 0, false, []⟩

/-- VIEW_PROG.CMD (R221). -/
def F.VIEW_PROG.CMD : Fld := ⟨0x10002000, [(0x100000, 16), (0x100, 2), (4, 16)], 0, 32, .rw, 0, false, []⟩

/-- VIEW_PROG.RSP (R221). -/
def F.VIEW_PROG.RSP : Fld := ⟨0x10002040, [(0x100000, 16), (0x100, 2), (4, 8)], 0, 32, .ro, 0, false, []⟩

/-- VIEW_PROG.GO (R221). -/
def F.VIEW_PROG.GO : Fld := ⟨0x10002060, [(0x100000, 16), (0x100, 2)], 0, 1, .w1s, 0, false, []⟩

/-- VIEW_PROG.DONE (R221). -/
def F.VIEW_PROG.DONE : Fld := ⟨0x10002060, [(0x100000, 16), (0x100, 2)], 1, 1, .w1c, 0, false, []⟩

/-- VIEW_PROG.RESULT (R221). -/
def F.VIEW_PROG.RESULT : Fld := ⟨0x10002060, [(0x100000, 16), (0x100, 2)], 8, 8, .ro, 0, false, []⟩

/-- CLEAT_UPD.LO (R385). -/
def F.CLEAT_UPD.LO : Fld := ⟨0x1009200, [], 0, 64, .rw, 0, true, []⟩

/-- CLEAT_UPD.HI (R385). -/
def F.CLEAT_UPD.HI : Fld := ⟨0x1009208, [], 0, 64, .rw, 0, true, []⟩

/-- CLEAT_UPD.RES (R385). -/
def F.CLEAT_UPD.RES : Fld := ⟨0x1009210, [], 0, 64, .rw, 0, true, []⟩

/-- CLEAT_UPD.TAG (R385). -/
def F.CLEAT_UPD.TAG : Fld := ⟨0x1009218, [], 0, 16, .rw, 0, false, []⟩

/-- CLEAT_UPD.OP (R385). -/
def F.CLEAT_UPD.OP : Fld := ⟨0x1009218, [], 16, 2, .rw, 0, false, []⟩

/-- CLEAT_UPD.GO (R385). -/
def F.CLEAT_UPD.GO : Fld := ⟨0x1009218, [], 24, 1, .w1s, 0, false, []⟩

/-- CLEAT_UPD.DONE (R385). -/
def F.CLEAT_UPD.DONE : Fld := ⟨0x1009218, [], 25, 1, .w1c, 0, false, []⟩

/-- CLEAT_UPD.RESULT (R385). -/
def F.CLEAT_UPD.RESULT : Fld := ⟨0x1009218, [], 28, 4, .ro, 0, false, []⟩

/-- VIEW_CLEAT_UPD.LO (R385). -/
def F.VIEW_CLEAT_UPD.LO : Fld := ⟨0x10005000, [(0x100000, 16)], 0, 64, .rw, 0, true, []⟩

/-- VIEW_CLEAT_UPD.HI (R385). -/
def F.VIEW_CLEAT_UPD.HI : Fld := ⟨0x10005008, [(0x100000, 16)], 0, 64, .rw, 0, true, []⟩

/-- VIEW_CLEAT_UPD.RES (R385). -/
def F.VIEW_CLEAT_UPD.RES : Fld := ⟨0x10005010, [(0x100000, 16)], 0, 64, .rw, 0, true, []⟩

/-- VIEW_CLEAT_UPD.TAG (R385). -/
def F.VIEW_CLEAT_UPD.TAG : Fld := ⟨0x10005018, [(0x100000, 16)], 0, 16, .rw, 0, false, []⟩

/-- VIEW_CLEAT_UPD.OP (R385). -/
def F.VIEW_CLEAT_UPD.OP : Fld := ⟨0x10005018, [(0x100000, 16)], 16, 2, .rw, 0, false, []⟩

/-- VIEW_CLEAT_UPD.GO (R385). -/
def F.VIEW_CLEAT_UPD.GO : Fld := ⟨0x10005018, [(0x100000, 16)], 24, 1, .w1s, 0, false, []⟩

/-- VIEW_CLEAT_UPD.DONE (R385). -/
def F.VIEW_CLEAT_UPD.DONE : Fld := ⟨0x10005018, [(0x100000, 16)], 25, 1, .w1c, 0, false, []⟩

/-- VIEW_CLEAT_UPD.RESULT (R385). -/
def F.VIEW_CLEAT_UPD.RESULT : Fld := ⟨0x10005018, [(0x100000, 16)], 28, 4, .ro, 0, false, []⟩

/-- BRIM_BTP_DROP_COUNT.COUNT (R98). -/
def F.BRIM_BTP_DROP_COUNT.COUNT : Fld := ⟨0x2001010, [(0x100000, 8)], 0, 32, .ro, 0, false, []⟩

/-- BRIM_BTP_CHK_FAIL_COUNT.COUNT (R98). -/
def F.BRIM_BTP_CHK_FAIL_COUNT.COUNT : Fld := ⟨0x2001014, [(0x100000, 8)], 0, 32, .ro, 0, false, []⟩

/-- TIER_PROMOTE_COUNT.COUNT (R137). -/
def F.TIER_PROMOTE_COUNT.COUNT : Fld := ⟨0x1004030, [], 0, 32, .ro, 0, false, []⟩

/-- TIER_DEMOTE_COUNT.COUNT (R137). -/
def F.TIER_DEMOTE_COUNT.COUNT : Fld := ⟨0x1004034, [], 0, 32, .ro, 0, false, []⟩

/-- TIER_MIGRATE_ABORT_COUNT.COUNT (R137). -/
def F.TIER_MIGRATE_ABORT_COUNT.COUNT : Fld := ⟨0x1004038, [], 0, 32, .ro, 0, false, []⟩

/-- TIER_REBUILD_COUNT.COUNT (R137). -/
def F.TIER_REBUILD_COUNT.COUNT : Fld := ⟨0x100403c, [], 0, 32, .ro, 0, false, []⟩

/-- TIER_UNCORR_COUNT.COUNT (R137). -/
def F.TIER_UNCORR_COUNT.COUNT : Fld := ⟨0x1004040, [], 0, 32, .ro, 0, false, []⟩

/-- TIER_LATE_COUNT.COUNT (R137). -/
def F.TIER_LATE_COUNT.COUNT : Fld := ⟨0x1004044, [], 0, 32, .ro, 0, false, []⟩

/-- TIER_MBOX_IGNORED_COUNT.COUNT (R137). -/
def F.TIER_MBOX_IGNORED_COUNT.COUNT : Fld := ⟨0x1004048, [], 0, 32, .ro, 0, false, []⟩

/-- TIER_FLASH_GC_COUNT.COUNT (R161). -/
def F.TIER_FLASH_GC_COUNT.COUNT : Fld := ⟨0x1006020, [], 0, 32, .ro, 0, false, []⟩

/-- TIER_FLASH_GC_ABANDON_COUNT.COUNT (R161). -/
def F.TIER_FLASH_GC_ABANDON_COUNT.COUNT : Fld := ⟨0x1006024, [], 0, 32, .ro, 0, false, []⟩

/-- TIER_FLASH_RETIRE_COUNT.COUNT (R161). -/
def F.TIER_FLASH_RETIRE_COUNT.COUNT : Fld := ⟨0x1006028, [], 0, 32, .ro, 0, false, []⟩

/-- TIER_FLASH_MAP_MISS_COUNT.COUNT (R161). -/
def F.TIER_FLASH_MAP_MISS_COUNT.COUNT : Fld := ⟨0x100602c, [], 0, 32, .ro, 0, false, []⟩

/-- HITCH_EVICT_COUNT.COUNT (R192). -/
def F.HITCH_EVICT_COUNT.COUNT : Fld := ⟨0x1002040, [], 0, 32, .ro, 0, false, []⟩

/-- HITCH_SNOOP_TIMEOUT_COUNT.COUNT (R192). -/
def F.HITCH_SNOOP_TIMEOUT_COUNT.COUNT : Fld := ⟨0x1002044, [], 0, 32, .ro, 0, false, []⟩

/-- HITCH_POISON_COUNT.COUNT (R192). -/
def F.HITCH_POISON_COUNT.COUNT : Fld := ⟨0x1002048, [], 0, 32, .ro, 0, false, []⟩

/-- FULL_MERGED_COUNT.COUNT (R192). -/
def F.FULL_MERGED_COUNT.COUNT : Fld := ⟨0x1003040, [], 0, 32, .ro, 0, false, []⟩

/-- FULL_NOENTRY_COUNT.COUNT (R192). -/
def F.FULL_NOENTRY_COUNT.COUNT : Fld := ⟨0x1003044, [], 0, 32, .ro, 0, false, []⟩

/-- SPL_ECC_CORR_COUNT.COUNT (R220). -/
def F.SPL_ECC_CORR_COUNT.COUNT : Fld := ⟨0x4000040, [(0x400000, 8)], 0, 32, .ro, 0, false, []⟩

/-- SPL_ECC_UNCORR_COUNT.COUNT (R220). -/
def F.SPL_ECC_UNCORR_COUNT.COUNT : Fld := ⟨0x4000044, [(0x400000, 8)], 0, 32, .ro, 0, false, []⟩

/-- SPL_SHADOW_SKIP_COUNT.COUNT (R526). -/
def F.SPL_SHADOW_SKIP_COUNT.COUNT : Fld := ⟨0x4000048, [(0x400000, 8)], 0, 32, .ro, 0, false, []⟩

/-- SPL_SHADOW_MISMATCH_COUNT.COUNT (R526). -/
def F.SPL_SHADOW_MISMATCH_COUNT.COUNT : Fld := ⟨0x400004c, [(0x400000, 8)], 0, 32, .ro, 0, false, []⟩

/-- FELT_COLL_BUSY_COUNT.COUNT (R341). -/
def F.FELT_COLL_BUSY_COUNT.COUNT : Fld := ⟨0x1007040, [], 0, 32, .ro, 0, false, []⟩

/-- FELT_COLL_ABORT_COUNT.COUNT (R341). -/
def F.FELT_COLL_ABORT_COUNT.COUNT : Fld := ⟨0x1007044, [], 0, 32, .ro, 0, false, []⟩

/-- FELT_COLL_DUP_COUNT.COUNT (R341). -/
def F.FELT_COLL_DUP_COUNT.COUNT : Fld := ⟨0x1007048, [], 0, 32, .ro, 0, false, []⟩

/-- FELT_SHADOW_MISMATCH_COUNT.COUNT (R341). -/
def F.FELT_SHADOW_MISMATCH_COUNT.COUNT : Fld := ⟨0x100704c, [], 0, 32, .ro, 0, false, []⟩

/-- FELT_XSVC_BUSY_COUNT.COUNT (R341). -/
def F.FELT_XSVC_BUSY_COUNT.COUNT : Fld := ⟨0x1007050, [], 0, 32, .ro, 0, false, []⟩

/-- KNOT_LATE_COUNT.COUNT (R365). -/
def F.KNOT_LATE_COUNT.COUNT : Fld := ⟨0x1008040, [], 0, 32, .ro, 0, false, []⟩

/-- KNOT_FAIL_COUNT.COUNT (R365). -/
def F.KNOT_FAIL_COUNT.COUNT : Fld := ⟨0x1008044, [], 0, 32, .ro, 0, false, []⟩

/-- KNOT_BROKEN_COUNT.COUNT (R365). -/
def F.KNOT_BROKEN_COUNT.COUNT : Fld := ⟨0x1008048, [], 0, 32, .ro, 0, false, []⟩

/-- KNOT_LAUNCH_BUSY_COUNT.COUNT (R365). -/
def F.KNOT_LAUNCH_BUSY_COUNT.COUNT : Fld := ⟨0x100804c, [], 0, 32, .ro, 0, false, []⟩

/-- KNOT_SAT_COUNT.COUNT (R365). -/
def F.KNOT_SAT_COUNT.COUNT : Fld := ⟨0x1008050, [], 0, 32, .ro, 0, false, []⟩

/-- CLEAT_VERIFY_FAIL_COUNT.COUNT (R385). -/
def F.CLEAT_VERIFY_FAIL_COUNT.COUNT : Fld := ⟨0x1009040, [], 0, 32, .ro, 0, false, []⟩

/-- CLEAT_UNCORR_COUNT.COUNT (R385). -/
def F.CLEAT_UNCORR_COUNT.COUNT : Fld := ⟨0x1009044, [], 0, 32, .ro, 0, false, []⟩

/-- CLEAT_UPD_REFUSED_COUNT.COUNT (R385). -/
def F.CLEAT_UPD_REFUSED_COUNT.COUNT : Fld := ⟨0x1009048, [], 0, 32, .ro, 0, false, []⟩

/-- CLEAT_UPD_IGNORED_COUNT.COUNT (R385). -/
def F.CLEAT_UPD_IGNORED_COUNT.COUNT : Fld := ⟨0x100904c, [], 0, 32, .ro, 0, false, []⟩

/-- CODEC_DEC_BYTES.BYTES (R412). -/
def F.CODEC_DEC_BYTES.BYTES : Fld := ⟨0x2004010, [(0x100000, 8)], 0, 64, .ro, 0, true, []⟩

/-- CODEC_ENC_BYTES.BYTES (R412). -/
def F.CODEC_ENC_BYTES.BYTES : Fld := ⟨0x2004018, [(0x100000, 8)], 0, 64, .ro, 0, true, []⟩

/-- CODEC_OVERRUN_COUNT.COUNT (R412). -/
def F.CODEC_OVERRUN_COUNT.COUNT : Fld := ⟨0x2004020, [(0x100000, 8)], 0, 32, .ro, 0, false, []⟩

/-- CODEC_UNDERRUN_COUNT.COUNT (R412). -/
def F.CODEC_UNDERRUN_COUNT.COUNT : Fld := ⟨0x2004024, [(0x100000, 8)], 0, 32, .ro, 0, false, []⟩

/-- TM_ADMIT_DROP_COUNT.COUNT (R435). -/
def F.TM_ADMIT_DROP_COUNT.COUNT : Fld := ⟨0x100a040, [], 0, 32, .ro, 0, false, []⟩

/-- TM_NOQUEUE_DROP_COUNT.COUNT (R435). -/
def F.TM_NOQUEUE_DROP_COUNT.COUNT : Fld := ⟨0x100a044, [], 0, 32, .ro, 0, false, []⟩

/-- TM_STOMP_COUNT.COUNT (R435). -/
def F.TM_STOMP_COUNT.COUNT : Fld := ⟨0x100a048, [], 0, 32, .ro, 0, false, []⟩

/-- TM_ECC_UNCORR_COUNT.COUNT (R435). -/
def F.TM_ECC_UNCORR_COUNT.COUNT : Fld := ⟨0x100a04c, [], 0, 32, .ro, 0, false, []⟩

/-- PORT_FEC_CORR_COUNT.COUNT (R463). -/
def F.PORT_FEC_CORR_COUNT.COUNT : Fld := ⟨0x2060000, [(0x100000, 8), (0x40, 64)], 0, 64, .ro, 0, true, []⟩

/-- PORT_FEC_UNCORR_COUNT.COUNT (R463). -/
def F.PORT_FEC_UNCORR_COUNT.COUNT : Fld := ⟨0x2060008, [(0x100000, 8), (0x40, 64)], 0, 64, .ro, 0, true, []⟩

/-- PORT_FCS_ERR_COUNT.COUNT (R463). -/
def F.PORT_FCS_ERR_COUNT.COUNT : Fld := ⟨0x2060010, [(0x100000, 8), (0x40, 64)], 0, 64, .ro, 0, true, []⟩

/-- PORT_OVERSIZE_COUNT.COUNT (R463). -/
def F.PORT_OVERSIZE_COUNT.COUNT : Fld := ⟨0x2060018, [(0x100000, 8), (0x40, 64)], 0, 64, .ro, 0, true, []⟩

/-- PORT_MACSEC_FAIL_COUNT.COUNT (R463). -/
def F.PORT_MACSEC_FAIL_COUNT.COUNT : Fld := ⟨0x2060020, [(0x100000, 8), (0x40, 64)], 0, 64, .ro, 0, true, []⟩

/-- PORT_PAUSE_DROP_COUNT.COUNT (R463). -/
def F.PORT_PAUSE_DROP_COUNT.COUNT : Fld := ⟨0x2060028, [(0x100000, 8), (0x40, 64)], 0, 64, .ro, 0, true, []⟩

/-- PORT_LINK_DOWN_COUNT.COUNT (R463). -/
def F.PORT_LINK_DOWN_COUNT.COUNT : Fld := ⟨0x2060030, [(0x100000, 8), (0x40, 64)], 0, 32, .ro, 0, false, []⟩

/-- PORT_REEQ_COUNT.COUNT (R463). -/
def F.PORT_REEQ_COUNT.COUNT : Fld := ⟨0x2060034, [(0x100000, 8), (0x40, 64)], 0, 32, .ro, 0, false, []⟩

/-- BRIM_LANE_SYM_COUNT.COUNT (R463). -/
def F.BRIM_LANE_SYM_COUNT.COUNT : Fld := ⟨0x2062000, [(0x100000, 8), (8, 128)], 0, 64, .ro, 0, true, []⟩

/-- CROWN_OLD_EPOCH_COUNT.COUNT (R488). -/
def F.CROWN_OLD_EPOCH_COUNT.COUNT : Fld := ⟨0x5040, [], 0, 32, .ro, 0, false, []⟩

/-- CROWN_MAC_FAIL_COUNT.COUNT (R488). -/
def F.CROWN_MAC_FAIL_COUNT.COUNT : Fld := ⟨0x5044, [], 0, 32, .ro, 0, false, []⟩

/-- LOG_EXPORT_DST.WORD (R524). -/
def F.LOG_EXPORT_DST.WORD : Fld := ⟨0x8010, [(4, 4)], 0, 32, .rw, 0, false, []⟩

/-- LOG_EXPORT_PORT.UDP_PORT (R524). -/
def F.LOG_EXPORT_PORT.UDP_PORT : Fld := ⟨0x8020, [], 0, 16, .rw, 0x6a5d, false, []⟩

/-- LOG_DROP_COUNT.COUNT (R524). -/
def F.LOG_DROP_COUNT.COUNT : Fld := ⟨0x8040, [], 0, 32, .ro, 0, false, []⟩

/-- LOG_EXPORT_DROP_COUNT.COUNT (R524). -/
def F.LOG_EXPORT_DROP_COUNT.COUNT : Fld := ⟨0x8044, [], 0, 32, .ro, 0, false, []⟩

/-- LOG_SAMPLE_LOST_COUNT.COUNT (R524). -/
def F.LOG_SAMPLE_LOST_COUNT.COUNT : Fld := ⟨0x8048, [], 0, 32, .ro, 0, false, []⟩

/-- LOG_SAMPLE_SKIP_COUNT.COUNT (R524). -/
def F.LOG_SAMPLE_SKIP_COUNT.COUNT : Fld := ⟨0x804c, [], 0, 32, .ro, 0, false, []⟩

/-- PART_LOG_NEXT.K (R524). -/
def F.PART_LOG_NEXT.K : Fld := ⟨0x10000010, [(0x100000, 16)], 0, 64, .ro, 0, true, []⟩

/-- CROWN_MIRROR_TX_SEQ.SEQ (R525). -/
def F.CROWN_MIRROR_TX_SEQ.SEQ : Fld := ⟨0xa108, [], 0, 64, .ro, 0, true, []⟩

/-- CROWN_MIRROR_ACK_SEQ.SEQ (R525). -/
def F.CROWN_MIRROR_ACK_SEQ.SEQ : Fld := ⟨0xa110, [], 0, 64, .ro, 0, true, []⟩

/-- CROWN_MIRROR_RESTORE_SEQ.SEQ (R525). -/
def F.CROWN_MIRROR_RESTORE_SEQ.SEQ : Fld := ⟨0xa118, [], 0, 64, .ro, 0, true, []⟩

/-- TIME_NOW.NS (R555). -/
def F.TIME_NOW.NS : Fld := ⟨0xb410, [], 0, 64, .ro, 0, true, []⟩

/-- TIME_EPOCH_SEC.SEC (R555). -/
def F.TIME_EPOCH_SEC.SEC : Fld := ⟨0xb418, [], 0, 64, .rw, 0, true, []⟩

/-- TIME_PPS_EDGE.C (R555). -/
def F.TIME_PPS_EDGE.C : Fld := ⟨0xb420, [], 0, 64, .ro, 0, true, []⟩

/-- HOST_MGMT_ADDR.WORD (R556). -/
def F.HOST_MGMT_ADDR.WORD : Fld := ⟨0x800030, [(4, 4)], 0, 32, .rw, 0, false, []⟩

/-- HOST_MGMT_PEER.PUB_X (R556). -/
def F.HOST_MGMT_PEER.PUB_X : Fld := ⟨0x801000, [(0x80, 4), (4, 12)], 0, 32, .rw, 0, false, []⟩

/-- HOST_MGMT_PEER.PUB_Y (R556). -/
def F.HOST_MGMT_PEER.PUB_Y : Fld := ⟨0x801030, [(0x80, 4), (4, 12)], 0, 32, .rw, 0, false, []⟩

/-- HOST_MGMT_PEER.VALID (R556). -/
def F.HOST_MGMT_PEER.VALID : Fld := ⟨0x801060, [(0x80, 4)], 0, 1, .rw, 0, false, []⟩

/-- HOST_BAD_ACCESS_COUNT.COUNT (R556). -/
def F.HOST_BAD_ACCESS_COUNT.COUNT : Fld := ⟨0x800010, [], 0, 32, .ro, 0, false, []⟩

/-- VIEW_COLL_STATUS.STATE (R528). -/
def F.VIEW_COLL_STATUS.STATE : Fld := ⟨0x10006000, [(0x100000, 16), (4, 4096)], 0, 3, .ro, 0, false, []⟩

/-- VIEW_COLL_STATUS.CUR_GEN (R528). -/
def F.VIEW_COLL_STATUS.CUR_GEN : Fld := ⟨0x10006000, [(0x100000, 16), (4, 4096)], 3, 8, .ro, 0, false, []⟩

/-- Fields of the Crown and host-die blocks, part 0. -/
def crownFields0 : List Fld :=
  [F.CROWN_DIE_STATUS.COMPUTE_ONLINE,
   F.CROWN_DIE_STATUS.BRIM_ONLINE,
   F.CROWN_DIE_STATUS.HBM_ONLINE,
   F.CROWN_DIE_STATUS.HOST_LINK_UP,
   F.CROWN_CLK_STATUS.REF156_PRESENT,
   F.CROWN_CLK_STATUS.REF100_PRESENT,
   F.CROWN_CLK_STATUS.ENG_PLL_LOCK,
   F.CROWN_CLK_STATUS.FELT_PLL_LOCK,
   F.CROWN_CLK_STATUS.BRIM_PLL_LOCK,
   F.CROWN_CLK_STATUS.CROWN_PLL_LOCK,
   F.CROWN_CLK_STATUS.FALLBACK_OSC,
   F.CROWN_D2D_STATUS.REPLAY_COUNT,
   F.CROWN_D2D_STATUS.RETRAIN_COUNT,
   F.CROWN_D2D_STATUS.LOST,
   F.CROWN_XSVC.ATTN_CTX,
   F.CROWN_XSVC.RETR_CTX,
   F.CROWN_XSVC.STATE,
   F.CROWN_PART_CFG.RIGHTS_TAG,
   F.CROWN_PART_CFG.MEM,
   F.CROWN_PART_CFG.TRIGGER,
   F.CROWN_PART_CFG.BULK,
   F.CROWN_PART_CFG.NEAR,
   F.CROWN_PART_CFG.KNOT_BASE,
   F.CROWN_PART_CFG.KNOT_COUNT,
   F.CROWN_PART_CFG.TAG_BASE,
   F.CROWN_PART_CFG.TAG_COUNT,
   F.CROWN_PART_CFG.MAX_ENTRIES,
   F.CROWN_PART_CFG.FENCE_DRAIN_US,
   F.CROWN_PART_CTRL.CREATE,
   F.CROWN_PART_CTRL.FENCE,
   F.CROWN_PART_CTRL.REMOVE,
   F.CROWN_PART_CTRL.DONE,
   F.CROWN_PART_CTRL.STATE,
   F.CROWN_PART_CTRL.RESULT,
   F.CROWN_KEY_EPOCH.EPOCH,
   F.CROWN_SEC_CTRL.REKEY_PN_LOG2,
   F.CROWN_LC_STATUS.LC_STATE,
   F.CROWN_LC_STATUS.DEBUG_STATE,
   F.CROWN_LC_STATUS.SVN_CROWN,
   F.CROWN_LC_STATUS.SVN_BRIM]

/-- Fields of the Crown and host-die blocks, part 1. -/
def crownFields1 : List Fld :=
  [F.CROWN_PEER.PUB_X,
   F.CROWN_PEER.PUB_Y,
   F.CROWN_PEER.VALID,
   F.LOG_CTRL.EXPORT_EN,
   F.LOG_CTRL.MIN_SEV,
   F.LOG_SEQ_NEXT.SEQ,
   F.LOG_INT_EN.CLASS_EN,
   F.LOG_INT_STATUS.CLASS,
   F.LOG_WIN_SEL.PAGE,
   F.LOG_SAMPLE_SEL.ID,
   F.LOG_SAMPLE_SEL.PRESENT,
   F.LOG_SAMPLE_FREE.ID,
   F.LOG_SAMPLE_STATUS.STORE_USED,
   F.LOG_SAMPLE_STATUS.OVF_USED,
   F.CROWN_WDT_CTRL.CTX_EN,
   F.CROWN_WDT_CTRL.ENG_EN,
   F.CROWN_WDT_CTRL.PART_EN,
   F.CROWN_WDT_CTRL.SW_EN,
   F.CROWN_WDT_CTRL.PWR_EN,
   F.CROWN_WDT_CTRL.RESET_LIMIT,
   F.CROWN_WDT_CTX.US,
   F.CROWN_WDT_ENG.US,
   F.CROWN_WDT_PART.US,
   F.CROWN_WDT_SW.US,
   F.CROWN_MIRROR_CTRL.MIRROR_EN,
   F.CROWN_MIRROR_CTRL.ADOPT,
   F.CROWN_MIRROR_CTRL.CLEAR_LOST,
   F.CROWN_MIRROR_STATUS.STATE,
   F.CROWN_MIRROR_STATUS.OWN_COPY,
   F.CROWN_MIRROR_STATUS.HELD,
   F.CROWN_MIRROR_STATUS.SOLO_MARK,
   F.CROWN_HEALTH_CFG.DECAY_SHIFT,
   F.CROWN_HEALTH_THRESH.WARN,
   F.CROWN_HEALTH_THRESH.SUSPECT,
   F.CROWN_HEALTH_WT_0.WEIGHT,
   F.CROWN_HEALTH_WT_1.WEIGHT,
   F.CROWN_HEALTH_WT_2.WEIGHT,
   F.CROWN_HEALTH_WT_3.WEIGHT,
   F.CROWN_HEALTH_WT_4.WEIGHT,
   F.CROWN_HEALTH_WT_5.WEIGHT]

/-- Fields of the Crown and host-die blocks, part 2. -/
def crownFields2 : List Fld :=
  [F.CROWN_HEALTH_WT_6.WEIGHT,
   F.CROWN_HEALTH_WT_7.WEIGHT,
   F.CROWN_HEALTH_WT_8.WEIGHT,
   F.CROWN_HEALTH_WT_9.WEIGHT,
   F.CROWN_ENG_FENCE.ENGINE,
   F.CROWN_ENG_FENCE.FENCE,
   F.CROWN_ENG_FENCE.GO,
   F.CROWN_ENG_FENCE.DONE,
   F.CROWN_ENG_FENCE.RESULT,
   F.CROWN_HEALTH.SCORE,
   F.CROWN_HEALTH.WARN,
   F.CROWN_HEALTH.SUSPECT,
   F.CROWN_HEALTH.FENCED,
   F.CROWN_BOOT_STATUS.READY,
   F.CROWN_BOOT_STATUS.PHASE,
   F.CROWN_BOOT_STATUS.SLOT,
   F.CROWN_BOOT_STATUS.FALLBACK,
   F.CROWN_BOOT_STATUS.SLOT_ID,
   F.CROWN_BOOT_STATUS.READY_BLOCKS,
   F.CROWN_RESET.SWITCH,
   F.CROWN_FAULT_STATUS.RESETTING,
   F.CROWN_FAULT_STATUS.HOST_LINK,
   F.CROWN_FAULT_STATUS.CLOCK,
   F.CROWN_FAULT_STATUS.THERMAL,
   F.CROWN_FAULT_STATUS.RECOVERY,
   F.CROWN_FAULT_STATUS.PCYCLE,
   F.PWR_CTRL.LIMIT_W,
   F.PWR_CTRL.DUTY_FLOOR,
   F.PWR_CTRL.GOV_EN,
   F.PWR_LOOP.STEP_W,
   F.PWR_LOOP.HYST_W,
   F.PWR_STATUS.POWER_W,
   F.PWR_STATUS.DUTY,
   F.PWR_STATUS.AT_FLOOR,
   F.PWR_STATUS.THROTTLE,
   F.PWR_THERM.WARN_C,
   F.PWR_THERM.THROTTLE_C,
   F.PWR_RAIL.CURRENT,
   F.PWR_TEMP.TEMP,
   F.TIME_CTRL.PPS_EN]

/-- Fields of the Crown and host-die blocks, part 3. -/
def crownFields3 : List Fld :=
  [F.TIME_CTRL.PPS_OUT_EN,
   F.TIME_CTRL.LOCK_NS,
   F.TIME_CTRL.DELAY_NS,
   F.TIME_STATUS.STATE,
   F.TIME_STATUS.SPURIOUS,
   F.TIME_STATUS.LAST_ERR_NS,
   F.TIME_TRIM.TRIM_MAX_PPB,
   F.HOST_MGMT_CTRL.UDP_PORT,
   F.HOST_MGMT_CTRL.EN,
   F.CROWN_COMMIT.GO,
   F.CROWN_COMMIT.DONE,
   F.CROWN_COMMIT.DISCARD,
   F.CROWN_COMMIT.RESULT,
   F.CROWN_COMMIT.SEQ,
   F.CROWN_CNT_CLR.CLEAR,
   F.HOST_CNT_CLR.CLEAR,
   F.CROWN_PROG.CMD,
   F.CROWN_PROG.RSP,
   F.CROWN_PROG.GO,
   F.CROWN_PROG.DONE,
   F.CROWN_PROG.RESULT,
   F.CROWN_OLD_EPOCH_COUNT.COUNT,
   F.CROWN_MAC_FAIL_COUNT.COUNT,
   F.LOG_EXPORT_DST.WORD,
   F.LOG_EXPORT_PORT.UDP_PORT,
   F.LOG_DROP_COUNT.COUNT,
   F.LOG_EXPORT_DROP_COUNT.COUNT,
   F.LOG_SAMPLE_LOST_COUNT.COUNT,
   F.LOG_SAMPLE_SKIP_COUNT.COUNT,
   F.CROWN_MIRROR_TX_SEQ.SEQ,
   F.CROWN_MIRROR_ACK_SEQ.SEQ,
   F.CROWN_MIRROR_RESTORE_SEQ.SEQ,
   F.TIME_NOW.NS,
   F.TIME_EPOCH_SEC.SEC,
   F.TIME_PPS_EDGE.C,
   F.HOST_MGMT_ADDR.WORD,
   F.HOST_MGMT_PEER.PUB_X,
   F.HOST_MGMT_PEER.PUB_Y,
   F.HOST_MGMT_PEER.VALID,
   F.HOST_BAD_ACCESS_COUNT.COUNT]

/-- Every field of the Crown and host-die blocks. -/
def crownFields : List Fld := crownFields0 ++ crownFields1 ++ crownFields2 ++ crownFields3

/-- Fields of the Felt blocks, part 0. -/
def feltFields0 : List Fld :=
  [F.FELT_STAGE.STAGE_ID,
   F.FELT_STAGE.SWITCH_INDEX,
   F.FELT_ROUTE_EPOCH.CURRENT,
   F.FELT_ROUTE_EPOCH.DRAIN_US,
   F.FELT_EPOCH_AHEAD_COUNT.COUNT,
   F.TIER_CTRL.TIER_EN,
   F.TIER_CTRL.MIGRATE_EN,
   F.TIER_CTRL.AUTO_REBUILD,
   F.TIER_POLICY.PROMOTE_THRESH,
   F.TIER_POLICY.WINDOW_MS,
   F.TIER_POLICY.HBM_LOW_WATER,
   F.TIER_POLICY.HBM_HIGH_WATER,
   F.TIER_MIGRATE_RATE.UP_GBPS,
   F.TIER_MIGRATE_RATE.DOWN_GBPS,
   F.TIER_HBM_CFG.RESERVED_GIB,
   F.TIER_DRAIN.DEFAULT_US,
   F.TIER_REBUILD_RATE.GBPS,
   F.TIER_STATUS.HOT_FREE,
   F.TIER_STATUS.REBUILD_ACTIVE,
   F.TIER_STATUS.RECOVERING,
   F.TIER_MBOX_INT_EN.SLOT_EN,
   F.TIER_MBOX.GO,
   F.TIER_MBOX.DONE,
   F.TIER_MBOX.RESULT,
   F.TIER_FLASH_CTRL.GC_EN,
   F.TIER_FLASH_CTRL.FREE_LOW,
   F.TIER_FLASH_CTRL.FREE_HIGH,
   F.TIER_FLASH_CTRL.GC_RETRY,
   F.TIER_FLASH_GC_RATE.GBPS,
   F.TIER_FLASH_JOURNAL.CKPT_MIB,
   F.TIER_FLASH_JOURNAL.DIRTY_FRAC,
   F.TIER_FLASH_CACHE.CACHE_MIB,
   F.TIER_FLASH_STATUS.RECOVERING,
   F.TIER_FLASH_STATUS.CKPT_ACTIVE,
   F.TIER_FLASH_TRAY.FREE_ZONES,
   F.TIER_FLASH_TRAY.RETIRED_ZONES,
   F.TIER_FLASH_TRAY.LOW_SPACE,
   F.TIER_FLASH_TRAY.EVACUATING,
   F.TIER_FLASH_TRAY.JOURNAL_UNMIRRORED,
   F.HITCH_CTRL.HITCH_EN]

/-- Fields of the Felt blocks, part 1. -/
def feltFields1 : List Fld :=
  [F.HITCH_CTRL.NO_E,
   F.HITCH_CTRL.LOST_INT_EN,
   F.HITCH_TIMING.SNOOP_TIMEOUT_US,
   F.HITCH_TIMING.HB_PERIOD_US,
   F.HITCH_TIMING.HB_MISS,
   F.HITCH_STATUS.AGENT_LOST,
   F.HITCH_AGENT.VALID,
   F.HITCH_AGENT.KIND,
   F.HITCH_AGENT.PARTITION,
   F.HITCH_AGENT.DIE,
   F.HITCH_AGENT.PORT,
   F.HITCH_AGENT.STATE,
   F.HITCH_WAYMASK.WAYS,
   F.HITCH_TXN_MIN.MIN,
   F.HITCH_POISON_ADDR.LINE,
   F.HITCH_POISON_CTRL.GO,
   F.HITCH_POISON_CTRL.DONE,
   F.HITCH_POISON_CTRL.MODE,
   F.HITCH_POISON_CTRL.WAS_POISONED,
   F.FULL_CTRL.FULL_EN,
   F.FULL_CTRL.FADD_COMB,
   F.FULL_CTRL.MAX_FANOUT,
   F.FULL_HOLD.ATOM_HOLD_NS,
   F.FULL_HOLD.FWD_HOLD_NS,
   F.FULL_QUOTA.MAX_ENTRIES,
   F.FELT_COLL_RESERVE.CELLS,
   F.FELT_COLL_FREE.CELLS_FREE,
   F.FELT_COLL_EXACT_FREE.GRAN_FREE,
   F.FELT_SHADOW_CFG.SVC_N,
   F.FELT_SHADOW_CFG.RED_N,
   F.FELT_COLL_CAP.CELLS,
   F.FELT_COLL_CAP.EXACT_GRAN,
   F.FELT_XSVC_QUOTA.MAX_ITEMS,
   F.FELT_COLL.VALID,
   F.FELT_COLL.PARTITION,
   F.FELT_COLL.KIND,
   F.FELT_COLL.MODE,
   F.FELT_COLL.FMT,
   F.FELT_COLL.RES_FMT,
   F.FELT_COLL.NRANKS_M1]

/-- Fields of the Felt blocks, part 2. -/
def feltFields2 : List Fld :=
  [F.FELT_COLL.DELIVER,
   F.FELT_COLL.GRANULES,
   F.FELT_COLL.SHARD_GRAN,
   F.FELT_COLL.ROOT,
   F.FELT_COLL.WINDOW_CELLS,
   F.FELT_COLL.DONE_KNOT,
   F.FELT_COLL.DONE_EN,
   F.FELT_COLL.TIMEOUT_US,
   F.FELT_COLL.HOLD_US,
   F.FELT_COLL.RESULT_ADDR_LO,
   F.FELT_COLL.RESULT_ADDR_HI,
   F.FELT_COLL_STATUS.STATE,
   F.FELT_COLL_STATUS.CUR_GEN,
   F.KNOT_WINDOW.WIN_EN,
   F.KNOT_WINDOW.BASE,
   F.KNOT_SLICE.BASE,
   F.KNOT_SLICE.COUNT,
   F.KNOT_LAUNCH.MAX_QUEUED,
   F.KNOT.VALID,
   F.KNOT.TYPE,
   F.KNOT.STAGE,
   F.KNOT.HOME_INDEX,
   F.KNOT.OWNER_CTX_EN,
   F.KNOT.OWNER_CTX,
   F.KNOT.TRIG_EN,
   F.KNOT.TARGET,
   F.KNOT.TRIG_PROG,
   F.KNOT.MEMBER_MASK,
   F.KNOT.INIT,
   F.KNOT.STATE,
   F.KNOT.READY,
   F.KNOT.FAIL_STATUS,
   F.KNOT.REARM,
   F.KNOT.CLR_FAIL,
   F.KNOT.ARRIVED,
   F.KNOT.GEN,
   F.KNOT.VALUE,
   F.CLEAT_CFG.SYS_MIN,
   F.CLEAT_STATUS.USED,
   F.CLEAT_STATUS.SHIFTING]

/-- Fields of the Felt blocks, part 3. -/
def feltFields3 : List Fld :=
  [F.CLEAT_LEND.TAG_BASE,
   F.CLEAT_LEND.TAG_COUNT,
   F.CLEAT_LEND.MAX_ENTRIES,
   F.TM_CTRL.TM_EN,
   F.TM_CTRL.CUT_THROUGH,
   F.TM_BUF_SIZE.CELLS,
   F.TM_BUF_FREE.CELLS,
   F.FELT_D2D_SHARE.MEM_WEIGHT,
   F.FELT_D2D_SHARE.CELL_WEIGHT,
   F.TM_PART.SHARED_MAX,
   F.TM_PART_USED.SHARED_USED,
   F.TM_Q.VALID,
   F.TM_Q.PARTITION,
   F.TM_Q.PORT,
   F.TM_Q.STRICT,
   F.TM_Q.ALPHA,
   F.TM_Q.ECN_EN,
   F.TM_Q.MIN_CELLS,
   F.TM_Q.WEIGHT,
   F.TM_Q.BURST_KIB,
   F.TM_Q.ECN_KMIN,
   F.TM_Q.ECN_KMAX,
   F.TM_Q.CIR,
   F.TM_Q.ECN_PMAX,
   F.TM_Q.PIR,
   F.TM_Q.CBS_KIB,
   F.TM_Q.PBS_KIB,
   F.TM_Q_STAT.DEPTH,
   F.TM_Q_STAT.ACTIVE,
   F.TM_Q_STAT.FLUSHING,
   F.TM_Q_STAT.SHARED_USED,
   F.TM_Q_STAT.DROP_PKTS,
   F.TM_MCG.VALID,
   F.TM_MCG.PARTITION,
   F.TM_MCG.FIRST,
   F.TM_MCG.COUNT,
   F.TM_MCM.QUEUE,
   F.TM_PORT.RATE,
   F.TM_PORT.RESP_WEIGHT,
   F.TM_PORT.RESP_PIR]

/-- Fields of the Felt blocks, part 4. -/
def feltFields4 : List Fld :=
  [F.TM_PORT.UP,
   F.TM_PORT.FLUSHING,
   F.TM_PORT.FENCED,
   F.FELT_HBM_TRAIN.PERIOD_MS,
   F.FELT_HBM_TRAIN.MARGIN_MIN,
   F.FELT_COMMIT.GO,
   F.FELT_COMMIT.DONE,
   F.FELT_COMMIT.DISCARD,
   F.FELT_COMMIT.RESULT,
   F.FELT_COMMIT.SEQ,
   F.HITCH_COMMIT.GO,
   F.HITCH_COMMIT.DONE,
   F.HITCH_COMMIT.DISCARD,
   F.HITCH_COMMIT.RESULT,
   F.HITCH_COMMIT.SEQ,
   F.FULL_COMMIT.GO,
   F.FULL_COMMIT.DONE,
   F.FULL_COMMIT.DISCARD,
   F.FULL_COMMIT.RESULT,
   F.FULL_COMMIT.SEQ,
   F.TIER_COMMIT.GO,
   F.TIER_COMMIT.DONE,
   F.TIER_COMMIT.DISCARD,
   F.TIER_COMMIT.RESULT,
   F.TIER_COMMIT.SEQ,
   F.FELT_COLL_COMMIT.GO,
   F.FELT_COLL_COMMIT.DONE,
   F.FELT_COLL_COMMIT.DISCARD,
   F.FELT_COLL_COMMIT.RESULT,
   F.FELT_COLL_COMMIT.SEQ,
   F.KNOT_COMMIT.GO,
   F.KNOT_COMMIT.DONE,
   F.KNOT_COMMIT.DISCARD,
   F.KNOT_COMMIT.RESULT,
   F.KNOT_COMMIT.SEQ,
   F.CLEAT_COMMIT.GO,
   F.CLEAT_COMMIT.DONE,
   F.CLEAT_COMMIT.DISCARD,
   F.CLEAT_COMMIT.RESULT,
   F.CLEAT_COMMIT.SEQ]

/-- Fields of the Felt blocks, part 5. -/
def feltFields5 : List Fld :=
  [F.TM_COMMIT.GO,
   F.TM_COMMIT.DONE,
   F.TM_COMMIT.DISCARD,
   F.TM_COMMIT.RESULT,
   F.TM_COMMIT.SEQ,
   F.FELT_CNT_CLR.CLEAR,
   F.HITCH_CNT_CLR.CLEAR,
   F.FULL_CNT_CLR.CLEAR,
   F.TIER_CNT_CLR.CLEAR,
   F.FELT_COLL_CNT_CLR.CLEAR,
   F.KNOT_CNT_CLR.CLEAR,
   F.CLEAT_CNT_CLR.CLEAR,
   F.TM_CNT_CLR.CLEAR,
   F.TIER_MBOX.CMD,
   F.TIER_MBOX.RSP,
   F.CLEAT_UPD.LO,
   F.CLEAT_UPD.HI,
   F.CLEAT_UPD.RES,
   F.CLEAT_UPD.TAG,
   F.CLEAT_UPD.OP,
   F.CLEAT_UPD.GO,
   F.CLEAT_UPD.DONE,
   F.CLEAT_UPD.RESULT,
   F.TIER_PROMOTE_COUNT.COUNT,
   F.TIER_DEMOTE_COUNT.COUNT,
   F.TIER_MIGRATE_ABORT_COUNT.COUNT,
   F.TIER_REBUILD_COUNT.COUNT,
   F.TIER_UNCORR_COUNT.COUNT,
   F.TIER_LATE_COUNT.COUNT,
   F.TIER_MBOX_IGNORED_COUNT.COUNT,
   F.TIER_FLASH_GC_COUNT.COUNT,
   F.TIER_FLASH_GC_ABANDON_COUNT.COUNT,
   F.TIER_FLASH_RETIRE_COUNT.COUNT,
   F.TIER_FLASH_MAP_MISS_COUNT.COUNT,
   F.HITCH_EVICT_COUNT.COUNT,
   F.HITCH_SNOOP_TIMEOUT_COUNT.COUNT,
   F.HITCH_POISON_COUNT.COUNT,
   F.FULL_MERGED_COUNT.COUNT,
   F.FULL_NOENTRY_COUNT.COUNT,
   F.FELT_COLL_BUSY_COUNT.COUNT]

/-- Fields of the Felt blocks, part 6. -/
def feltFields6 : List Fld :=
  [F.FELT_COLL_ABORT_COUNT.COUNT,
   F.FELT_COLL_DUP_COUNT.COUNT,
   F.FELT_SHADOW_MISMATCH_COUNT.COUNT,
   F.FELT_XSVC_BUSY_COUNT.COUNT,
   F.KNOT_LATE_COUNT.COUNT,
   F.KNOT_FAIL_COUNT.COUNT,
   F.KNOT_BROKEN_COUNT.COUNT,
   F.KNOT_LAUNCH_BUSY_COUNT.COUNT,
   F.KNOT_SAT_COUNT.COUNT,
   F.CLEAT_VERIFY_FAIL_COUNT.COUNT,
   F.CLEAT_UNCORR_COUNT.COUNT,
   F.CLEAT_UPD_REFUSED_COUNT.COUNT,
   F.CLEAT_UPD_IGNORED_COUNT.COUNT,
   F.TM_ADMIT_DROP_COUNT.COUNT,
   F.TM_NOQUEUE_DROP_COUNT.COUNT,
   F.TM_STOMP_COUNT.COUNT,
   F.TM_ECC_UNCORR_COUNT.COUNT]

/-- Every field of the Felt blocks. -/
def feltFields : List Fld := feltFields0 ++ feltFields1 ++ feltFields2 ++ feltFields3 ++ feltFields4 ++ feltFields5 ++ feltFields6

/-- Fields of the Brim dies, part 0. -/
def brimFields0 : List Fld :=
  [F.BRIM_BTP_CTRL.UDP_PORT,
   F.BRIM_BTP_CTRL.BTP_EN,
   F.BRIM_BTP_CTRL.ROCE_EN,
   F.BRIM_BTP_TIMER.RTO_INIT_US,
   F.BRIM_BTP_TIMER.RTO_MAX_US,
   F.BRIM_BTP_TIMER.RETRY_LIMIT,
   F.BRIM_BTP_REQ_TIMEOUT.TIMEOUT_US,
   F.BRIM_CHK_SET.POLY,
   F.BRIM_CHK_SET.INIT,
   F.BRIM_CHK_SET.XOROUT,
   F.BRIM_CHK_SET.WIDTH,
   F.BRIM_CHK_SET.REFIN,
   F.BRIM_CHK_SET.REFOUT,
   F.BRIM_CHK_SET.SCOPE,
   F.BRIM_CHK_SET.VALID,
   F.CODEC_CTRL.CODEC_EN,
   F.CODEC_STATUS.UNIT_BUSY,
   F.TM_CLASS.TC,
   F.TM_CLASS.COLOUR,
   F.TM_CLASS.POL_OFF,
   F.TM_CLASS.POL_EN,
   F.TM_INPORT.PROFILE,
   F.TM_INPORT.PARTITION,
   F.TM_INPORT.SHARED,
   F.TM_INPORT.POL_BASE,
   F.TM_VLAN.PARTITION,
   F.TM_VLAN.VALID,
   F.TM_POL.CIR,
   F.TM_POL.MODE,
   F.TM_POL.EN,
   F.TM_POL.YELLOW_ACT,
   F.TM_POL.RED_ACT,
   F.TM_POL.PIR,
   F.TM_POL.CBS_KIB,
   F.TM_POL.PBS_KIB,
   F.TM_POL.YELLOW_DSCP,
   F.TM_POL.GREEN_PKTS,
   F.TM_POL.YELLOW_PKTS,
   F.TM_POL.RED_PKTS,
   F.BRIM_OCTET.MODE]

/-- Fields of the Brim dies, part 1. -/
def brimFields1 : List Fld :=
  [F.BRIM_OCTET.ROLE,
   F.BRIM_OCTET.IDE_EN,
   F.BRIM_OCTET.LANE_REV,
   F.BRIM_OCTET.MAX_RATE,
   F.BRIM_LINK_CTRL.MARGIN_MIN,
   F.BRIM_LINK_CTRL.FENCE_HOLD_US,
   F.BRIM_PCIE_CTRL.MARGIN_PERIOD_MS,
   F.BRIM_PCIE_CTRL.RETRAIN_S,
   F.BRIM_MIRROR_CTRL.DOWN_US,
   F.BRIM_PORT.EN,
   F.BRIM_PORT.WIDTH,
   F.BRIM_PORT.AN_EN,
   F.BRIM_PORT.MACSEC_EN,
   F.BRIM_PORT.MAX_FRAME,
   F.BRIM_PORT.REEQ_SYM_K,
   F.BRIM_PORT.REEQ_WINDOWS,
   F.BRIM_PORT.REEQ_MAX_US,
   F.BRIM_PORT.REPLAY_WINDOW,
   F.BRIM_PORT.LINK_STATE,
   F.BRIM_PORT.DEGRADED,
   F.BRIM_PORT.LANES,
   F.BRIM_PORT.RATE,
   F.BRIM_PORT.MIN_MARGIN,
   F.BRIM_LANE.TX_INV,
   F.BRIM_LANE.RX_INV,
   F.BRIM_LANE.MARGIN,
   F.BRIM_LANE.CDR_LOCK,
   F.BRIM_COMMIT.GO,
   F.BRIM_COMMIT.DONE,
   F.BRIM_COMMIT.DISCARD,
   F.BRIM_COMMIT.RESULT,
   F.BRIM_COMMIT.SEQ,
   F.BRIM_CNT_CLR.CLEAR,
   F.BRIM_BTP_DROP_COUNT.COUNT,
   F.BRIM_BTP_CHK_FAIL_COUNT.COUNT,
   F.CODEC_DEC_BYTES.BYTES,
   F.CODEC_ENC_BYTES.BYTES,
   F.CODEC_OVERRUN_COUNT.COUNT,
   F.CODEC_UNDERRUN_COUNT.COUNT,
   F.PORT_FEC_CORR_COUNT.COUNT]

/-- Fields of the Brim dies, part 2. -/
def brimFields2 : List Fld :=
  [F.PORT_FEC_UNCORR_COUNT.COUNT,
   F.PORT_FCS_ERR_COUNT.COUNT,
   F.PORT_OVERSIZE_COUNT.COUNT,
   F.PORT_MACSEC_FAIL_COUNT.COUNT,
   F.PORT_PAUSE_DROP_COUNT.COUNT,
   F.PORT_LINK_DOWN_COUNT.COUNT,
   F.PORT_REEQ_COUNT.COUNT,
   F.BRIM_LANE_SYM_COUNT.COUNT]

/-- Every field of the Brim dies. -/
def brimFields : List Fld := brimFields0 ++ brimFields1 ++ brimFields2

/-- Fields of the compute dies, part 0. -/
def splFields0 : List Fld :=
  [F.SPL_DIE_STATUS.DUTY,
   F.SPL_ENG_AVAIL.AVAIL,
   F.SPL_CAP.VALUE,
   F.SPL_ENG_STATUS.TILES_USED,
   F.SPL_ENG_STATUS.CTX_BUSY,
   F.SPL_ENG_STATUS.SCRATCH_FREE,
   F.SPL_CTX_INFO.STATE,
   F.SPL_CTX_INFO.MODE,
   F.SPL_CTX_INFO.AUTO_REARM,
   F.SPL_CTX_INFO.SVC,
   F.SPL_CTX_INFO.PARTITION,
   F.SPL_CTX_INFO.ATILES,
   F.SPL_CTX_INFO.PROG_ID,
   F.SPL_CTX_INFO.LAST_STATUS,
   F.SPL_CTX_PC.PC,
   F.SPL_CTX_WIN.SCR_BASE,
   F.SPL_CTX_WIN.SCR_SIZE,
   F.SPL_CTX_WIN.CLU_BASE,
   F.SPL_CTX_WIN.CLU_SIZE,
   F.SPL_FAB_CTRL.TIMEOUT_US,
   F.SPL_FAB_CTRL.MAX_INFLIGHT,
   F.SPL_PART_ACCESS.CLEAT_TAG,
   F.SPL_PART_ACCESS.MEM,
   F.SPL_PART_ACCESS.TRIGGER,
   F.SPL_PART_ACCESS.BULK,
   F.SPL_PART_ACCESS.NEAR,
   F.SPL_PART_ACCESS.VALID,
   F.SPL_SHADOW_CFG.MMA_N,
   F.SPL_CNT_CLR.CLEAR,
   F.SPL_ECC_CORR_COUNT.COUNT,
   F.SPL_ECC_UNCORR_COUNT.COUNT,
   F.SPL_SHADOW_SKIP_COUNT.COUNT,
   F.SPL_SHADOW_MISMATCH_COUNT.COUNT]

/-- Every field of the compute dies. -/
def splFields : List Fld := splFields0

/-- Fields of the partition views, part 0. -/
def viewFields0 : List Fld :=
  [F.PART_SELF.STATE,
   F.PART_SELF.KEY_EPOCH,
   F.VIEW_KNOT_COMMIT.GO,
   F.VIEW_KNOT_COMMIT.DONE,
   F.VIEW_KNOT_COMMIT.DISCARD,
   F.VIEW_KNOT_COMMIT.RESULT,
   F.VIEW_KNOT_COMMIT.SEQ,
   F.VIEW_PROG.CMD,
   F.VIEW_PROG.RSP,
   F.VIEW_PROG.GO,
   F.VIEW_PROG.DONE,
   F.VIEW_PROG.RESULT,
   F.VIEW_CLEAT_UPD.LO,
   F.VIEW_CLEAT_UPD.HI,
   F.VIEW_CLEAT_UPD.RES,
   F.VIEW_CLEAT_UPD.TAG,
   F.VIEW_CLEAT_UPD.OP,
   F.VIEW_CLEAT_UPD.GO,
   F.VIEW_CLEAT_UPD.DONE,
   F.VIEW_CLEAT_UPD.RESULT,
   F.PART_LOG_NEXT.K,
   F.VIEW_COLL_STATUS.STATE,
   F.VIEW_COLL_STATUS.CUR_GEN]

/-- Every field of the partition views. -/
def viewFields : List Fld := viewFields0

/-- The fields among which an offset of the register space is decoded. -/
def fieldsNear (off : Nat) : List Fld :=
  if off < 0x1000000 then crownFields
  else if off < 0x2000000 then feltFields
  else if off < 0x4000000 then brimFields
  else if off < 0x10000000 then splFields
  else viewFields


end Sys2Proof.Machine
end

