-- ==== Sys2Proof/Machine/State.lean ====
section
/-! DEFINITION. The state of one FQS-9025 switch: everything the spec names, in groups by unit, and the queue of waiting commands.
`State.reset` is the switch after power-on reset. -/
namespace Sys2Proof.Machine
open Sys2Proof

/-- Why a command would stop the block with a fault. Rule R5 leaves no behaviour undefined, so no meaning raises one and the type is
empty. -/
inductive Fault where
  deriving DecidableEq, Repr

/-- Why a command has no meaning. -/
inductive Refusal where
  /-- Raised by `exec` for a row of the table that has no meaning yet (safe: the model stops). -/
  | notModelled (mnemonic : String)
  deriving DecidableEq, Repr

/-- The register file (R14 to R20): values in effect and staged values that differ from the reset value, the value in effect, by field
key; and the read latch and write hold of each split 64-bit register, by access path and offset. -/
structure RegFile where
  eff : SMap Nat := []
  stg : SMap Nat := []
  latch : SMap Nat := []
  hold : SMap Nat := []
  deriving DecidableEq, Repr

/-- A shadow time counter: its value, how long it still holds it, its fraction of a nanosecond and the phase of its local clock, both in 1/120 ns (R37, R38). -/
structure Shadow where
  val : Nat := 0
  hold : Nat := 0
  frac : Nat := 0
  phase : Nat := 0
  deriving DecidableEq, Repr

/-- The time base of the Crown die (R37, R549 to R552): the counter, the shadows of compute dies 0 to 7, Brim dies 0 to 7, the Felt and
the host die, the trim state, and the last accepted edge. -/
structure TimeSt where
  now : Nat := 0
  shadows : List Shadow := List.replicate 18 {}
  fi : Int := 0
  f : Int := 0
  inLock : Nat := 0
  edge : Option Nat := none
  aligned : Bool := false
  deriving DecidableEq, Repr

/-- Pins and straps (R541 to R545, R553). -/
structure Pins where
  pwrgdAux : Bool := true
  pwrgdMain : Bool := true
  modResetN : Bool := true
  hostPerstN : Bool := true
  bootSel : Bool := false
  testMode : Bool := false
  slotId : Nat := 0
  pcycReqN : Bool := true
  thermtripN : Bool := true
  ppsOut : Bool := false
  deriving DecidableEq, Repr

/-- The governor's window and the thermal marks (R546, R547): sum of the power readings in mW, sums of the rail readings, readings
taken, and the dies above their warning and throttle limits (bit d as in PWR_TEMP_d). -/
structure PowerSt where
  sum : Nat := 0
  rails : List Nat := []
  n : Nat := 0
  warm : Nat := 0
  hot : Nat := 0
  deriving DecidableEq, Repr

/-- Die-to-die links (R32, R33): failed replays in a row by link index, and links that retrain. -/
structure D2d where
  fails : SMap Nat := []
  retraining : List Nat := []
  deriving DecidableEq, Repr

/-- The Logline (R490 to R497), samples (R502 to R504) and watchdog history (R500). `wire` holds records on their way to the Crown die,
oldest first; the rings hold their records newest first; `toExport` the records that still go out, oldest first. -/
structure LogSt where
  wire : List LogRec := []
  seq : Nat := 1
  crown : List LogRec := []
  hbm : List LogRec := []
  part : SMap (List LogRec) := []
  partNext : SMap Nat := []
  nums : SMap Nat := []
  limits : SMap Limit := []
  toExport : List LogRec := []
  store : List Sample := []
  ovf : List Sample := []
  nextSample : Nat := 0
  ctxResets : SMap (List Nat) := []
  engResets : SMap (List Nat) := []
  deriving DecidableEq, Repr

/-- The Cleat (ch. 11): the stored entries sorted by tag and LO, the updates that wait for the copies, the forwarding replica of the
Brim dies and the cluster caches. -/
structure CleatSt where
  ents : List CleatEnt := []
  upds : List CleatUpd := []
  fwd : List CleatEnt := []
  caches : SMap (List CleatEnt) := []
  deriving DecidableEq, Repr

/-- The pool (ch. 03): extents by EXT_ID, page descriptors by page number (fabric address / 2 MiB), memory bytes by fabric address,
poisoned lines (R181), migrations by page, prefetch descriptors, trays, stripe sets, route entries by base, recorded parity rows (R121) as (set, row), the
count by which pages are ordered by last use (R126), pages chosen for promotion, whether demotion runs (R126), flash trays by TRAY, the map pages cached (most
recently used first) and dirty, as (tray, map page) (R141), and the mailbox slots whose commands wait behind an EXT_ADD, in the order of their GO writes (R112). -/
structure Pool where
  exts : SMap Ext := []
  pages : SMap Page := []
  mem : SMap Byte := []
  poison : SMap Bool := []
  migs : SMap (Option Migr) := []
  prefetch : List Prefetch := []
  trays : SMap (Option Tray) := []
  sets : SMap (Option SSet) := []
  routes : SMap (Option Route) := []
  rows : List (Nat × Nat) := []
  uses : Nat := 0
  chosen : List Nat := []
  demoting : Bool := false
  flash : SMap Flash := []
  mapCache : List (Nat × Nat) := []
  mapDirty : List (Nat × Nat) := []
  waits : List Nat := []
  deriving DecidableEq, Repr

/-- The BTP transport engines (ch. 02): connections, admitted requests by number, requests the switch has sent, gateway gatherings,
whether the previous route map is usable and its route entries (R81), the peers known to be switches of the stage (PEER_ADDR to SWITCH_INDEX + 1), and the response
queue of each port, oldest packet first (R29). -/
structure Btp where
  conns : SMap Conn := []
  reqs : SMap (Option Req) := []
  outs : SMap (Option OutReq) := []
  gathers : List Gather := []
  prevMap : Bool := false
  prevRoutes : List CleatEnt := []
  respQs : SMap (List Msg) := []
  peers : SMap Nat := []
  qps : SMap Qp := []
  deriving DecidableEq, Repr

/-- The Hitch and the Fuller (ch. 05): directory entries by line, open transactions by line, missed probes by agent, agents whose
VALID commit is held (R182), combine entries by number, lines whose agent request waits for a way of its set (R175), and agent requests that wait for a place
among the open transactions (R172), both in order of arrival. -/
structure HitchSt where
  dir : SMap (Option DirEnt) := []
  txns : SMap (Option Txn) := []
  probes : SMap Nat := []
  heldValid : List Nat := []
  combs : SMap (Option Comb) := []
  stalls : List Nat := []
  ingress : List (Nat × TxnKind) := []
  deriving DecidableEq, Repr

/-- The knot array (ch. 10): knots by number, signals of hardware completions on their way to it, queued launches in the order accepted. -/
structure KnotSt where
  kn : SMap Knot := []
  sigs : SMap (Option KSig) := []
  launches : List Launch := []
  deriving DecidableEq, Repr

/-- Collectives and services (ch. 09): groups by COLL_ID, work items by number, and the count of work items by which one in SVC_N is shadowed. -/
structure FabSt where
  colls : SMap Coll := []
  items : SMap (Option Item) := []
  count : Nat := 0
  deriving DecidableEq, Repr

/-- Engines, clusters and programs (ch. 06): contexts by CTX_ID, programs by PROG_ID, engine scratch (key engine * 2^21 + byte) and
cluster memory (key cluster * 2^23 + byte), code regions (key cluster * 8192 + program; the switch's own kernels are programs 4096 to 4098), issue credits of the matrix array and the vector pipe by
engine, asynchronous operations by number, the order count of parking and issue, how each engine stands (0 runs, 1 in reset, 2 offline: R500), and the
compatibility service mode by partition (R217). -/
structure EngSt where
  ctxs : SMap Ctx := []
  progs : SMap (Option Prg) := []
  scratch : SMap Byte := []
  clu : SMap Byte := []
  code : SMap (Option Region) := []
  mcred : SMap Nat := []
  vcred : SMap Nat := []
  ops : SMap (Option AOp) := []
  order : Nat := 0
  mmaCount : SMap Nat := []
  engs : SMap Nat := []
  svc : SMap Svc := []
  deriving DecidableEq, Repr

/-- The traffic manager (ch. 13): queues, port schedulers, policers by die * 2048 + index, frames in the buffer by number, and the shared cells in use (B - F). -/
structure TmSt where
  qs : SMap TmQ := []
  ports : SMap TmPort := []
  pols : SMap Pol := []
  frms : SMap (Option Frm) := []
  used : Nat := 0
  deriving DecidableEq, Repr

/-- The state of the switch. `sent` holds the messages the switch has sent, newest first; `nextId` numbers requests, operations,
entries and frames; `free` counts the free values drawn; `pending` is the queue of waiting commands. -/
structure State where
  regs : RegFile := {}
  time : TimeSt := {}
  pins : Pins := {}
  power : PowerSt := {}
  d2d : D2d := {}
  log : LogSt := {}
  cleat : CleatSt := {}
  pool : Pool := {}
  btp : Btp := {}
  hitch : HitchSt := {}
  knots : KnotSt := {}
  eng : EngSt := {}
  fab : FabSt := {}
  tm : TmSt := {}
  ports : SMap PortSt := []
  mir : Mir := {}
  boot : Boot := {}
  sent : List Msg := []
  nextId : Nat := 0
  free : Nat := 0
  pending : List Instr := []
  deriving DecidableEq, Repr

/-- The switch after power-on reset, before boot (R20, R536, R537): every register at the reset value of its table, every table, queue and memory empty, the fuses as those of a part in life-cycle
state PRODUCTION, every input pin at its level with power good, and no command waiting.
[Marks: DESIGN CHOICE, log entry 4.] -/
def State.reset : State := {}

end Sys2Proof.Machine
end

