-- ==== Sys2Proof/Machine/Eff.lean ====
section
/-! DEFINITION. The primitive updates of the state and the small language in which every command's effect is written: a program reads
the state, and does primitive updates one after another. What a step can do to a piece of state is thereby said once, in `Eff.apply`. -/
namespace Sys2Proof.Machine
open Sys2Proof

/-- The primitive updates: one entry of one table, one byte of one memory, or one small record. -/
inductive Eff where
  | reg (f : Fld) (ix : List Nat) (v : Nat)
  | stage (f : Fld) (ix : List Nat) (v : Nat)
  | unstage (lo hi : Nat)
  | regReset
  | latch (k : Nat) (v : Option Nat)
  | hold (k : Nat) (v : Option Nat)
  | time (t : TimeSt)
  | pins (p : Pins)
  | power (p : PowerSt)
  | d2d (d : D2d)
  | wire (l : List LogRec)
  | logPush (r : LogRec) (hbmUp : Bool)
  | logPart (p : Nat) (r : LogRec)
  | logPartClear (p : Nat)
  | logRings (crown hbm : List LogRec)
  | num (src n : Nat)
  | limit (k : Nat) (l : Limit)
  | toExport (l : List LogRec)
  | samples (store ovf : List Sample) (next : Nat)
  | ctxResets (e : Nat) (ts : List Nat)
  | engResets (e : Nat) (ts : List Nat)
  | cleatEnts (l : List CleatEnt)
  | cleatUpds (l : List CleatUpd)
  | cleatFwd (l : List CleatEnt)
  | cleatCache (cl : Nat) (l : List CleatEnt)
  | ext (e : Nat) (x : Ext)
  | page (p : Nat) (x : Page)
  | mem (a : Nat) (b : Byte)
  | poison (line : Nat) (b : Bool)
  | mig (p : Nat) (m : Option Migr)
  | prefetch (l : List Prefetch)
  | tray (t : Nat) (x : Option Tray)
  | sset (t : Nat) (x : Option SSet)
  | route (b : Nat) (x : Option Route)
  | rows (l : List (Nat × Nat))
  | uses (n : Nat)
  | chosen (l : List Nat)
  | demoting (b : Bool)
  | flash (t : Nat) (x : Flash)
  | mapPages (cache dirty : List (Nat × Nat))
  | mboxWait (l : List Nat)
  | conn (c : Nat) (x : Conn)
  | req (r : Nat) (x : Option Req)
  | out (t : Nat) (x : Option OutReq)
  | gathers (l : List Gather)
  | prevMap (b : Bool)
  | prevRoutes (l : List CleatEnt)
  | respQ (p : Nat) (l : List Msg)
  | qp (q : Nat) (x : Qp)
  | peer (a n : Nat)
  | dir (line : Nat) (x : Option DirEnt)
  | txn (line : Nat) (x : Option Txn)
  | probe (n k : Nat)
  | heldValid (l : List Nat)
  | comb (e : Nat) (x : Option Comb)
  | stalls (xs : List Nat)
  | ingress (xs : List (Nat × TxnKind))
  | knot (n : Nat) (x : Knot)
  | sig (i : Nat) (x : Option KSig)
  | launches (l : List Launch)
  | coll (n : Nat) (x : Coll)
  | item (i : Nat) (x : Option Item)
  | itemCount (n : Nat)
  | ctx (c : Nat) (x : Ctx)
  | prg (p : Nat) (x : Option Prg)
  | scr (a : Nat) (b : Byte)
  | clu (a : Nat) (b : Byte)
  | memR (a : Nat) (bs : List Byte)
  | scrR (a : Nat) (bs : List Byte)
  | cluR (a : Nat) (bs : List Byte)
  | memZero (lo hi : Nat)
  | scrZero (lo hi : Nat)
  | cluZero (lo hi : Nat)
  | code (k : Nat) (x : Option Region)
  | engSt (e n : Nat)
  | svc (p : Nat) (x : Svc)
  | mcred (e n : Nat)
  | vcred (e n : Nat)
  | mmaCount (e n : Nat)
  | op (o : Nat) (x : Option AOp)
  | tmq (q : Nat) (x : TmQ)
  | tmPort (p : Nat) (x : TmPort)
  | pol (i : Nat) (x : Pol)
  | frm (f : Nat) (x : Option Frm)
  | tmUsed (n : Nat)
  | port (p : Nat) (x : PortSt)
  | mir (m : Mir)
  | boot (b : Boot)
  | domain (d : Domain)
  | dropUnits
  | logReset
  | order (n : Nat)
  | send (m : Msg)
  | nextId
  | drawFree

/-- The map without the entries whose keys lie from lo to hi - 1. -/
def SMap.eraRange {α : Type} (m : SMap α) (lo hi : Nat) : SMap α :=
  m.filter (fun e => decide (e.1 < lo) || decide (hi ≤ e.1))

/-- The capacity of the Crown ring (R495). -/
def crownCap : Nat := 16384

/-- The capacity of the HBM ring (R495). -/
def hbmCap : Nat := 1048576

/-- The capacity of a partition view's ring (R497). -/
def partCap : Nat := 1024

/-- A record enters the Crown ring; the one that leaves it has been copied to the HBM ring, where HBM is up (R495). -/
def LogSt.push (l : LogSt) (r : LogRec) (hbmUp : Bool) : LogSt :=
  { l with
    seq := l.seq + 1
    crown := (r :: l.crown).take crownCap
    hbm := if hbmUp then ((r :: l.crown).drop crownCap ++ l.hbm).take hbmCap else l.hbm }

/-- A record enters the ring of a partition view (R497). -/
def LogSt.pushPart (l : LogSt) (p : Nat) (r : LogRec) : LogSt :=
  { l with
    part := SMap.set [] l.part p ((r :: SMap.get [] l.part p).take partCap)
    partNext := SMap.set 0 l.partNext p (SMap.get 0 l.partNext p + 1) }

/-- A value is staged for a field (R16): the staged copy is listed where it differs from the value in effect; OWNER fields of a knot are listed in any case, since
committing them again acts (R360). -/
def RegFile.stage (r : RegFile) (f : Fld) (ix : List Nat) (v : Nat) : RegFile :=
  if v = SMap.get f.rst r.eff (f.key ix) ∧ f ≠ F.KNOT.OWNER_CTX_EN ∧ f ≠ F.KNOT.OWNER_CTX then { r with stg := SMap.era r.stg (f.key ix) }
  else { r with stg := SMap.ins r.stg (f.key ix) v }

/-- The state with the tables of a domain in place of its own (R512), in canonical form. -/
def State.setDomain (s : State) (d : Domain) : State :=
  { s with
    hitch := { s.hitch with dir := SMap.norm none d.dir }
    knots := { s.knots with kn := SMap.norm {} d.knots }
    cleat := { s.cleat with ents := d.cleat }
    pool := { s.pool with
      exts := SMap.norm {} d.exts, pages := SMap.norm {} d.pages, routes := SMap.norm none d.routes, trays := SMap.norm none d.trays
      sets := SMap.norm none d.sets, rows := d.rows, flash := SMap.norm {} d.flash } }

/-- The state of every unit but the always-on part of the Crown die, the host die, the tables of the domain and memory content lost (R505 step 6, R537). -/
def State.dropUnits (s : State) : State :=
  { s with
    power := {}
    d2d := {}
    cleat := { s.cleat with upds := [], fwd := [], caches := [] }
    pool := { s.pool with migs := [], prefetch := [], chosen := [], demoting := false, mapCache := [], mapDirty := [], waits := [] }
    btp := {}
    hitch := { s.hitch with txns := [], probes := [], heldValid := [], combs := [], stalls := [], ingress := [] }
    knots := { s.knots with sigs := [], launches := [] }
    eng := {}
    fab := {}
    tm := {}
    ports := []
    log := { s.log with ctxResets := [], engResets := [] } }

/-- What each primitive update does. -/
def Eff.apply (e : Eff) (s : State) : State :=
  match e with
  | .reg f ix v => { s with regs := { s.regs with eff := SMap.set f.rst s.regs.eff (f.key ix) (v % 2 ^ f.w) } }
  | .stage f ix v => { s with regs := s.regs.stage f ix (v % 2 ^ f.w) }
  | .unstage lo hi => { s with regs := { s.regs with stg := SMap.eraRange s.regs.stg lo hi } }
  | .regReset => { s with regs := {} }
  | .latch k v => { s with regs := { s.regs with latch :=
      match v with | none => SMap.era s.regs.latch k | some x => SMap.ins s.regs.latch k x } }
  | .hold k v => { s with regs := { s.regs with hold :=
      match v with | none => SMap.era s.regs.hold k | some x => SMap.ins s.regs.hold k x } }
  | .time t => { s with time := t }
  | .pins p => { s with pins := p }
  | .power p => { s with power := p }
  | .d2d d => { s with d2d := d }
  | .wire l => { s with log := { s.log with wire := l } }
  | .logPush r up => { s with log := s.log.push r up }
  | .logPart p r => { s with log := s.log.pushPart p r }
  | .logPartClear p => { s with log := { s.log with
      part := SMap.set [] s.log.part p [], partNext := SMap.set 0 s.log.partNext p 0 } }
  | .logRings c h => { s with log := { s.log with crown := c.take crownCap, hbm := h.take hbmCap } }
  | .num src n => { s with log := { s.log with nums := SMap.set 0 s.log.nums src n } }
  | .limit k l => { s with log := { s.log with limits := SMap.set {} s.log.limits k l } }
  | .toExport l => { s with log := { s.log with toExport := l } }
  | .samples st ov n => { s with log := { s.log with store := st.take 256, ovf := ov.take 1024, nextSample := n % 65536 } }
  | .ctxResets e ts => { s with log := { s.log with ctxResets := SMap.set [] s.log.ctxResets e ts } }
  | .engResets e ts => { s with log := { s.log with engResets := SMap.set [] s.log.engResets e ts } }
  | .cleatEnts l => { s with cleat := { s.cleat with ents := l } }
  | .cleatUpds l => { s with cleat := { s.cleat with upds := l } }
  | .cleatFwd l => { s with cleat := { s.cleat with fwd := l } }
  | .cleatCache c l => { s with cleat := { s.cleat with caches := SMap.set [] s.cleat.caches c l } }
  | .ext e x => { s with pool := { s.pool with exts := SMap.set {} s.pool.exts e x } }
  | .page p x => { s with pool := { s.pool with pages := SMap.set {} s.pool.pages p x } }
  | .mem a b => { s with pool := { s.pool with mem := SMap.set 0 s.pool.mem a b } }
  | .poison l b => { s with pool := { s.pool with poison := SMap.set false s.pool.poison l b } }
  | .mig p m => { s with pool := { s.pool with migs := SMap.set none s.pool.migs p m } }
  | .prefetch l => { s with pool := { s.pool with prefetch := l } }
  | .tray t x => { s with pool := { s.pool with trays := SMap.set none s.pool.trays t x } }
  | .sset t x => { s with pool := { s.pool with sets := SMap.set none s.pool.sets t x } }
  | .route b x => { s with pool := { s.pool with routes := SMap.set none s.pool.routes b x } }
  | .rows l => { s with pool := { s.pool with rows := l } }
  | .uses n => { s with pool := { s.pool with uses := n } }
  | .chosen l => { s with pool := { s.pool with chosen := l } }
  | .demoting b => { s with pool := { s.pool with demoting := b } }
  | .flash t x => { s with pool := { s.pool with flash := SMap.set {} s.pool.flash t x } }
  | .mapPages c d => { s with pool := { s.pool with mapCache := c, mapDirty := d } }
  | .mboxWait l => { s with pool := { s.pool with waits := l } }
  | .conn c x => { s with btp := { s.btp with conns := SMap.set {} s.btp.conns c x } }
  | .req r x => { s with btp := { s.btp with reqs := SMap.set none s.btp.reqs r x } }
  | .out t x => { s with btp := { s.btp with outs := SMap.set none s.btp.outs t x } }
  | .gathers l => { s with btp := { s.btp with gathers := l } }
  | .prevMap b => { s with btp := { s.btp with prevMap := b } }
  | .prevRoutes l => { s with btp := { s.btp with prevRoutes := l } }
  | .respQ p l => { s with btp := { s.btp with respQs := SMap.set [] s.btp.respQs p l } }
  | .peer a n => { s with btp := { s.btp with peers := SMap.set 0 s.btp.peers a n } }
  | .qp q x => { s with btp := { s.btp with qps := SMap.set {} s.btp.qps q x } }
  | .dir l x => { s with hitch := { s.hitch with dir := SMap.set none s.hitch.dir l x } }
  | .txn l x => { s with hitch := { s.hitch with txns := SMap.set none s.hitch.txns l x } }
  | .probe n k => { s with hitch := { s.hitch with probes := SMap.set 0 s.hitch.probes n k } }
  | .heldValid l => { s with hitch := { s.hitch with heldValid := l } }
  | .comb e x => { s with hitch := { s.hitch with combs := SMap.set none s.hitch.combs e x } }
  | .stalls xs => { s with hitch := { s.hitch with stalls := xs } }
  | .ingress xs => { s with hitch := { s.hitch with ingress := xs } }
  | .knot n x => { s with knots := { s.knots with kn := SMap.set {} s.knots.kn n x } }
  | .sig i x => { s with knots := { s.knots with sigs := SMap.set none s.knots.sigs i x } }
  | .launches l => { s with knots := { s.knots with launches := l } }
  | .coll n x => { s with fab := { s.fab with colls := SMap.set {} s.fab.colls n x } }
  | .item i x => { s with fab := { s.fab with items := SMap.set none s.fab.items i x } }
  | .itemCount n => { s with fab := { s.fab with count := n } }
  | .ctx c x => { s with eng := { s.eng with ctxs := SMap.set {} s.eng.ctxs c x } }
  | .prg p x => { s with eng := { s.eng with progs := SMap.set none s.eng.progs p x } }
  | .scr a b => { s with eng := { s.eng with scratch := SMap.set 0 s.eng.scratch a b } }
  | .clu a b => { s with eng := { s.eng with clu := SMap.set 0 s.eng.clu a b } }
  | .memR a bs => { s with pool := { s.pool with mem := SMap.setRange 0 s.pool.mem a bs } }
  | .scrR a bs => { s with eng := { s.eng with scratch := SMap.setRange 0 s.eng.scratch a bs } }
  | .cluR a bs => { s with eng := { s.eng with clu := SMap.setRange 0 s.eng.clu a bs } }
  | .memZero lo hi => { s with pool := { s.pool with
      mem := SMap.eraRange s.pool.mem lo hi, poison := SMap.eraRange s.pool.poison (lo / 64) ((hi + 63) / 64) } }
  | .scrZero lo hi => { s with eng := { s.eng with scratch := SMap.eraRange s.eng.scratch lo hi } }
  | .cluZero lo hi => { s with eng := { s.eng with clu := SMap.eraRange s.eng.clu lo hi } }
  | .code k x => { s with eng := { s.eng with code := SMap.set none s.eng.code k x } }
  | .engSt e n => { s with eng := { s.eng with engs := SMap.set 0 s.eng.engs e n } }
  | .svc p x => { s with eng := { s.eng with svc := SMap.set {} s.eng.svc p x } }
  | .mcred e n => { s with eng := { s.eng with mcred := SMap.set 128 s.eng.mcred e n } }
  | .vcred e n => { s with eng := { s.eng with vcred := SMap.set 128 s.eng.vcred e n } }
  | .mmaCount e n => { s with eng := { s.eng with mmaCount := SMap.set 0 s.eng.mmaCount e n } }
  | .op o x => { s with eng := { s.eng with ops := SMap.set none s.eng.ops o x } }
  | .tmq q x => { s with tm := { s.tm with qs := SMap.set {} s.tm.qs q x } }
  | .tmPort p x => { s with tm := { s.tm with ports := SMap.set {} s.tm.ports p x } }
  | .pol i x => { s with tm := { s.tm with pols := SMap.set {} s.tm.pols i x } }
  | .frm f x => { s with tm := { s.tm with frms := SMap.set none s.tm.frms f x } }
  | .tmUsed n => { s with tm := { s.tm with used := n } }
  | .port p x => { s with ports := SMap.set {} s.ports p x }
  | .mir m => { s with mir := m }
  | .boot b => { s with boot := b }
  | .domain d => s.setDomain d
  | .dropUnits => s.dropUnits
  | .logReset => { s with log := {} }
  | .order n => { s with eng := { s.eng with order := n } }
  | .send m => { s with sent := m :: s.sent }
  | .nextId => { s with nextId := s.nextId + 1 }
  | .drawFree => { s with free := s.free + 1 }

/-- A program: nothing, a primitive update, one program after another, or a program chosen by the state. -/
inductive Prog where
  | skip
  | eff (e : Eff)
  | seq (p q : Prog)
  | get (f : State → Prog)

/-- The state a program leaves. -/
def Prog.run : Prog → State → State
  | .skip, s => s
  | .eff e, s => e.apply s
  | .seq p q, s => q.run (p.run s)
  | .get f, s => (f s).run s

/-- Programs one after another. -/
def Prog.all : List Prog → Prog
  | [] => .skip
  | [p] => p
  | p :: ps => .seq p (Prog.all ps)

/-- A program where a condition holds. -/
def Prog.when (c : Bool) (p : Prog) : Prog := if c then p else .skip

/-- A program for each element of a list, in order. -/
def Prog.each {α : Type} : List α → (α → Prog) → Prog
  | [], _ => .skip
  | x :: xs, f => .seq (f x) (Prog.each xs f)

/-- A program for the content of an Option. -/
def Prog.opt {α : Type} (o : Option α) (f : α → Prog) : Prog :=
  match o with
  | none => .skip
  | some x => f x

/-- A program that reads the state. -/
def rd (f : State → Prog) : Prog := .get f

/-- The outcome of a command: the state its program leaves.
[Marks: DESIGN CHOICE, log entry 9.] -/
def run (s : State) (p : Prog) : Host.Outcome State Fault Refusal := .next (p.run s)

end Sys2Proof.Machine
end

