-- ==== Sys2Proof/Machine/Ops.lean ====
section
/-! DEFINITION. Operations that every unit shares: reading and writing register fields, counters, interrupts, Logline records (R490, R491), the
fault pin (R540) and health scores (R518 to R520). -/
namespace Sys2Proof.Machine
open Sys2Proof

/-! ### Registers -/

/-- The value in effect of a register field (R16). -/
def State.r (s : State) (f : Fld) (ix : List Nat) : Nat := SMap.get f.rst s.regs.eff (f.key ix)

/-- A one-bit field read as a Bool. -/
def State.rb (s : State) (f : Fld) (ix : List Nat) : Bool := decide (s.r f ix = 1)

/-- The staged value of a field: the value in effect where none is staged (R16, R533). -/
def State.stg (s : State) (f : Fld) (ix : List Nat) : Nat :=
  match SMap.find s.regs.stg (f.key ix) with
  | some v => v
  | none => s.r f ix

/-- The indices at which a field is listed: those where its value in effect differs from its reset value. -/
def State.listedIx (s : State) (f : Fld) : List (List Nat) :=
  s.regs.eff.filterMap (fun e => if e.1 % 64 = f.lo then f.at? (e.1 / 64) else none)

/-- The same for a register of one index. -/
def State.listed (s : State) (f : Fld) : List Nat := (s.listedIx f).map (fun ix => ix.headD 0)

/-- A value put into effect in a field. -/
def wr (f : Fld) (ix : List Nat) (v : Nat) : Prog := .eff (.reg f ix v)

/-- A _COUNT counter counts n events and stops at its maximum (R21). -/
def count (f : Fld) (ix : List Nat) (n : Nat := 1) : Prog :=
  rd fun s => wr f ix (stopInc f.w (s.r f ix) n)

/-- A _BYTES or _PKTS counter adds n and wraps (R21). -/
def tally (f : Fld) (ix : List Nat) (n : Nat) : Prog :=
  rd fun s => wr f ix ((s.r f ix + n) % 2 ^ f.w)

/-- A message goes out.
[Marks: DESIGN CHOICE, log entry 3.] -/
def send (m : Msg) : Prog := .eff (.send m)

/-- The host port carries accesses and messages: the module is powered and out of power-on reset, HOST_PERST_N is high, neither link of the host die, 17 or 18, is lost, and no power-cycle request holds the die in reset (R33, R527,
R541, R544, R553). -/
def State.hostUp (s : State) : Bool := s.pins.pwrgdAux && s.pins.pwrgdMain && s.pins.modResetN && s.pins.hostPerstN && s.pins.pcycReqN && !s.rb F.CROWN_D2D_STATUS.LOST [17] && !s.rb F.CROWN_D2D_STATUS.LOST [18]

/-- An MSI-X vector of the host port is raised (R529).
[Marks: PRESUMED, log entry 14.] -/
def msix (v : Nat) : Prog := rd fun s => Prog.when s.hostUp (send (.msix v))

/-! ### Status codes (R62) -/

/-- OK. -/
def stOk : Nat := 0x00
/-- POISON. -/
def stPoison : Nat := 0x01
/-- EXTENT_REVOKED. -/
def stRevoked : Nat := 0x02
/-- PARTITION_FENCED. -/
def stFenced : Nat := 0x03
/-- DEVICE_RESET. -/
def stReset : Nat := 0x04
/-- TIER_UNCORRECTABLE. -/
def stUncorr : Nat := 0x05
/-- CMP_OVERRUN. -/
def stOverrun : Nat := 0x06
/-- CMP_UNDERRUN. -/
def stUnderrun : Nat := 0x07
/-- MAC_FAIL. -/
def stMacFail : Nat := 0x08
/-- ROUTE_EPOCH_STALE. -/
def stStale : Nat := 0x09
/-- TIMEOUT. -/
def stTimeout : Nat := 0x0A
/-- ACCESS_DENIED. -/
def stDenied : Nat := 0x0B
/-- STATE_LOST. -/
def stLost : Nat := 0x0C
/-- LATE. -/
def stLate : Nat := 0x0D
/-- KNOT_BROKEN. -/
def stBroken : Nat := 0x0E
/-- BUSY. -/
def stBusy : Nat := 0x0F

/-! ### Time and the Logline -/

/-- SOURCE numbers of R490. -/
def srcCrown : Nat := 0
/-- The hardware hang supervisor of the Crown die. -/
def srcHang : Nat := 1
/-- The host die. -/
def srcHost : Nat := 2
/-- The Felt. -/
def srcFelt : Nat := 0x10
/-- Brim die n. -/
def srcBrim (n : Nat) : Nat := 0x20 + n
/-- Compute die n. -/
def srcEng (n : Nat) : Nat := 0x40 + n

/-- The value of a shadow counter (R37). -/
def State.shadow (s : State) (i : Nat) : Nat := ((s.time.shadows[i]?).getD {}).val

/-- The time a unit stamps: the Crown counter, or the shadow of its die (R37, R490).
[Marks: DESIGN CHOICE, log entry 47.] -/
def State.timeOf (s : State) (src : Nat) : Nat :=
  if src ≤ 1 then s.time.now
  else if src = 2 then s.shadow 17
  else if src = 0x10 then s.shadow 16
  else if 0x40 ≤ src then s.shadow (src - 0x40)
  else s.shadow (8 + (src - 0x20))

/-- The causes that a chapter limits to a rate (R493). -/
def rateLimited (cause : Nat) : Bool :=
  [0x103, 0x120, 0x201, 0x605, 0x720, 0x753, 0x812].contains cause

/-- The RID that the next record of a source gets (R490). -/
def State.nextRid (s : State) (src : Nat) : Nat :=
  src * 2 ^ 56 + (SMap.get 0 s.log.nums src + 1) % 2 ^ 56

/-- A unit writes a record of an event (R490, R491): it is stamped on its die and sent to the Crown die. A record of a rate-limited cause is
numbered when it is written there (R494).
[Marks: DESIGN CHOICE, log entry 11; DESIGN CHOICE, log entry 12.] -/
def log (r : LogRec) : Prog := rd fun s =>
  if rateLimited r.cause then
    .eff (.wire (s.log.wire ++ [{ r with rid := 0, time := s.timeOf r.src }]))
  else
    .all [.eff (.num r.src (SMap.get 0 s.log.nums r.src + 1)),
      .eff (.wire (s.log.wire ++ [{ r with rid := s.nextRid r.src, time := s.timeOf r.src }]))]

/-- The STAGE_ID and SWITCH_INDEX of a switch as OBJ0 names it (R491). -/
def swName (stage index : Nat) : Nat := index % 16 * 4096 + stage % 4096

/-! ### Fault status and pins (R540, R541) -/

/-- CROWN_FAULT_STATUS as a word. -/
def State.faultWord (s : State) : Nat :=
  s.r F.CROWN_FAULT_STATUS.RESETTING [] + 2 * s.r F.CROWN_FAULT_STATUS.HOST_LINK [] +
  4 * s.r F.CROWN_FAULT_STATUS.CLOCK [] + 8 * s.r F.CROWN_FAULT_STATUS.THERMAL [] +
  16 * s.r F.CROWN_FAULT_STATUS.RECOVERY [] + 32 * s.r F.CROWN_FAULT_STATUS.PCYCLE []

/-- FAULT_N is low while any bit of CROWN_FAULT_STATUS is set (R540). -/
def State.faultN (s : State) : Bool := decide (s.faultWord = 0)

/-- Code of the PlatformEventMessage with the fault summary, and of the power-cycle event, among the PLDM messages sent. -/
def pldmFault : Nat := 1
/-- Code of the PLDM event of a power-cycle request (R541). -/
def pldmPcycle : Nat := 2

/-- A fault bit is set or cleared; a change drives FAULT_N and sends a PlatformEventMessage (R540). -/
def setFault (f : Fld) (b : Bool) : Prog := rd fun s =>
  Prog.when (decide (s.r f [] ≠ b2n b)) (.all [wr f [] (b2n b), rd fun t =>
    .all [send (.pin 0 t.faultN), send (.pldm pldmFault [t.faultWord])]])

/-- The switch requests a power cycle: PCYC_REQ_N low and a PLDM event, unless CROWN_WDT_CTRL.PWR_EN is 0 (R541, R525). -/
def powerCycle : Prog := rd fun s =>
  Prog.when (s.rb F.CROWN_WDT_CTRL.PWR_EN []) (.all [
    .eff (.pins { s.pins with pcycReqN := false }), send (.pin 1 false), send (.pldm pldmPcycle []),
    setFault F.CROWN_FAULT_STATUS.PCYCLE true])

/-! ### Ports (R463) -/

/-- A port. -/
def State.port (s : State) (p : Nat) : PortSt := SMap.get {} s.ports p

/-- LINK_STATE values (R463). -/
def lkDown : Nat := 0
/-- TRAINING. -/
def lkTraining : Nat := 1
/-- UP. -/
def lkUp : Nat := 2
/-- REEQ. -/
def lkReeq : Nat := 3
/-- FENCED. -/
def lkFenced : Nat := 4
/-- FAILED. -/
def lkFailed : Nat := 5
/-- RECOVERY. -/
def lkRecovery : Nat := 6

/-- LINK_STATE of a port. -/
def State.link (s : State) (p : Nat) : Nat := s.r F.BRIM_PORT.LINK_STATE [p / 64, p % 64]

/-- MODE of an octet. -/
def mdEth : Nat := 1
/-- PCIE. -/
def mdPcie : Nat := 2
/-- CXL. -/
def mdCxl : Nat := 3
/-- MIRROR. -/
def mdMirror : Nat := 4

/-- The octet of a port's MAC. -/
def octetOf (p : Nat) : Nat := p % 64 / 4

/-- MODE of the octet of a port. -/
def State.portMode (s : State) (p : Nat) : Nat := s.r F.BRIM_OCTET.MODE [p / 64, octetOf p]

/-- Whether a port runs MACsec (R444, R453): always on the mirror link. -/
def State.macsec (s : State) (p : Nat) : Bool := decide (s.portMode p = mdMirror) || s.rb F.BRIM_PORT.MACSEC_EN [p / 64, p % 64]

/-- A port that receives nothing: it is held in fence and discards what comes (R458), or a switch reset has begun and the Felt admits no more (R505).
[Marks: DESIGN CHOICE, log entry 47.] -/
def State.portShut (s : State) (p : Nat) : Bool := s.boot.pend.isSome || decide (s.link p = lkFenced)

/-! ### Health scores (R518 to R520) -/

/-- Object numbers of R518.
[Marks: DESIGN CHOICE, log entry 12.] -/
def objEngine (g : Nat) : Nat := g
/-- Port object.
[Marks: DESIGN CHOICE, log entry 12.] -/
def objPort (m : Nat) : Nat := 512 + m
/-- Tray link object.
[Marks: DESIGN CHOICE, log entry 12.] -/
def objTray (t : Nat) : Nat := 1024 + t
/-- HBM stack object. -/
def objHbm (n : Nat) : Nat := 1088 + n
/-- Compute die object. -/
def objCompute (n : Nat) : Nat := 1094 + n
/-- Brim die object. -/
def objBrim (n : Nat) : Nat := 1102 + n
/-- The Felt. -/
def objFelt : Nat := 1110
/-- The mirror link. -/
def objMirror : Nat := 1111

/-- The weight register of an event kind (R519).
[Marks: DESIGN CHOICE, log entry 12.] -/
def healthWeight (k : Nat) : Fld :=
  match k with
  | 0 => F.CROWN_HEALTH_WT_0.WEIGHT
  | 1 => F.CROWN_HEALTH_WT_1.WEIGHT
  | 2 => F.CROWN_HEALTH_WT_2.WEIGHT
  | 3 => F.CROWN_HEALTH_WT_3.WEIGHT
  | 4 => F.CROWN_HEALTH_WT_4.WEIGHT
  | 5 => F.CROWN_HEALTH_WT_5.WEIGHT
  | 6 => F.CROWN_HEALTH_WT_6.WEIGHT
  | 7 => F.CROWN_HEALTH_WT_7.WEIGHT
  | 8 => F.CROWN_HEALTH_WT_8.WEIGHT
  | _ => F.CROWN_HEALTH_WT_9.WEIGHT

/-- An event of kind k adds its weight to an object's score, which saturates; a score that reaches a threshold sets its bit and is recorded
(R519, R520).
[Marks: DESIGN CHOICE, log entry 12; DESIGN CHOICE, log entry 56.] -/
def health (obj k : Nat) (obj1 : Nat := 0) : Prog := rd fun s =>
  let old := s.r F.CROWN_HEALTH.SCORE [obj]
  let new := min 65535 (old + s.r (healthWeight k) [])
  let w := s.r F.CROWN_HEALTH_THRESH.WARN []
  let x := s.r F.CROWN_HEALTH_THRESH.SUSPECT []
  .all [
    wr F.CROWN_HEALTH.SCORE [obj] new,
    Prog.when (decide (old < w ∧ w ≤ new)) (.all [wr F.CROWN_HEALTH.WARN [obj] 1,
      log { src := srcCrown, cause := 0x900, sev := 1, obj0 := obj, obj1 := obj1 }]),
    Prog.when (decide (old < x ∧ x ≤ new)) (.all [wr F.CROWN_HEALTH.SUSPECT [obj] 1,
      log { src := srcCrown, cause := 0x901, sev := 1, obj0 := obj, obj1 := obj1 }])]

/-! ### Reachability of blocks (R530) -/

/-- Whether the block of a BAR0 or view offset is reachable: the Crown and host-die blocks always are, the others once their READY_BLOCKS bit
is set: bit 0 Felt, 1 to 8 the Brim dies, 9 the compute dies. A view reaches the Felt and Crown blocks. -/
def State.reach (s : State) (off : Nat) : Bool :=
  let rb := s.r F.CROWN_BOOT_STATUS.READY_BLOCKS []
  if off < 0x1000000 then true
  else if off < 0x2000000 then bit rb 0
  else if off < 0x4000000 then bit rb (1 + (off - 0x2000000) / 0x100000)
  else if off < 0x10000000 then bit rb 9
  else
    let v := (off - 0x10000000) % 0x100000
    if 0x4000 ≤ v ∧ v < 0x10000 ∨ 0x80000 ≤ v then bit rb 0 else true

/-- A command written to a register at an offset: one of a block not yet reachable has no effect and is counted (R530).
[Marks: DESIGN CHOICE, log entry 10.] -/
def reached (off : Nat) (p : Prog) : Prog := rd fun s => if s.reach off then p else count F.HOST_BAD_ACCESS_COUNT.COUNT []

/-- A fresh number for a request, an operation, an entry or a frame, handed to a program.
[Marks: DESIGN CHOICE, log entry 2.] -/
def fresh (f : Nat → Prog) : Prog := rd fun s => .seq (.eff .nextId) (f s.nextId)

end Sys2Proof.Machine
end

