-- ==== Sys2Proof/Machine/Ctx.lean ====
section
/-! DEFINITION. Operations on hardware contexts shared by every instruction and engine command (ch. 06, 07): registers, local windows, faults,
issue, and the end of an asynchronous operation. -/
namespace Sys2Proof.Machine
open Sys2Proof

/-! ### Registers of a context (R222, R223) -/

/-- The context with a CTX_ID. -/
def State.ctx (s : State) (c : Nat) : Ctx := SMap.get {} s.eng.ctxs c

/-- Scalar register r. -/
def Ctx.sr (x : Ctx) (r : Nat) : Nat := (SMap.get (0 : Word) x.s r).toNat

/-- Scalar register r written, modulo 2^64. -/
def Ctx.setS (x : Ctx) (r v : Nat) : Ctx := { x with s := SMap.set 0 x.s r (BitVec.ofNat 64 v) }

/-- The 64 lanes of vector register r. -/
def Ctx.vr (x : Ctx) (r : Nat) : List Nat := (SMap.slice (0 : Lane) x.v (64 * r) 64).map BitVec.toNat

/-- Vector register r written. -/
def Ctx.setV (x : Ctx) (r : Nat) (ls : List Nat) : Ctx :=
  { x with v := SMap.setRange 0 x.v (64 * r) ((ls.take 64).map (BitVec.ofNat 32)) }

/-- Predicate register p; p0 reads as all ones (R223). -/
def Ctx.pr (x : Ctx) (p : Nat) : Nat := if p = 0 then 2 ^ 64 - 1 else (SMap.get (0 : Word) x.p p).toNat

/-- Predicate register p written. -/
def Ctx.setP (x : Ctx) (p v : Nat) : Ctx := { x with p := SMap.set 0 x.p p (BitVec.ofNat 64 v) }

/-- Element (i, j) of accumulator tile t. -/
def Ctx.tile (x : Ctx) (t i j : Nat) : Nat := (SMap.get (0 : Lane) x.a (6144 * t + 96 * i + j)).toNat

/-- Element (i, j) of accumulator tile t written. -/
def Ctx.setTile (x : Ctx) (t i j v : Nat) : Ctx :=
  { x with a := SMap.set 0 x.a (6144 * t + 96 * i + j) (BitVec.ofNat 32 v) }

/-- Knot handle h. -/
def Ctx.handle (x : Ctx) (h : Nat) : Handle := SMap.get {} x.k h

/-- The engine, cluster and compute die of a context (R193). -/
def ctxEng (c : Nat) : Nat := c / 8
/-- Cluster number over all dies. -/
def ctxClu (c : Nat) : Nat := c / 32
/-- Compute die. -/
def ctxDie (c : Nat) : Nat := c / 512

/-! ### Local windows (R200, R242 to R244) -/

/-- Where n bytes at a local address lie: cluster memory or scratch, and the key of the first byte; none where they are not all in a window of
the context (R242). -/
def Ctx.locate (x : Ctx) (c a n : Nat) : Option (Bool × Nat) :=
  if 2 ^ 32 ≤ a then none
  else
    let off := a % 2 ^ 31
    if bit a 31 then
      (if 0 < x.cluSize ∧ off + n ≤ x.cluSize * 65536 then some (true, ctxClu c * 2 ^ 23 + x.cluBase * 65536 + off) else none)
    else
      (if off + n ≤ x.scrSize * 65536 then some (false, ctxEng c * 2 ^ 21 + x.scrBase * 65536 + off) else none)

/-- n bytes of local memory from a place.
[Marks: DESIGN CHOICE, log entry 4.] -/
def State.localBytes (s : State) (p : Bool × Nat) (n : Nat) : List Byte :=
  if p.1 then SMap.slice 0 s.eng.clu p.2 n else SMap.slice 0 s.eng.scratch p.2 n

/-- Bytes written to local memory from a place on. -/
def putLocal (p : Bool × Nat) (bs : List Byte) : Prog :=
  if p.1 then .eff (.cluR p.2 bs) else .eff (.scrR p.2 bs)

/-- n bytes at a local address of a context, where they lie in a window. -/
def State.readLocal (s : State) (c a n : Nat) : Option (List Byte) :=
  ((s.ctx c).locate c a n).map (fun p => s.localBytes p n)

/-- The cause under which an access of n bytes at a local address, aligned to `al`, faults: 0x504 before 0x502 (R242, R243, R260). -/
def Ctx.localFault (x : Ctx) (c a n al : Nat) : Option Nat :=
  if a % al ≠ 0 then some 0x504 else if (x.locate c a n).isNone then some 0x502 else none

/-- The same for an access to the scratch window only: a cluster address faults under 0x502 (R234, R259). -/
def Ctx.scratchFault (x : Ctx) (c a n al : Nat) : Option Nat :=
  if a % al ≠ 0 then some 0x504 else if bit a 31 ∨ (x.locate c a n).isNone then some 0x502 else none

/-- The first byte of a local range that no window of a context holds. -/
def Ctx.firstOutside (x : Ctx) (c a : Nat) : Nat :=
  if (x.locate c a 1).isNone then a else a / 2 ^ 31 * 2 ^ 31 + (if bit a 31 then x.cluSize else x.scrSize) * 65536

/-- The first byte of n bytes at a local address that a unit may not reach: outside the windows, or outside scratch where only that serves. -/
def Ctx.rangeBad (x : Ctx) (scr : Bool) (c a n : Nat) : Option Nat :=
  if scr && bit a 31 then some a else if (x.locate c a n).isSome then none else some (x.firstOutside c a)

/-! ### Placement and zeroing (R202) -/

/-- A context with its registers, tiles and check slot at their placement values (R213, R222): s0 to s4 from the placement, PC at ENTRY. -/
def Ctx.fresh (x : Ctx) (entry : Nat) : Ctx :=
  let y := { x with s := [], v := [], p := [], k := [], a := [], pc := entry, stat := 0, rid := 0, chk := {}, halting := false }
  let y := (y.setS 0 x.inst).setS 1 x.count
  ((y.setS 2 (x.args[0]?.getD 0)).setS 3 (x.args[1]?.getD 0)).setS 4 (x.args[2]?.getD 0)

/-- The entry of the program a context is placed with. -/
def State.entryOf (s : State) (x : Ctx) : Nat :=
  match SMap.get none s.eng.progs x.prog with
  | none => 0
  | some p => p.entry

/-- The windows of a context are filled with zeros: its cluster window also where instances of its placement share it (R201, R202). -/
def zeroWindows (c : Nat) : Prog := rd fun s =>
  let x := s.ctx c
  let b := ctxEng c * 2 ^ 21 + x.scrBase * 65536
  let d := ctxClu c * 2 ^ 23 + x.cluBase * 65536
  .all [.eff (.scrZero b (b + x.scrSize * 65536)),
    .eff (.cluZero d (d + x.cluSize * 65536))]

/-- A context with its registers, tiles and check slot zeroed (R202). -/
def Ctx.zeroed (x : Ctx) (pc : Nat) : Ctx := { x with s := [], v := [], p := [], k := [], a := [], pc := pc, stat := 0, chk := {}, halting := false }

/-- Zeroing of a context's windows and registers starts; what the context becomes when it ends is kept (R202). Its arguments are in its registers where it starts; one that
is left FAULTED keeps its PC (R213, R219, R220). -/
def startZero (c : Nat) (st : CtxState) (t : ZeroThen) : Prog := rd fun s =>
  let x := s.ctx c
  let y := match t with | .start => x.fresh (s.entryOf x) | .fault => x.zeroed x.pc | _ => x.zeroed (s.entryOf x)
  .all [zeroWindows c, .eff (.ctx c { y with st := st, zero := some t })]

/-! ### Faults (R257) -/

/-- A context faults: FAULTED, or PARKED after zeroing with AUTO_REARM, with the status kept and a record that names context, partition and PC
(R214, R257). A context of a fenced engine is freed (R521). -/
def faultCtx (c cause status pc : Nat) (link : Nat := 0) : Prog := rd fun s =>
  let x := s.ctx c
  .all [
    .eff (.ctx c { x with rid := s.nextRid (srcEng (ctxDie c)), last := status, halting := false }),
    log { src := srcEng (ctxDie c), cause := cause, sev := 2, status := status, ctx := some c, part := some x.part, pc := pc, link := link },
    if s.rb F.CROWN_HEALTH.FENCED [ctxEng c] then startZero c .free .free
    else if x.autoRearm then startZero c .parked .park
    else rd fun t => .eff (.ctx c { t.ctx c with st := .faulted })]

/-- A synchronous fault at the context's PC. -/
def syncFault (c cause status : Nat) : Prog := rd fun s => faultCtx c cause status (s.ctx c).pc

/-- A corrected or uncorrectable error of engine memory on a read by a context (R195): counted, and raised as health. -/
def eccCorrected (c : Nat) : Prog := .all [
  count F.SPL_ECC_CORR_COUNT.COUNT [ctxDie c], log { src := srcEng (ctxDie c), cause := 0x520, sev := 0, obj0 := ctxEng c },
  health (objEngine (ctxEng c)) 0]

/-- An uncorrectable error on a read by a context: fault 0x503 with TIER_UNCORRECTABLE (R195, R264). -/
def eccUncorrectable (c : Nat) : Prog := .all [
  count F.SPL_ECC_UNCORR_COUNT.COUNT [ctxDie c], syncFault c 0x503 stUncorr, health (objEngine (ctxEng c)) 5]

/-! ### Issue (R198, R216, R256) -/

/-- The instruction at the PC of a context, where the PC is an instruction start of its program (R254). -/
def State.fetch (s : State) (c : Nat) : Option Ins :=
  let x := s.ctx c
  match SMap.get none s.eng.progs x.prog with
  | none => none
  | some p =>
    if p.starts.contains x.pc then some (Ins.ofWord (leAt p.code x.pc 8) (leAt p.code (x.pc + 8) 8)) else none

/-- The asynchronous operations a context has in flight. -/
def State.opsOf (s : State) (c : Nat) : List (Nat × AOp) :=
  s.eng.ops.filterMap (fun e => match e.2 with
    | some o => if o.ctx = c ∧ ¬ o.dead then some (e.1, o) else none
    | none => none)

/-- A register that an operation in flight will write. -/
def AOp.writes (o : AOp) (r : Bool × Nat) : Bool :=
  match o.dst with
  | .s n => !r.1 && decide (r.2 = n)
  | .v n => r.1 && (decide (r.2 = n) || (decide (o.kind = .cleatLook) && bit o.fn 1 && decide (r.2 = n + 1)))
  | _ => false

/-- An instruction waits for a class A writer of one of its registers (R256). -/
def State.regBusy (s : State) (c : Nat) (i : Ins) : Bool :=
  (s.opsOf c).any (fun o => i.regs.any o.2.writes)

/-- The pipe's credit covers the instruction, or the governor gates nothing (R216). -/
def State.creditOk (s : State) (c : Nat) (i : Ins) : Bool :=
  decide (s.r F.PWR_STATUS.DUTY [] = 64) ||
  match i.occupancy with
  | none => true
  | some (m, n) => decide (n ≤ if m then SMap.get 128 s.eng.mcred (ctxEng c) else SMap.get 128 s.eng.vcred (ctxEng c))

/-- The credit falls by the occupancy at issue (R216). -/
def payCredit (c : Nat) (i : Ins) : Prog := rd fun s =>
  if s.r F.PWR_STATUS.DUTY [] = 64 then .skip
  else match i.occupancy with
    | none => .skip
    | some (m, n) =>
      if m then .eff (.mcred (ctxEng c) (SMap.get 128 s.eng.mcred (ctxEng c) - n))
      else .eff (.vcred (ctxEng c) (SMap.get 128 s.eng.vcred (ctxEng c) - n))

/-- The die and the engine of a context are online (R33, R500). -/
def State.engRuns (s : State) (c : Nat) : Bool :=
  bit (s.r F.CROWN_DIE_STATUS.COMPUTE_ONLINE []) (ctxDie c) && decide (SMap.get 0 s.eng.engs (ctxEng c) ≠ 2) && s.boot.pend.isNone

/-- A context issues its next instruction, which has opcode `op`: the instruction acts where the context is READY, its registers and pipe are
free; a PC that is no instruction start faults under 0x501 (R198, R214, R254, R256). Contexts that run the switch's own service programs take none of these
commands.
[Marks: DEDUCED, log entry 64.] -/
def issue (op c : Nat) (body : Ctx → Ins → Prog) : Prog := rd fun s =>
  let x := s.ctx c
  if x.st ≠ .ready ∨ x.halting ∨ x.zero.isSome ∨ x.svc ∨ x.xsvc ∨ ¬ s.engRuns c then .skip
  else match s.fetch c with
    | none => syncFault c 0x501 stDenied
    | some i =>
      if i.op ≠ op ∨ s.regBusy c i ∨ ¬ s.creditOk c i then .skip
      else .all [payCredit c i, .eff (.order (s.eng.order + 1)), body x i]

/-- A context retires an instruction: the registers written are kept, PC moves past it and the order of issue is noted (R198).
[Marks: DEDUCED, log entry 64.] -/
def retire (c : Nat) (i : Ins) (y : Ctx) : Prog := rd fun s =>
  .eff (.ctx c { y with pc := y.pc + i.len, issuedAt := s.eng.order, monAt := s.time.now })

/-- A branch to a target: a target that is no instruction start of the program faults the branch under 0x501 (R254, R272). -/
def branchTo (c : Nat) (y : Ctx) (t : Int) : Prog := rd fun s =>
  let ok := match SMap.get none s.eng.progs y.prog with
    | none => false
    | some p => decide (0 ≤ t) && p.starts.contains t.toNat
  if ok then .eff (.ctx c { y with pc := t.toNat, issuedAt := s.eng.order, monAt := s.time.now }) else syncFault c 0x501 stDenied

/-! ### Asynchronous operations (R256 to R260) -/

/-- A unit signals a knot with the status of the operation it ends; the signal is on its way until it is applied (R345, R348). -/
def postSignal (n status : Nat) : Prog := fresh fun i => .eff (.sig i (some { knot := n, status := status }))

/-- STAT takes a failed completion (R226). -/
def Ctx.note (x : Ctx) (status pc : Nat) : Ctx :=
  let first := x.stat % 64
  let cnt := min 0xffff (bits x.stat 8 16 + 1)
  if first = 0 then { x with stat := status % 64 + cnt * 2 ^ 8 + pc % 2 ^ 20 * 2 ^ 32 }
  else { x with stat := setBits x.stat 8 16 cnt }

/-- The latest record of SEV 2 that names a context, among those in the Crown ring and on the wire (R501). -/
def State.lastSev2 (s : State) (c : Nat) : Nat :=
  let p (r : LogRec) : Bool := decide (r.ctx = some c) && decide (r.sev = 2)
  match s.log.wire.reverse.find? p with
  | some r => r.rid
  | none => match s.log.crown.find? p with
    | some r => r.rid
    | none => 0

/-- After `halt`, a context with nothing in flight enters DONE, or in MODE 1 PARKED with its registers and windows zeroed (R214, R273). A context of a fenced engine is freed (R521). -/
def haltCheck (c : Nat) : Prog := rd fun s =>
  let x := s.ctx c
  if x.halting ∧ x.st = .ready ∧ (s.opsOf c).isEmpty then
    if s.rb F.CROWN_HEALTH.FENCED [ctxEng c] then startZero c .free .free
    else if x.mode then startZero c .parked .park
    else .eff (.ctx c { x with st := .done, halting := false })
  else .skip

/-- The completion record of an operation (R259). -/
def crecBytes (status group pc bytesDone time addr : Nat) : List Byte :=
  leBytes 1 (status % 64) ++ leBytes 1 group ++ leBytes 2 0 ++ leBytes 4 pc ++ leBytes 8 bytesDone ++ leBytes 8 time ++
    leBytes 8 (if status = 0 then 0 else addr)

/-- OP[7:4] of the instruction an operation came from (R249, R259). -/
def AKind.group : AKind → Nat
  | .fabLd | .fabSt | .fabAtom | .fabTrig | .fabBld | .fabBst | .fabNear => 9
  | .dma | .pfPage => 8
  | .gather | .filter => 6
  | .check => 0xC
  | .codec => 0xD
  | .knotSig | .knotArr | .knotWait => 0xA
  | .cleatLook => 0xB
  | .redAdd => 5
  | .kernel => 0

/-- An asynchronous operation ends (R256 to R260, R267): its record is written, its knot is signalled once with its status, TRAP faults a READY
context or is noted in STAT and the Logline, the operation is gone, and a halting context may finish. `note`: the status also reaches STAT, since
the operation's route is its destination register (R226). -/
def asyncEnd (o : Nat) (status bytesDone addr : Nat) (note : Bool) : Prog := rd fun s =>
  match SMap.get none s.eng.ops o with
  | none => .skip
  | some p =>
    let x := s.ctx p.ctx
    .all [
      .eff (.op o none),
      Prog.opt p.crec (fun a => Prog.opt (x.locate p.ctx a 32) (fun q => if p.dead then .skip else
        putLocal q (crecBytes status p.kind.group p.pc bytesDone (s.timeOf (srcEng (ctxDie p.ctx))) addr))),
      Prog.opt p.knot (fun n => if p.dead then .skip else postSignal n status),
      Prog.when (note && decide (status ≠ 0) && !p.dead) (rd fun t => .eff (.ctx p.ctx ((t.ctx p.ctx).note status p.pc))),
      Prog.when (p.trap && decide (status ≠ 0) && !p.dead) (rd fun t =>
        let y := t.ctx p.ctx
        if y.st = .ready then faultCtx p.ctx 0x507 status p.pc
        else .all [
          Prog.when (!note) (.eff (.ctx p.ctx (y.note status p.pc))),
          log { src := srcEng (ctxDie p.ctx), cause := 0x507, sev := 2, status := status, ctx := some p.ctx, part := some y.part,
                pc := p.pc, link := y.rid }]),
      haltCheck p.ctx]

/-- The number of operations of some kinds a context has in flight (R305). -/
def State.inFlight (s : State) (c : Nat) (ks : List AKind) : Nat :=
  ((s.opsOf c).filter (fun o => ks.contains o.2.kind)).length

/-- The completion knot of an instruction: none where its handle is unbound, which faults under 0x506 (R225). -/
def Ctx.compKnot (x : Ctx) (i : Ins) : Option Nat :=
  if (x.handle i.sc).bound then some (x.handle i.sc).knot else none

/-- An asynchronous operation is put in flight and the instruction retires (R256). -/
def launchOp (c : Nat) (i : Ins) (x : Ctx) (o : AOp) (k : Nat → Prog) : Prog := fresh fun n => .all [
  .eff (.op n (some { o with ctx := c, pc := x.pc, part := x.part, trap := i.trap })), retire c i x, k n]

/-- A free value where the spec states none. -/
def drawn (k : Nat → Prog) : Prog := rd fun s => .seq (.eff .drawFree) (k (Config.freeValue s.free).toNat)

/-- An operation ends non-OK; FAULT_ADDR of its completion record is a free value where the spec states no failing byte. -/
def asyncFail (n status bytesDone : Nat) (addr : Option Nat) (note : Bool) : Prog := rd fun s =>
  match addr, SMap.get none s.eng.ops n with
  | none, some p => if p.crec.isSome then drawn (fun v => asyncEnd n status bytesDone v note) else asyncEnd n status bytesDone 0 note
  | a, _ => asyncEnd n status bytesDone (a.getD 0) note

/-- The record of an operation that ends non-OK, where it has a cause (R261, R264, R306). -/
def logOp (c pc part status cause : Nat) : Prog := Prog.when (decide (cause ≠ 0)) (log {
  src := srcEng (ctxDie c), cause := cause, sev := 2, status := status, ctx := some c, part := some part, pc := pc })

/-- An operation that ends at issue: it is put in flight, its error is recorded where it has a cause, and it ends with its status by its route
(R261, R287, R306). -/
def endAtIssue (c : Nat) (i : Ins) (x : Ctx) (o : AOp) (status cause : Nat) (note : Bool) (addr : Option Nat := none) (fin : Prog := .skip) : Prog :=
  launchOp c i x o (fun n => .all [logOp c x.pc x.part status cause, fin, asyncFail n status 0 addr note])

/-- A unit's read of engine memory for an operation (R195, R264): a corrected error is counted; with an uncorrectable one its context faults where it is READY, and the
operation ends after `done` bytes.
[Marks: DESIGN CHOICE, log entry 18.] -/
def unitEcc (o : Nat) (p : AOp) (e : Ecc) (done : Nat) (go : Prog) : Prog :=
  match e with
  | .ok => go
  | .corrected => .seq (eccCorrected p.ctx) go
  | .uncorrectable => .all [
      count F.SPL_ECC_UNCORR_COUNT.COUNT [ctxDie p.ctx],
      rd fun s => if (s.ctx p.ctx).st = .ready then faultCtx p.ctx 0x503 stUncorr p.pc else logOp p.ctx p.pc p.part stUncorr 0x503,
      health (objEngine (ctxEng p.ctx)) 5,
      asyncFail o stUncorr done none false]

/-- An operation in flight ends non-OK under a cause. -/
def opFail (n status cause bytesDone : Nat) (addr : Option Nat) : Prog := rd fun s =>
  match SMap.get none s.eng.ops n with
  | none => .skip
  | some p => .all [Prog.when (!p.dead) (logOp p.ctx p.pc p.part status cause), asyncFail n status bytesDone addr false]

end Sys2Proof.Machine
end

