-- ==== Sys2Proof/Machine/IsaScalar.lean ====
section
/-! DEFINITION. The scalar and control instructions (R270 to R274, R207). Each command names the context that issues. -/
namespace Sys2Proof.Machine
open Sys2Proof

/-- The second operand of a scalar instruction: s[SB], or IMM16 sign-extended to 64 bits (R270). -/
def Ins.b (i : Ins) (x : Ctx) : Nat := if i.sbi then wrap 64 (sext 16 i.imm) else x.sr i.sb

/-- Signed division with the corners of R232, on w-bit operands. -/
def divS (w a b : Nat) : Nat := if sext w b = 0 then 2 ^ w - 1 else wrap w (Int.tdiv (sext w a) (sext w b))

/-- Signed remainder with the corners of R232. -/
def remS (w a b : Nat) : Nat := if sext w b = 0 then a else wrap w (Int.tmod (sext w a) (sext w b))

/-- The result of s.alu (R270). -/
def sAlu (fn a b : Nat) : Nat :=
  match fn with
  | 0 => (a + b) % 2 ^ 64
  | 1 => (a + 2 ^ 64 - b) % 2 ^ 64
  | 2 => a * b % 2 ^ 64
  | 3 => a * b / 2 ^ 64
  | 4 => wrap 64 (sext 64 a * sext 64 b / (2 ^ 64 : Nat))
  | 5 => if b = 0 then 2 ^ 64 - 1 else a / b
  | 6 => divS 64 a b
  | 7 => if b = 0 then a else a % b
  | 8 => remS 64 a b
  | 9 => a &&& b
  | 10 => a ||| b
  | 11 => a ^^^ b
  | 12 => if 64 ≤ b then 0 else a * 2 ^ b % 2 ^ 64
  | 13 => if 64 ≤ b then 0 else a / 2 ^ b
  | 14 => wrap 64 (sext 64 a / (2 ^ min b 63 : Nat))
  | _ => b

/-- I_S_ALU (R270). -/
def execISAlu (c : Nat) (s : State) : Host.Outcome State Fault Refusal := run s <|
  issue 0x00 c fun x i => retire c i (x.setS i.dst (sAlu i.fn (x.sr i.sa) (i.b x)))

/-- The result of s.cmp (R270). -/
def sCmp (fn a b : Nat) : Nat :=
  match fn with
  | 0 => b2n (decide (a = b))
  | 1 => b2n (decide (a ≠ b))
  | 2 => b2n (decide (a < b))
  | 3 => b2n (decide (sext 64 a < sext 64 b))
  | 4 => b2n (decide (a ≤ b))
  | 5 => b2n (decide (sext 64 a ≤ sext 64 b))
  | 6 => min a b
  | 7 => if sext 64 a ≤ sext 64 b then a else b
  | 8 => max a b
  | _ => if sext 64 a ≤ sext 64 b then b else a

/-- I_S_CMP (R270). -/
def execISCmp (c : Nat) (s : State) : Host.Outcome State Fault Refusal := run s <|
  issue 0x01 c fun x i => retire c i (x.setS i.dst (sCmp i.fn (x.sr i.sa) (i.b x)))

/-- I_S_LI (R271): the 64-bit immediate of the extension word. -/
def execISLi (c : Nat) (s : State) : Host.Outcome State Fault Refusal := run s <|
  issue 0x02 c fun x i => retire c i (x.setS i.dst i.ext)

/-- I_S_GETL (R271): lane b mod 64 of v[SA]. -/
def execISGetl (c : Nat) (s : State) : Host.Outcome State Fault Refusal := run s <|
  issue 0x03 c fun x i => retire c i (x.setS i.dst ((x.vr i.sa)[i.b x % 64]?.getD 0))

/-- I_S_SETL (R271): s[SA][31:0] into lane b mod 64 of v[DST]. -/
def execISSetl (c : Nat) (s : State) : Host.Outcome State Fault Refusal := run s <|
  issue 0x04 c fun x i => retire c i (x.setV i.dst ((x.vr i.dst).set (i.b x % 64) (x.sr i.sa % 2 ^ 32)))

/-- The target of br and of the branches like it. -/
def Ins.near (i : Ins) (x : Ctx) : Int := x.pc + sext 16 i.imm * 8

/-- I_BR (R272). -/
def execIBr (c : Nat) (s : State) : Host.Outcome State Fault Refusal := run s <|
  issue 0x10 c fun x i => branchTo c x (i.near x)

/-- The condition of bc (R272). -/
def bcTaken (fn a : Nat) : Bool :=
  match fn with
  | 0 => decide (a = 0)
  | 1 => decide (a ≠ 0)
  | 2 => decide (sext 64 a < 0)
  | _ => decide (0 ≤ sext 64 a)

/-- I_BC (R272). -/
def execIBc (c : Nat) (s : State) : Host.Outcome State Fault Refusal := run s <|
  issue 0x11 c fun x i => if bcTaken i.fn (x.sr i.sa) then branchTo c x (i.near x) else retire c i x

/-- The condition of bp (R272). -/
def bpTaken (fn p : Nat) : Bool :=
  match fn with
  | 0 => decide (p ≠ 0)
  | 1 => decide (p = 0)
  | _ => decide (p = 2 ^ 64 - 1)

/-- I_BP (R272). -/
def execIBp (c : Nat) (s : State) : Host.Outcome State Fault Refusal := run s <|
  issue 0x12 c fun x i => if bpTaken i.fn (x.pr i.sa) then branchTo c x (i.near x) else retire c i x

/-- I_BR_L (R272): a branch by a 48-bit offset. -/
def execIBrL (c : Nat) (s : State) : Host.Outcome State Fault Refusal := run s <|
  issue 0x13 c fun x i => branchTo c x (x.pc + sext 48 i.ext * 8)

/-- I_CALL (R272): the return address is saved, then as br. -/
def execICall (c : Nat) (s : State) : Host.Outcome State Fault Refusal := run s <|
  issue 0x14 c fun x i => branchTo c (x.setS i.dst (x.pc + 8)) (i.near x)

/-- I_JR (R272). -/
def execIJr (c : Nat) (s : State) : Host.Outcome State Fault Refusal := run s <|
  issue 0x15 c fun x i => branchTo c x (x.sr i.sa)

/-- I_HALT (R273): the context issues nothing more, and enters DONE or PARKED once its operations have completed. -/
def execIHalt (c : Nat) (s : State) : Host.Outcome State Fault Refusal := run s <|
  issue 0x16 c fun x i => .all [retire c i { x with halting := true }, haltCheck c]

/-- The capabilities of R207. -/
def capability (c : Nat) (x : Ctx) (k : Nat) : Nat :=
  match k with
  | 0x00 => 3
  | 0x01 => 64
  | 0x02 => 64
  | 0x03 => 96
  | 0x04 => 32
  | 0x05 => 8
  | 0x06 => 4
  | 0x07 => 16
  | 0x08 => 8
  | 0x09 => 2097152
  | 0x0A => 8388608
  | 0x0B => 16
  | 0x0C => 1600000
  | 0x0D => 0x1FF
  | 0x0E => 8
  | 0x0F => 7
  | 0x10 => c
  | 0x11 => x.part
  | 0x12 => x.scrSize * 65536
  | 0x13 => x.cluSize * 65536
  | _ => 0

/-- I_CAP_RD (R207, R272). -/
def execICapRd (c : Nat) (s : State) : Host.Outcome State Fault Refusal := run s <|
  issue 0x17 c fun x i => retire c i (x.setS i.dst (capability c x (i.b x)))

/-- I_ST_RD (R226, R272). -/
def execIStRd (c : Nat) (s : State) : Host.Outcome State Fault Refusal := run s <|
  issue 0x18 c fun x i => retire c i (x.setS i.dst x.stat)

/-- I_ST_CLR (R274). -/
def execIStClr (c : Nat) (s : State) : Host.Outcome State Fault Refusal := run s <|
  issue 0x19 c fun x i => retire c i { x with stat := 0 }

/-- I_TIME_RD (R37, R272): the shadow time counter of the context's die. -/
def execITimeRd (c : Nat) (s : State) : Host.Outcome State Fault Refusal := run s <|
  issue 0x1A c fun x i => retire c i (x.setS i.dst (s.timeOf (srcEng (ctxDie c))))

end Sys2Proof.Machine
end

