-- ==== Sys2Proof/Machine/IsaVector.lean ====
section
/-! DEFINITION. The vector, predicate, reduction and conversion instructions (R230 to R233, R239, R240, R275 to R277, R280, R281, R302 to R304). -/
namespace Sys2Proof.Machine
open Sys2Proof

/-- The merge rule `put` over a whole vector: active lanes take the result, inactive lanes keep the old value or are zeroed (R240, R268). -/
def putV (x : Ctx) (i : Ins) (dst : Nat) (rs : List Nat) : Ctx :=
  let p := x.pr i.pg
  x.setV dst (((x.vr dst).zip rs).zipIdx.map (fun e =>
    if bit p e.2 then e.1.2 else if i.z then 0 else e.1.1))

/-- The merge rule over a predicate (R276). -/
def putP (x : Ctx) (i : Ins) (dst : Nat) (rs : List Bool) : Ctx :=
  let p := x.pr i.pg
  x.setP dst ((rs.zipIdx.map (fun e =>
    b2n (if bit p e.2 then e.1 else if i.z then false else bit (x.pr dst) e.2) * 2 ^ e.2)).sum)

/-- Elements of w bits of a lane, computed with f and packed again (R229, R275).
[Marks: DEDUCED, log entry 39.] -/
def perElem (w : Nat) (f : Nat → Nat → Nat) (a b : Nat) : Nat :=
  ((List.range (32 / w)).map (fun e => f (bits a (e * w) w) (bits b (e * w) w) % 2 ^ w * 2 ^ (e * w))).sum

/-- An integer result: wrapped, or saturated to the format under MOD.SAT (R232). -/
def narrow (w : Nat) (signed satur : Bool) (v : Int) : Nat :=
  if satur then (if signed then wrap w (sat w v) else (max 0 (min v ((2 ^ w : Nat) - 1))).toNat) else wrap w v

/-- An element read as a number of its format. -/
def elemVal (w : Nat) (signed : Bool) (a : Nat) : Int := if signed then sext w a else (a : Int)

/-- The element result of v.ialu (R232, R275). -/
def vIalu (fn w : Nat) (signed satur : Bool) (a b : Nat) : Nat :=
  let x := elemVal w signed a
  let y := elemVal w signed b
  match fn with
  | 0 => narrow w signed satur (x + y)
  | 1 => narrow w signed satur (x - y)
  | 2 => narrow w signed satur (x * y)
  | 3 => wrap w (x * y / (2 ^ w : Nat))
  | 4 => if signed then divS w a b else if b = 0 then 2 ^ w - 1 else a / b
  | 5 => if signed then remS w a b else if b = 0 then a else a % b
  | 6 => a &&& b
  | 7 => a ||| b
  | 8 => a ^^^ b
  | 9 => if w ≤ b then 0 else a * 2 ^ b % 2 ^ w
  | 10 => if signed then wrap w (x / (2 ^ min b (w - 1) : Nat)) else if w ≤ b then 0 else a / 2 ^ b
  | 11 => if x ≤ y then a else b
  | 12 => if x ≤ y then b else a
  | _ => narrow w signed satur (max x (-x))

/-- IMM16 as a lane of integer elements (R275). -/
def immLane (w imm : Nat) : Nat := ((List.range (32 / w)).map (fun e => wrap w (sext 16 imm) * 2 ^ (e * w))).sum

/-- The lanes of the second vector operand: v[SB], or the immediate in every lane. -/
def bLanes (x : Ctx) (i : Ins) (lane : Nat) : List Nat := if i.sbi then List.replicate 64 lane else x.vr i.sb

/-- Element width of an integer format. -/
def intW (fmt : Nat) : Nat := if fmt = 5 then 8 else 32

/-- I_V_IALU (R275). -/
def execIVIalu (c : Nat) (s : State) : Host.Outcome State Fault Refusal := run s <|
  issue 0x20 c fun x i =>
    let w := intW i.fmt
    retire c i (putV x i i.dst (((x.vr i.sa).zip (bLanes x i (immLane w i.imm))).map (fun e =>
      perElem w (vIalu i.fn w (decide (i.fmt ≠ 1)) i.sat) e.1 e.2)))

/-- Relations 0 to 5: eq, ne, lt, le, gt, ge (R276). -/
def relInt (fn : Nat) (a b : Int) : Bool :=
  match fn with
  | 0 => decide (a = b)
  | 1 => decide (a ≠ b)
  | 2 => decide (a < b)
  | 3 => decide (a ≤ b)
  | 4 => decide (b < a)
  | _ => decide (b ≤ a)

/-- I_V_ICMP (R276). -/
def execIVIcmp (c : Nat) (s : State) : Host.Outcome State Fault Refusal := run s <|
  issue 0x21 c fun x i =>
    let sg := decide (i.fmt = 0)
    retire c i (putP x i i.dst (((x.vr i.sa).zip (bLanes x i (immLane 32 i.imm))).map (fun e =>
      relInt i.fn (elemVal 32 sg e.1) (elemVal 32 sg e.2))))

/-- The lanes of v.mov (R276). -/
def vMov (x : Ctx) (i : Ins) : List Nat :=
  let a := x.vr i.sa
  match i.fn with
  | 0 => a
  | 1 => List.replicate 64 (x.sr i.sa % 2 ^ 32)
  | 2 => (List.range 64).map (fun l => (x.sr i.sa + l) % 2 ^ 32)
  | 3 => (x.vr i.sb).map (fun b => a[b % 64]?.getD 0)
  | _ => (List.range 64).map (fun l => a[(l + x.sr i.sb) % 64]?.getD 0)

/-- I_V_MOV (R276). -/
def execIVMov (c : Nat) (s : State) : Host.Outcome State Fault Refusal := run s <|
  issue 0x22 c fun x i => retire c i (putV x i i.dst (vMov x i))

/-- The result of p.op (R276). -/
def pOp (x : Ctx) (i : Ins) : Nat :=
  let a := x.pr i.sa
  let b := x.pr i.sb
  match i.fn with
  | 0 => a &&& b
  | 1 => a ||| b
  | 2 => a ^^^ b
  | 3 => a &&& (2 ^ 64 - 1 - b)
  | 4 => 2 ^ 64 - 1 - a
  | _ => 2 ^ min 64 (x.sr i.sa) - 1

/-- I_P_OP (R276). -/
def execIPOp (c : Nat) (s : State) : Host.Outcome State Fault Refusal := run s <|
  issue 0x23 c fun x i => retire c i (x.setP i.dst (pOp x i))

/-- I_P_CNT (R276). -/
def execIPCnt (c : Nat) (s : State) : Host.Outcome State Fault Refusal := run s <|
  issue 0x24 c fun x i => retire c i (x.setS i.dst (popcount 64 (x.pr i.sa)))

/-! ### Floating point -/

/-- The IEEE layout of a float format code. -/
def fmtOf (fmt : Nat) : FFmt := if fmt = 3 then bf16 else if fmt = 4 then fp16 else fp32

/-- Element width of a float format code. -/
def fltW (fmt : Nat) : Nat := if fmt = 2 then 32 else 16

/-- A value computed as FP32 under a rounding direction and rounded once to the destination format (R230, R231): for FP32 the exact value is
rounded once. BF16 and FP16 elements are computed exactly and rounded once to the destination format. -/
def fltRound (fmt rm : Nat) (v : FVal) : Nat := (fmtOf fmt).enc rm v

/-- The element result of v.falu (R230, R277). -/
def vFalu (fmt fn rm : Nat) (a b : Nat) : Nat :=
  let f := fmtOf fmt
  let x := f.dec a
  let y := f.dec b
  match fn with
  | 0 => fltRound fmt rm (x.add rm y)
  | 1 => fltRound fmt rm (x.add rm y.neg)
  | 2 => fltRound fmt rm (x.mul y)
  | 3 => fltRound fmt rm (x.min y)
  | 4 => fltRound fmt rm (x.max y)
  | 5 => fltRound fmt rm x.abs
  | _ => fltRound fmt rm x.neg

/-- The constant of SBI for a float format: the upper half of an FP32 value, or the element itself in every element (R251, R277). -/
def fltImm (fmt imm : Nat) : Nat := if fmt = 2 then imm * 2 ^ 16 else imm * 2 ^ 16 + imm

/-- I_V_FALU (R277). -/
def execIVFalu (c : Nat) (s : State) : Host.Outcome State Fault Refusal := run s <|
  issue 0x30 c fun x i =>
    retire c i (putV x i i.dst (((x.vr i.sa).zip (bLanes x i (fltImm i.fmt i.imm))).map (fun e =>
      perElem (fltW i.fmt) (vFalu i.fmt i.fn i.rm) e.1 e.2)))

/-- The element result of v.ffma: one rounding (R230, R277). -/
def vFfma (fmt fn rm : Nat) (a b d : Nat) : Nat :=
  let f := fmtOf fmt
  let p := (f.dec a).mul (f.dec b)
  let z := f.dec d
  match fn with
  | 0 => fltRound fmt rm (p.add rm z)
  | 1 => fltRound fmt rm (p.add rm z.neg)
  | _ => fltRound fmt rm (p.neg.add rm z)

/-- Elements of three lanes. -/
def perElem3 (w : Nat) (f : Nat → Nat → Nat → Nat) (a b d : Nat) : Nat :=
  ((List.range (32 / w)).map (fun e =>
    f (bits a (e * w) w) (bits b (e * w) w) (bits d (e * w) w) % 2 ^ w * 2 ^ (e * w))).sum

/-- I_V_FFMA (R277). -/
def execIVFfma (c : Nat) (s : State) : Host.Outcome State Fault Refusal := run s <|
  issue 0x31 c fun x i =>
    retire c i (putV x i i.dst ((((x.vr i.sa).zip (bLanes x i (fltImm i.fmt i.imm))).zip (x.vr i.sc)).map (fun e =>
      perElem3 (fltW i.fmt) (vFfma i.fmt i.fn i.rm) e.1.1 e.1.2 e.2)))

/-- Relations 0 to 6 on FP32: eq, ne, lt, le, gt, ge, unordered (R277). -/
def relFlt (fn : Nat) (a b : FVal) : Bool :=
  let un := a.isNaN || b.isNaN
  match fn with
  | 0 => a.eq b
  | 1 => un || !a.eq b
  | 2 => a.lt b
  | 3 => !un && !b.lt a
  | 4 => b.lt a
  | 5 => !un && !a.lt b
  | _ => un

/-- I_V_FCMP (R277). -/
def execIVFcmp (c : Nat) (s : State) : Host.Outcome State Fault Refusal := run s <|
  issue 0x32 c fun x i =>
    retire c i (putP x i i.dst (((x.vr i.sa).zip (bLanes x i (fltImm 2 i.imm))).map (fun e =>
      relFlt i.fn (fp32.dec e.1) (fp32.dec e.2))))

/-- The element result of v.flong; which of the two nearest values exp2 and log2 return is a free value (R230, R277). -/
def vFlong (fn rm a b : Nat) : Nat :=
  match fn with
  | 0 => fp32.div rm (fp32.dec a) (fp32.dec b)
  | 1 => fp32.sqrt rm (fp32.dec a)
  | 2 => exp2 (Config.exp2Up (BitVec.ofNat 32 a)) (fp32.dec a)
  | _ => log2 (Config.log2Up (BitVec.ofNat 32 a)) (fp32.dec a)

/-- I_V_FLONG (R277). -/
def execIVFlong (c : Nat) (s : State) : Host.Outcome State Fault Refusal := run s <|
  issue 0x33 c fun x i =>
    retire c i (putV x i i.dst (((x.vr i.sa).zip (x.vr i.sb)).map (fun e => vFlong i.fn i.rm e.1 e.2)))

/-! ### Reductions -/

/-- The active lanes of a vector with their numbers. -/
def active (x : Ctx) (i : Ins) (vs : List Nat) : List (Nat × Nat) :=
  vs.zipIdx.filter (fun e => bit (x.pr i.pg) e.2)

/-- The extreme lane under a strict order `better`, the lowest lane on ties. -/
def bestLane (better : Nat → Nat → Bool) : List (Nat × Nat) → Option (Nat × Nat)
  | [] => none
  | e :: es => match bestLane better es with
    | none => some e
    | some f => if better f.1 e.1 then some f else some e

/-- The result of red.v (R280).
[Marks: DEDUCED, log entry 39.] -/
def redV (fmt fn rm : Nat) (mask : Nat) (vs : List Nat) : Nat :=
  let act := vs.zipIdx.filter (fun e => bit mask e.2)
  let sg := decide (fmt = 0)
  let val (a : Nat) : Int := elemVal 32 sg a
  let ext (a : Nat) : Nat := if sg then wrap 64 (sext 32 a) else a
  if act.isEmpty then (if fn ≤ 2 then 0 else 2 ^ 64 - 1)
  else if fmt = 2 then
    let better (mx : Bool) (a b : Nat) : Bool := if mx then (fp32.dec b).lt (fp32.dec a) else (fp32.dec a).lt (fp32.dec b)
    let nums := act.filter (fun e => !(fp32.dec e.1).isNaN)
    let pool := if nums.isEmpty then act else nums
    match fn with
    | 0 => reduceAdd rm (vs.zipIdx.map (fun e => if bit mask e.2 then e.1 else 0x80000000))
    | 1 => fp32.enc 0 (act.foldl (fun a e => a.max (fp32.dec e.1)) .nan)
    | 2 => fp32.enc 0 (act.foldl (fun a e => a.min (fp32.dec e.1)) .nan)
    | 3 => ((bestLane (better true) pool).map (·.2)).getD 0
    | _ => ((bestLane (better false) pool).map (·.2)).getD 0
  else
    let gt (a b : Nat) : Bool := decide (val b < val a)
    let lt (a b : Nat) : Bool := decide (val a < val b)
    match fn with
    | 0 =>
      let t := (act.map (·.1)).sum % 2 ^ 32
      ext t
    | 1 => ext (((bestLane gt act).map (·.1)).getD 0)
    | 2 => ext (((bestLane lt act).map (·.1)).getD 0)
    | 3 => ((bestLane gt act).map (·.2)).getD 0
    | _ => ((bestLane lt act).map (·.2)).getD 0

/-- I_RED_V (R280). -/
def execIRedV (c : Nat) (s : State) : Host.Outcome State Fault Refusal := run s <|
  issue 0x50 c fun x i => retire c i (x.setS i.dst (redV i.fmt i.fn i.rm (x.pr i.pg) (x.vr i.sa)))

/-- A candidate of red.topk: score, index, source list and lane (R281). -/
structure Cand where
  s : Nat
  i : Nat
  src : Nat
  pos : Nat
  deriving DecidableEq, Repr

/-- before() of R281. -/
def Cand.before (x y : Cand) : Bool :=
  let a := fp32.dec x.s
  let b := fp32.dec y.s
  if a.isNaN ≠ b.isNaN then !a.isNaN
  else if !a.isNaN && !a.eq b then b.lt a
  else if x.i ≠ y.i then decide (x.i < y.i)
  else if x.src ≠ y.src then decide (x.src < y.src)
  else decide (x.pos < y.pos)

/-- A candidate put in rank order. -/
def Cand.insert (c : Cand) : List Cand → List Cand
  | [] => [c]
  | d :: ds => if c.before d then c :: d :: ds else d :: Cand.insert c ds

/-- The 64 entries that rank first (R281). -/
def topk (cs : List Cand) : List Cand := (cs.foldl (fun l c => Cand.insert c l) []).take 64

/-- Candidates from two lists of lanes. -/
def candsOf (src : Nat) (ss ids : List Nat) : List Cand :=
  (ss.zip ids).zipIdx.map (fun e => ⟨e.1.1, e.1.2, src, e.2⟩)

/-- I_RED_TOPK (R281). -/
def execIRedTopk (c : Nat) (s : State) : Host.Outcome State Fault Refusal := run s <|
  issue 0x51 c fun x i =>
    let run0 := candsOf 0 (x.vr i.dst) (x.vr (i.dst + 1))
    let cand := (candsOf 1 (x.vr i.sa) (x.vr i.sb)).filter (fun k => bit (x.pr i.pg) k.pos)
    let top := topk (run0 ++ cand)
    let score (k : Cand) : Nat := if (fp32.dec k.s).isNaN then fp32.nan else k.s
    retire c i ((x.setV i.dst (top.map score)).setV (i.dst + 1) (top.map (·.i)))

/-! ### Conversion -/

/-- Whether a format code is a float format. -/
def isFlt (fmt : Nat) : Bool := decide (2 ≤ fmt ∧ fmt ≤ 4)

/-- Element width of a format code 0 to 5. -/
def anyW (fmt : Nat) : Nat := if fmt = 5 then 8 else if fmt = 3 ∨ fmt = 4 then 16 else 32

/-- Whether a finite value overflows a format under a rounding direction: rounded with an unbounded exponent it passes the largest finite value. -/
def FFmt.overflows (f : FFmt) (rm : Nat) (v : FVal) : Bool :=
  decide (f.enc rm v % 2 ^ (f.eb + f.mb) = f.inf false) || !v.abs.lt (.fin false 1 (2 ^ f.eb - 1 - f.bias))

/-- A value encoded by cvt: an overflow gives the largest finite value under SAT, else an infinity (R302).
[Marks: DEDUCED, log entry 39.] -/
def cvtEnc (f : FFmt) (rm : Nat) (satur : Bool) (v : FVal) : Nat :=
  match v with
  | .fin neg m e => if f.overflows rm (.fin neg m e) then (if satur then f.maxFin neg else f.inf neg) else f.enc rm (.fin neg m e)
  | .inf neg => f.inf neg
  | .nan => f.nan

/-- The lane result of cvt from format `src` to format `dst` (R231, R233, R302). -/
def cvt (dst src rm : Nat) (satur : Bool) (a : Nat) : Nat :=
  let a := a % 2 ^ anyW src
  if isFlt src then
    let v := (fmtOf src).dec a
    if isFlt dst then cvtEnc (fmtOf dst) rm satur v
    else wrap (anyW dst) (toInt rm (anyW dst) (decide (dst ≠ 1)) v)
  else
    let v := elemVal (anyW src) (decide (src ≠ 1)) a
    if isFlt dst then cvtEnc (fmtOf dst) rm satur (.fin (decide (v < 0)) v.natAbs 0)
    else narrow (anyW dst) (decide (dst ≠ 1)) satur v

/-- I_CVT (R302). -/
def execICvt (c : Nat) (s : State) : Host.Outcome State Fault Refusal := run s <|
  issue 0xE0 c fun x i => retire c i (putV x i i.dst ((x.vr i.sa).map (cvt i.fmt i.fn i.rm i.sat)))

/-- The bytes of a vector register (R229). -/
def laneBytes (ls : List Nat) : List Nat := ls.flatMap (fun l => (leBytes 4 l).map BitVec.toNat)

/-- Lanes from bytes. -/
def bytesLanes (n : Nat) (bs : List Nat) : List Nat :=
  (List.range n).map (fun l => (bs[4 * l]?.getD 0) + 256 * (bs[4 * l + 1]?.getD 0) + 65536 * (bs[4 * l + 2]?.getD 0) +
    16777216 * (bs[4 * l + 3]?.getD 0))

/-- The lanes of v.pack (R303). -/
def vPack (fn : Nat) (a b d : List Nat) : List Nat :=
  let half (l : List Nat) (k : Nat) : Nat := bits (l[k / 2]?.getD 0) (16 * (k % 2)) 16
  let low8 := (a ++ b).map (· % 256)
  match fn with
  | 0 =>
    let e := (a ++ b).map (· % 65536)
    (List.range 64).map (fun l => (e[2 * l]?.getD 0) + 65536 * (e[2 * l + 1]?.getD 0))
  | 1 => (List.range 64).map (half a)
  | 2 => (List.range 64).map (fun l => half a (64 + l))
  | 3 => bytesLanes 32 low8 ++ d.drop 32
  | 4 => d.take 32 ++ bytesLanes 32 low8
  | _ => ((laneBytes a).drop ((fn - 5) * 64)).take 64

/-- I_V_PACK (R303). -/
def execIVPack (c : Nat) (s : State) : Host.Outcome State Fault Refusal := run s <|
  issue 0xE1 c fun x i => retire c i (x.setV i.dst (vPack i.fn (x.vr i.sa) (x.vr i.sb) (x.vr i.dst)))

/-- Elements of w bits packed from the lowest bit up (R229). -/
def packElems (w : Nat) (es : List Nat) : Nat := (es.zipIdx.map (fun e => e.1 % 2 ^ w * 2 ^ (w * e.2))).sum

/-- I_MX_Q (R304): two blocks of 32 lanes are quantized. -/
def execIMxQ (c : Nat) (s : State) : Host.Outcome State Fault Refusal := run s <|
  issue 0xE2 c fun x i =>
    let vs := (x.vr i.sa).map fp32.dec
    let q0 := mxQuant i.fmt i.rm i.sat (vs.take 32)
    let q1 := mxQuant i.fmt i.rm i.sat (vs.drop 32)
    let data := packElems (mxBits i.fmt) (q0.2 ++ q1.2)
    let lanes := (List.range 64).map (fun l => bits data (32 * l) 32)
    retire c i ((x.setV i.dst lanes).setS i.sc (q0.1 + 256 * q1.1))

/-- I_MX_DQ (R304). -/
def execIMxDq (c : Nat) (s : State) : Host.Outcome State Fault Refusal := run s <|
  issue 0xE3 c fun x i =>
    let data := packElems 32 (x.vr i.sa)
    let w := mxBits i.fmt
    let lanes := (List.range 64).map (fun l => mxValue i.fmt (bits data (w * l) w) (bits (x.sr i.sb) (8 * (l / 32)) 8))
    retire c i (x.setV i.dst lanes)

end Sys2Proof.Machine
end

