-- ==== Sys2Proof/Machine/Kreq.lean ====
section
/-! DEFINITION. The fields of attention and retrieval requests and the bytes of fabric memory that they name (R326 to R328, R335, R336). -/
namespace Sys2Proof.Machine
open Sys2Proof

/-- Bytes of a 32-element block of a matrix format (R234). -/
def blockBytes (fmt : Nat) : Nat := if fmt = 3 ∨ fmt = 4 then 64 else 4 * mxBits fmt

/-- Bytes of a panel of n blocks: the blocks and, for MX formats, one scale byte each (R234). -/
def panelBytes (fmt n : Nat) : Nat := n * blockBytes fmt + (if fmt = 3 ∨ fmt = 4 then 0 else n)

/-- The fields of an attention request (R326). -/
structure Attn where
  list : Nat
  scale : Nat
  tau : Nat
  nq : Nat
  nh : Nat
  nkv : Nat
  dlog : Nat
  nsplit : Nat
  kfmt : Nat
  vfmt : Nat
  sparse : Bool
  npages : Nat
  body : List Byte
  deriving DecidableEq, Repr

/-- The attention extension and body of a request. -/
def Req.attn (q : Req) : Attn :=
  let w (i : Nat) := q.words.getD i 0
  { list := w 0, scale := w 1 / 2 ^ 32, tau := w 1 % 2 ^ 32, nq := bits (w 2) 56 8 + 1, nh := bits (w 2) 48 8 + 1, nkv := bits (w 2) 40 8 + 1
    dlog := bits (w 2) 38 2, nsplit := bits (w 2) 32 6 + 1, kfmt := bits (w 2) 28 4, vfmt := bits (w 2) 24 4, sparse := bit (w 2) 16
    npages := w 2 % 2 ^ 16, body := q.data }

/-- D. -/
def Attn.d (a : Attn) : Nat := 64 * 2 ^ a.dlog
/-- A length rounded up to a multiple of 64. -/
def pad64 (n : Nat) : Nat := cdiv n 64 * 64
/-- Bytes of a K slab and of a V slab (R328). -/
def Attn.kb (a : Attn) : Nat := panelBytes a.kfmt (2 * a.d)
/-- Bytes of a V slab. -/
def Attn.vb (a : Attn) : Nat := panelBytes a.vfmt (2 * a.d)
/-- Bytes of a page. -/
def Attn.pageBytes (a : Attn) : Nat := 64 + a.nkv * (a.kb + a.vb)
/-- The fields of a retrieval request (R335). -/
structure Retr where
  table : Nat
  nrows : Nat
  fmt : Nat
  dlog : Nat
  k : Nat
  nq : Nat
  body : List Byte
  deriving DecidableEq, Repr

/-- The retrieval extension and payload of a request. -/
def Req.retr (q : Req) : Retr :=
  let w (i : Nat) := q.words.getD i 0
  { table := w 0, nrows := w 1 / 2 ^ 32, fmt := bits (w 1) 28 4, dlog := bits (w 1) 24 4, k := bits (w 1) 16 8 + 1, nq := bits (w 1) 8 8 + 1, body := q.data }

/-- DIM. -/
def Retr.dim (a : Retr) : Nat := 32 * 2 ^ a.dlog
/-- Blocks of a row. -/
def Retr.nb (a : Retr) : Nat := 2 ^ a.dlog
/-- Bytes of a tile (R336). -/
def Retr.tileBytes (a : Retr) : Nat := panelBytes a.fmt (64 * a.nb)
/-- Tiles of the table. -/
def Retr.tiles (a : Retr) : Nat := cdiv a.nrows 64

end Sys2Proof.Machine
end

