-- ==== Sys2Proof/Machine/IsaLocal.lean ====
section
/-! DEFINITION. The local load and store instructions and the matrix and tile instructions (R234 to R238, R241 to R244, R278, R279, R285). -/
namespace Sys2Proof.Machine
open Sys2Proof

/-- A read of engine memory by a context: with an uncorrectable error the instruction faults under 0x503, a corrected one is counted and the
instruction goes on (R195, R257).
[Marks: DESIGN CHOICE, log entry 18.] -/
def withEcc (e : Ecc) (c : Nat) (p : Prog) : Prog :=
  match e with
  | .ok => p
  | .corrected => .all [eccCorrected c, p]
  | .uncorrectable => eccUncorrectable c

/-- The address of a load or store: s[SA] + sign-extended IMM16, as a 64-bit sum (R242). -/
def Ins.addr (i : Ins) (x : Ctx) : Nat := wrap 64 ((x.sr i.sa : Int) + sext 16 i.imm)

/-- Bytes of a scalar access by FN: 1, 2, 4 or 8; the signed loads are FN 4 to 6 (R285). -/
def fnBytes (fn : Nat) : Nat := 2 ^ (fn % 4)

/-- I_LD_S (R285): a scalar load, zero- or sign-extended. -/
def execILdS (c : Nat) (e : Ecc) (s : State) : Host.Outcome State Fault Refusal := run s <|
  issue 0x70 c fun x i =>
    let a := i.addr x
    let n := fnBytes i.fn
    match x.localFault c a n n with
    | some cause => syncFault c cause stDenied
    | none => withEcc e c (rd fun t =>
        let v := ofLe ((t.readLocal c a n).getD [])
        retire c i (x.setS i.dst (if 4 ≤ i.fn then wrap 64 (sext (8 * n) v) else v)))

/-- I_ST_S (R285): the low bytes of s[SB] are stored. -/
def execIStS (c : Nat) (s : State) : Host.Outcome State Fault Refusal := run s <|
  issue 0x71 c fun x i =>
    let a := i.addr x
    let n := fnBytes i.fn
    match x.localFault c a n n with
    | some cause => syncFault c cause stDenied
    | none => .all [Prog.opt (x.locate c a n) (fun p => putLocal p (leBytes n (x.sr i.sb))), retire c i x]

/-- The local addresses of the active lanes, with their lanes; a vector access of 4 bytes a lane (R241, R285). -/
def laneAddrs (x : Ctx) (i : Ins) (f : Nat → Nat) : List (Nat × Nat) :=
  ((List.range 64).filter (fun l => bit (x.pr i.pg) l)).map (fun l => (l, f l))

/-- The first cause that a list of 4-byte accesses faults under: a misaligned one before one outside its window (R260). -/
def lanesFault (c : Nat) (x : Ctx) (as : List (Nat × Nat)) : Option Nat :=
  let fs := as.filterMap (fun p => x.localFault c p.2 4 4)
  if fs.contains 0x504 then some 0x504 else fs.head?

/-- A vector load of 4 bytes for each active lane, at the address f gives (R285). -/
def vecLoad (c : Nat) (e : Ecc) (x : Ctx) (i : Ins) (f : Nat → Nat) : Prog :=
  let as := laneAddrs x i f
  match lanesFault c x as with
  | some cause => syncFault c cause stDenied
  | none => withEcc e c (rd fun t =>
      let one (l : Nat) : Nat := if bit (x.pr i.pg) l then ofLe ((t.readLocal c (f l) 4).getD []) else 0
      retire c i (putV x i i.dst ((List.range 64).map one)))

/-- A vector store of 4 bytes for each active lane, the higher lane last (R285). -/
def vecStore (c : Nat) (x : Ctx) (i : Ins) (f : Nat → Nat) (vs : List Nat) : Prog :=
  let as := laneAddrs x i f
  match lanesFault c x as with
  | some cause => syncFault c cause stDenied
  | none => .all [
      Prog.each as (fun p => Prog.opt (x.locate c p.2 4) (fun q => putLocal q (leBytes 4 (vs[p.1]?.getD 0)))),
      retire c i x]

/-- An address that lies in the window which another selects, or one outside every window at the same alignment (R242, R285). -/
def inWindowOf (base a : Nat) : Nat := if bit a 31 = bit base 31 then a else 2 ^ 40 + a % 4

/-- The lane address of ld.v and st.v: the sum s[SA] + IMM16 selects the window of all lanes (R242). -/
def Ins.lane (i : Ins) (x : Ctx) (l : Nat) : Nat := inWindowOf (i.addr x) (i.addr x + 4 * l)

/-- The lane address of ld.vx and st.vx: s[SA] + v[SB][l]; a sum whose bit 31 differs from that of s[SA] is outside the window (R285). -/
def Ins.laneX (i : Ins) (x : Ctx) (l : Nat) : Nat := inWindowOf (x.sr i.sa) ((x.sr i.sa + (x.vr i.sb)[l]?.getD 0) % 2 ^ 64)

/-- I_LD_V (R285). -/
def execILdV (c : Nat) (e : Ecc) (s : State) : Host.Outcome State Fault Refusal := run s <|
  issue 0x72 c fun x i => vecLoad c e x i (i.lane x)

/-- I_ST_V (R285). -/
def execIStV (c : Nat) (s : State) : Host.Outcome State Fault Refusal := run s <|
  issue 0x73 c fun x i => vecStore c x i (i.lane x) (x.vr i.sb)

/-- I_LD_VX (R285). -/
def execILdVx (c : Nat) (e : Ecc) (s : State) : Host.Outcome State Fault Refusal := run s <|
  issue 0x74 c fun x i => vecLoad c e x i (i.laneX x)

/-- I_ST_VX (R285). -/
def execIStVx (c : Nat) (s : State) : Host.Outcome State Fault Refusal := run s <|
  issue 0x75 c fun x i => vecStore c x i (i.laneX x) (x.vr i.sc)

/-! ### Matrix and tiles -/

/-- The 32 MX elements of block k of a panel (R229). -/
def mxBlock (fmt k : Nat) (bs : List Byte) : List MEl :=
  let v := leAt bs (k * blockBytes fmt) (blockBytes fmt)
  (List.range 32).map (fun e => mxDec fmt (bits v (mxBits fmt * e) (mxBits fmt)))

/-- The 32 BF16 or FP16 elements of block k of a panel. -/
def fltBlock (fmt k : Nat) (bs : List Byte) : List FVal :=
  let v := leAt bs (k * 64) 64
  (List.range 32).map (fun e => (fmtOf fmt).dec (bits v (16 * e) 16))

/-- The scale byte of block k of a panel of n blocks. -/
def scaleByte (fmt n k : Nat) (bs : List Byte) : Nat := byteAt bs (n * blockBytes fmt + k)

/-- Element (i, j) of the product of two panels added to c (R235 to R237).
[Marks: DEDUCED, log entry 39.] -/
def mmaElem (fmt : Nat) (pa pb : List Byte) (i j : Nat) (c : FVal) : Nat :=
  if fmt = 3 ∨ fmt = 4 then f16Mma c (prodList (fltBlock fmt i pa) (fltBlock fmt j pb))
  else mxMma fmt c (mxBlock fmt i pa) (mxBlock fmt j pb) (scaleByte fmt 64 i pa) (scaleByte fmt 96 j pb)

/-- The 6,144 elements of tile t after a matrix multiply, in row order (R278). -/
def mmaTile (x : Ctx) (fmt t : Nat) (acc : Bool) (pa pb : List Byte) : List Lane :=
  (List.range 6144).map (fun n =>
    BitVec.ofNat 32 (mmaElem fmt pa pb (n / 96) (n % 96)
      (if acc then fp32.dec (x.tile t (n / 96) (n % 96)) else .fin false 0 0)))

/-- I_MMA (R278, R234 to R238): the panels are checked at issue; the count of matrix instructions of the engine advances for shadow sampling
(R517). -/
def execIMma (c : Nat) (e : Ecc) (s : State) : Host.Outcome State Fault Refusal := run s <|
  issue 0x40 c fun x i =>
    let na := panelBytes i.fmt 64
    let nb := panelBytes i.fmt 96
    let fs := [x.scratchFault c (x.sr i.sa) na 64, x.scratchFault c (x.sr i.sb) nb 64].filterMap id
    match (if fs.contains 0x504 then some 0x504 else fs.head?) with
    | some cause => syncFault c cause stDenied
    | none => withEcc e c (rd fun t =>
        let pa := (t.readLocal c (x.sr i.sa) na).getD []
        let pb := (t.readLocal c (x.sr i.sb) nb).getD []
        .all [
          .eff (.mmaCount (ctxEng c) (SMap.get 0 t.eng.mmaCount (ctxEng c) + 1)),
          retire c i { x with a := SMap.setRange 0 x.a (6144 * i.dst) (mmaTile x i.fmt i.dst i.acc pa pb) }])

/-- I_TILE_ZERO (R279). -/
def execITileZero (c : Nat) (s : State) : Host.Outcome State Fault Refusal := run s <|
  issue 0x41 c fun x i => retire c i { x with a := SMap.eraRange x.a (6144 * i.dst) (6144 * i.dst + 6144) }

/-- The column and first row that s[SB] names (R279). -/
def tileAt (b : Nat) : Nat × Nat := (bits b 0 16, bits b 16 16)

/-- I_TILE_RDC (R279): a tile column is read into a vector. -/
def execITileRdc (c : Nat) (e : Ecc) (s : State) : Host.Outcome State Fault Refusal := run s <|
  issue 0x42 c fun x i =>
    let (j, r) := tileAt (x.sr i.sb)
    withEcc e c (retire c i (putV x i i.dst ((List.range 64).map (fun l =>
      if r + l < 64 ∧ j < 96 then x.tile i.sa (r + l) j else 0))))

/-- Lane l of v[SA] written to a tile column, or +0.0 for an inactive lane under MOD.Z (R279). -/
def wrcLane (x : Ctx) (i : Ins) (j r : Nat) (vs : List Nat) (y : Ctx) (l : Nat) : Ctx :=
  if r + l < 64 ∧ j < 96 then
    (if bit (x.pr i.pg) l then y.setTile i.dst (r + l) j (vs[l]?.getD 0)
     else if i.z then y.setTile i.dst (r + l) j 0 else y)
  else y

/-- I_TILE_WRC (R279): a vector is written to a tile column. -/
def execITileWrc (c : Nat) (s : State) : Host.Outcome State Fault Refusal := run s <|
  issue 0x43 c fun x i =>
    let (j, r) := tileAt (x.sr i.sb)
    retire c i ((List.range 64).foldl (wrcLane x i j r (x.vr i.sa)) x)

end Sys2Proof.Machine
end

