-- ==== Sys2Proof/Machine/Chk.lean ====
section
/-! DEFINITION. The cyclic check values of the check-value units (R405 to R407), and CRC-64 of the tier and journal checks. -/
namespace Sys2Proof.Machine
open Sys2Proof

/-- One step of the register for the bit `b` of the input (R406). -/
def ChkSlot.bitStep (c : ChkSlot) (r : Nat) (b : Bool) : Nat :=
  let top := bit r (c.width - 1) != b
  let r' := 2 * r % 2 ^ c.width
  if top then r' ^^^ c.poly else r'

/-- The running value fed with one byte (R406). -/
def ChkSlot.feedByte (c : ChkSlot) (r : Nat) (x : Byte) : Nat :=
  let v := if c.refin then revBits 8 x.toNat else x.toNat
  [7, 6, 5, 4, 3, 2, 1, 0].foldl (fun r i => c.bitStep r (bit v i)) r

/-- The running value fed with bytes. -/
def ChkSlot.feed (c : ChkSlot) (r : Nat) (bs : List Byte) : Nat := bs.foldl c.feedByte r

/-- The final value of a running value (R406). -/
def ChkSlot.final (c : ChkSlot) (r : Nat) : Nat :=
  ((if c.refout then revBits c.width r else r) ^^^ c.xorout) % 2 ^ c.width

/-- The bytes of a final value: ceil(W / 8) of them (R409). -/
def ChkSlot.size (c : ChkSlot) : Nat := cdiv c.width 8

/-- A parameter block of 32 bytes, where it is well formed (R405). -/
def ChkSlot.ofBlock (bs : List Byte) : Option ChkSlot :=
  let w := byteAt bs 24
  let fl := byteAt bs 25
  let p := leAt bs 0 8
  let i := leAt bs 8 8
  let x := leAt bs 16 8
  if 8 ≤ w ∧ w ≤ 64 ∧ p < 2 ^ w ∧ i < 2 ^ w ∧ x < 2 ^ w ∧ fl < 4 ∧ leAt bs 26 6 = 0 then
    some { width := w, poly := p, init := i, xorout := x, refin := bit fl 0, refout := bit fl 1, run := i }
  else none

/-- CRC-64/XZ (R407). -/
def crc64Xz : ChkSlot :=
  { width := 64, poly := 0x42F0E1EBA9EA3693, init := 2 ^ 64 - 1, xorout := 2 ^ 64 - 1, refin := true, refout := true }

/-- CRC-64/XZ of bytes. -/
def crc64 (bs : List Byte) : Nat := crc64Xz.final (crc64Xz.feed crc64Xz.init bs)

end Sys2Proof.Machine
end

