-- ==== Sys2Proof/Machine/Sha.lean ====
section
/-! DEFINITION. SHA-256, by which a program image carries its DIGEST (R209). -/
namespace Sys2Proof.Machine
open Sys2Proof

/-- Round constants 0 to 7. -/
def shaK0 : List Nat :=
  [0x428a2f98, 0x71374491, 0xb5c0fbcf, 0xe9b5dba5, 0x3956c25b, 0x59f111f1, 0x923f82a4, 0xab1c5ed5]

/-- Round constants 8 to 15. -/
def shaK1 : List Nat :=
  [0xd807aa98, 0x12835b01, 0x243185be, 0x550c7dc3, 0x72be5d74, 0x80deb1fe, 0x9bdc06a7, 0xc19bf174]

/-- Round constants 16 to 23. -/
def shaK2 : List Nat :=
  [0xe49b69c1, 0xefbe4786, 0x0fc19dc6, 0x240ca1cc, 0x2de92c6f, 0x4a7484aa, 0x5cb0a9dc, 0x76f988da]

/-- Round constants 24 to 31. -/
def shaK3 : List Nat :=
  [0x983e5152, 0xa831c66d, 0xb00327c8, 0xbf597fc7, 0xc6e00bf3, 0xd5a79147, 0x06ca6351, 0x14292967]

/-- Round constants 32 to 39. -/
def shaK4 : List Nat :=
  [0x27b70a85, 0x2e1b2138, 0x4d2c6dfc, 0x53380d13, 0x650a7354, 0x766a0abb, 0x81c2c92e, 0x92722c85]

/-- Round constants 40 to 47. -/
def shaK5 : List Nat :=
  [0xa2bfe8a1, 0xa81a664b, 0xc24b8b70, 0xc76c51a3, 0xd192e819, 0xd6990624, 0xf40e3585, 0x106aa070]

/-- Round constants 48 to 55. -/
def shaK6 : List Nat :=
  [0x19a4c116, 0x1e376c08, 0x2748774c, 0x34b0bcb5, 0x391c0cb3, 0x4ed8aa4a, 0x5b9cca4f, 0x682e6ff3]

/-- Round constants 56 to 63. -/
def shaK7 : List Nat :=
  [0x748f82ee, 0x78a5636f, 0x84c87814, 0x8cc70208, 0x90befffa, 0xa4506ceb, 0xbef9a3f7, 0xc67178f2]

/-- The round constants. -/
def shaK : List Nat := shaK0 ++ shaK1 ++ shaK2 ++ shaK3 ++ shaK4 ++ shaK5 ++ shaK6 ++ shaK7

/-- The initial hash value. -/
def shaH0 : List Nat :=
  [0x6a09e667, 0xbb67ae85, 0x3c6ef372, 0xa54ff53a, 0x510e527f, 0x9b05688c, 0x1f83d9ab, 0x5be0cd19]

/-- A 32-bit word rotated right. -/
def rotr (n x : Nat) : Nat := x / 2 ^ n + x % 2 ^ n * 2 ^ (32 - n)

/-- The next word of the message schedule, from the 16 before it, newest first. -/
def shaNext (ws : List Nat) : Nat :=
  let a := ws.getD 14 0
  let b := ws.getD 1 0
  let s0 := rotr 7 a ^^^ rotr 18 a ^^^ (a / 2 ^ 3)
  let s1 := rotr 17 b ^^^ rotr 19 b ^^^ (b / 2 ^ 10)
  (ws.getD 15 0 + s0 + ws.getD 6 0 + s1) % 2 ^ 32

/-- The rounds of one block: round constants still to come, the next words of the schedule that are known, the 16 words used last (newest first), and the
working variables. -/
def shaRounds : List Nat → List Nat → List Nat → List Nat → List Nat
  | [], _, _, v => v
  | k :: ks, todo, ws, v =>
    let w := match todo with | w :: _ => w | [] => shaNext ws
    let e := v.getD 4 0
    let a := v.getD 0 0
    let ch := (e &&& v.getD 5 0) ^^^ ((2 ^ 32 - 1 - e) &&& v.getD 6 0)
    let t1 := v.getD 7 0 + (rotr 6 e ^^^ rotr 11 e ^^^ rotr 25 e) + ch + k + w
    let maj := (a &&& v.getD 1 0) ^^^ (a &&& v.getD 2 0) ^^^ (v.getD 1 0 &&& v.getD 2 0)
    let t2 := (rotr 2 a ^^^ rotr 13 a ^^^ rotr 22 a) + maj
    shaRounds ks (todo.drop 1) ((w :: ws).take 16)
      [(t1 + t2) % 2 ^ 32, a, v.getD 1 0, v.getD 2 0, (v.getD 3 0 + t1) % 2 ^ 32, e, v.getD 5 0, v.getD 6 0]

/-- The hash after the blocks of a padded message; the first argument bounds their number. -/
def shaBlocks : Nat → List Byte → List Nat → List Nat
  | 0, _, h => h
  | n + 1, bs, h =>
    let ws := (List.range 16).map (fun i => ofBe ((bs.drop (4 * i)).take 4))
    shaBlocks n (bs.drop 64) (List.zipWith (fun x y => (x + y) % 2 ^ 32) h (shaRounds shaK ws [] h))

/-- SHA-256 of bytes. -/
def sha256 (bs : List Byte) : List Byte :=
  let n := bs.length
  let pad := (119 - n % 64) % 64
  let m := bs ++ [0x80] ++ List.replicate pad 0 ++ beBytes 8 (8 * n)
  (shaBlocks (m.length / 64) m shaH0).flatMap (beBytes 4)

/-! ### SHA-384 (R484, R485) -/

/-- Round constants 0 to 7 of SHA-384. -/
def sha5K0 : List Nat :=
  [0x428a2f98d728ae22, 0x7137449123ef65cd, 0xb5c0fbcfec4d3b2f, 0xe9b5dba58189dbbc,
   0x3956c25bf348b538, 0x59f111f1b605d019, 0x923f82a4af194f9b, 0xab1c5ed5da6d8118]

/-- Round constants 8 to 15 of SHA-384. -/
def sha5K1 : List Nat :=
  [0xd807aa98a3030242, 0x12835b0145706fbe, 0x243185be4ee4b28c, 0x550c7dc3d5ffb4e2,
   0x72be5d74f27b896f, 0x80deb1fe3b1696b1, 0x9bdc06a725c71235, 0xc19bf174cf692694]

/-- Round constants 16 to 23 of SHA-384. -/
def sha5K2 : List Nat :=
  [0xe49b69c19ef14ad2, 0xefbe4786384f25e3, 0x0fc19dc68b8cd5b5, 0x240ca1cc77ac9c65,
   0x2de92c6f592b0275, 0x4a7484aa6ea6e483, 0x5cb0a9dcbd41fbd4, 0x76f988da831153b5]

/-- Round constants 24 to 31 of SHA-384. -/
def sha5K3 : List Nat :=
  [0x983e5152ee66dfab, 0xa831c66d2db43210, 0xb00327c898fb213f, 0xbf597fc7beef0ee4,
   0xc6e00bf33da88fc2, 0xd5a79147930aa725, 0x06ca6351e003826f, 0x142929670a0e6e70]

/-- Round constants 32 to 39 of SHA-384. -/
def sha5K4 : List Nat :=
  [0x27b70a8546d22ffc, 0x2e1b21385c26c926, 0x4d2c6dfc5ac42aed, 0x53380d139d95b3df,
   0x650a73548baf63de, 0x766a0abb3c77b2a8, 0x81c2c92e47edaee6, 0x92722c851482353b]

/-- Round constants 40 to 47 of SHA-384. -/
def sha5K5 : List Nat :=
  [0xa2bfe8a14cf10364, 0xa81a664bbc423001, 0xc24b8b70d0f89791, 0xc76c51a30654be30,
   0xd192e819d6ef5218, 0xd69906245565a910, 0xf40e35855771202a, 0x106aa07032bbd1b8]

/-- Round constants 48 to 55 of SHA-384. -/
def sha5K6 : List Nat :=
  [0x19a4c116b8d2d0c8, 0x1e376c085141ab53, 0x2748774cdf8eeb99, 0x34b0bcb5e19b48a8,
   0x391c0cb3c5c95a63, 0x4ed8aa4ae3418acb, 0x5b9cca4f7763e373, 0x682e6ff3d6b2b8a3]

/-- Round constants 56 to 63 of SHA-384. -/
def sha5K7 : List Nat :=
  [0x748f82ee5defb2fc, 0x78a5636f43172f60, 0x84c87814a1f0ab72, 0x8cc702081a6439ec,
   0x90befffa23631e28, 0xa4506cebde82bde9, 0xbef9a3f7b2c67915, 0xc67178f2e372532b]

/-- Round constants 64 to 71 of SHA-384. -/
def sha5K8 : List Nat :=
  [0xca273eceea26619c, 0xd186b8c721c0c207, 0xeada7dd6cde0eb1e, 0xf57d4f7fee6ed178,
   0x06f067aa72176fba, 0x0a637dc5a2c898a6, 0x113f9804bef90dae, 0x1b710b35131c471b]

/-- Round constants 72 to 79 of SHA-384. -/
def sha5K9 : List Nat :=
  [0x28db77f523047d84, 0x32caab7b40c72493, 0x3c9ebe0a15c9bebc, 0x431d67c49c100d4c,
   0x4cc5d4becb3e42b6, 0x597f299cfc657e2a, 0x5fcb6fab3ad6faec, 0x6c44198c4a475817]

/-- The round constants of SHA-384. -/
def sha5K : List Nat := sha5K0 ++ sha5K1 ++ sha5K2 ++ sha5K3 ++ sha5K4 ++ sha5K5 ++ sha5K6 ++ sha5K7 ++ sha5K8 ++ sha5K9

/-- The initial hash value of SHA-384. -/
def sha5H0 : List Nat :=
  [0xcbbb9d5dc1059ed8, 0x629a292a367cd507, 0x9159015a3070dd17, 0x152fecd8f70e5939,
   0x67332667ffc00b31, 0x8eb44a8768581511, 0xdb0c2e0d64f98fa7, 0x47b5481dbefa4fa4]

/-- A 64-bit word rotated right. -/
def rotr64 (n x : Nat) : Nat := x / 2 ^ n + x % 2 ^ n * 2 ^ (64 - n)

/-- The next word of the message schedule of SHA-384, from the 16 before it, newest first. -/
def sha5Next (ws : List Nat) : Nat :=
  let a := ws.getD 14 0
  let b := ws.getD 1 0
  (ws.getD 15 0 + (rotr64 1 a ^^^ rotr64 8 a ^^^ (a / 2 ^ 7)) + ws.getD 6 0 + (rotr64 19 b ^^^ rotr64 61 b ^^^ (b / 2 ^ 6))) % 2 ^ 64

/-- The rounds of one block of SHA-384, with the arguments of `shaRounds`. -/
def sha5Rounds : List Nat → List Nat → List Nat → List Nat → List Nat
  | [], _, _, v => v
  | k :: ks, todo, ws, v =>
    let w := match todo with | w :: _ => w | [] => sha5Next ws
    let e := v.getD 4 0
    let a := v.getD 0 0
    let ch := (e &&& v.getD 5 0) ^^^ ((2 ^ 64 - 1 - e) &&& v.getD 6 0)
    let t1 := v.getD 7 0 + (rotr64 14 e ^^^ rotr64 18 e ^^^ rotr64 41 e) + ch + k + w
    let maj := (a &&& v.getD 1 0) ^^^ (a &&& v.getD 2 0) ^^^ (v.getD 1 0 &&& v.getD 2 0)
    let t2 := (rotr64 28 a ^^^ rotr64 34 a ^^^ rotr64 39 a) + maj
    sha5Rounds ks (todo.drop 1) ((w :: ws).take 16)
      [(t1 + t2) % 2 ^ 64, a, v.getD 1 0, v.getD 2 0, (v.getD 3 0 + t1) % 2 ^ 64, e, v.getD 5 0, v.getD 6 0]

/-- The hash of SHA-384 after the blocks of a padded message; the first argument bounds their number. -/
def sha5Blocks : Nat → List Byte → List Nat → List Nat
  | 0, _, h => h
  | n + 1, bs, h =>
    let ws := (List.range 16).map (fun i => ofBe ((bs.drop (8 * i)).take 8))
    sha5Blocks n (bs.drop 128) (List.zipWith (fun x y => (x + y) % 2 ^ 64) h (sha5Rounds sha5K ws [] h))

/-- SHA-384 of bytes. -/
def sha384 (bs : List Byte) : List Byte :=
  let n := bs.length
  let pad := (239 - n % 128) % 128
  let m := bs ++ [0x80] ++ List.replicate pad 0 ++ beBytes 16 (8 * n)
  ((sha5Blocks (m.length / 128) m sha5H0).flatMap (beBytes 8)).take 48

end Sys2Proof.Machine
end

