-- ==== Sys2Proof/Machine/Aes.lean ====
section
/-! DEFINITION. The ciphers of memory protection (R472, R475, R476): AES-256, XTS over data units of 256 bytes, GHASH, and HKDF with SHA-384. -/
namespace Sys2Proof.Machine
open Sys2Proof

/-! ### AES-256 -/

/-- Rows 0 to 3 of the S-box. -/
def sbox0 : List Nat :=
  [0x63, 0x7c, 0x77, 0x7b, 0xf2, 0x6b, 0x6f, 0xc5, 0x30, 0x01, 0x67, 0x2b, 0xfe, 0xd7, 0xab, 0x76] ++
  [0xca, 0x82, 0xc9, 0x7d, 0xfa, 0x59, 0x47, 0xf0, 0xad, 0xd4, 0xa2, 0xaf, 0x9c, 0xa4, 0x72, 0xc0] ++
  [0xb7, 0xfd, 0x93, 0x26, 0x36, 0x3f, 0xf7, 0xcc, 0x34, 0xa5, 0xe5, 0xf1, 0x71, 0xd8, 0x31, 0x15] ++
  [0x04, 0xc7, 0x23, 0xc3, 0x18, 0x96, 0x05, 0x9a, 0x07, 0x12, 0x80, 0xe2, 0xeb, 0x27, 0xb2, 0x75]

/-- Rows 4 to 7 of the S-box. -/
def sbox1 : List Nat :=
  [0x09, 0x83, 0x2c, 0x1a, 0x1b, 0x6e, 0x5a, 0xa0, 0x52, 0x3b, 0xd6, 0xb3, 0x29, 0xe3, 0x2f, 0x84] ++
  [0x53, 0xd1, 0x00, 0xed, 0x20, 0xfc, 0xb1, 0x5b, 0x6a, 0xcb, 0xbe, 0x39, 0x4a, 0x4c, 0x58, 0xcf] ++
  [0xd0, 0xef, 0xaa, 0xfb, 0x43, 0x4d, 0x33, 0x85, 0x45, 0xf9, 0x02, 0x7f, 0x50, 0x3c, 0x9f, 0xa8] ++
  [0x51, 0xa3, 0x40, 0x8f, 0x92, 0x9d, 0x38, 0xf5, 0xbc, 0xb6, 0xda, 0x21, 0x10, 0xff, 0xf3, 0xd2]

/-- Rows 8 to 11 of the S-box. -/
def sbox2 : List Nat :=
  [0xcd, 0x0c, 0x13, 0xec, 0x5f, 0x97, 0x44, 0x17, 0xc4, 0xa7, 0x7e, 0x3d, 0x64, 0x5d, 0x19, 0x73] ++
  [0x60, 0x81, 0x4f, 0xdc, 0x22, 0x2a, 0x90, 0x88, 0x46, 0xee, 0xb8, 0x14, 0xde, 0x5e, 0x0b, 0xdb] ++
  [0xe0, 0x32, 0x3a, 0x0a, 0x49, 0x06, 0x24, 0x5c, 0xc2, 0xd3, 0xac, 0x62, 0x91, 0x95, 0xe4, 0x79] ++
  [0xe7, 0xc8, 0x37, 0x6d, 0x8d, 0xd5, 0x4e, 0xa9, 0x6c, 0x56, 0xf4, 0xea, 0x65, 0x7a, 0xae, 0x08]

/-- Rows 12 to 15 of the S-box. -/
def sbox3 : List Nat :=
  [0xba, 0x78, 0x25, 0x2e, 0x1c, 0xa6, 0xb4, 0xc6, 0xe8, 0xdd, 0x74, 0x1f, 0x4b, 0xbd, 0x8b, 0x8a] ++
  [0x70, 0x3e, 0xb5, 0x66, 0x48, 0x03, 0xf6, 0x0e, 0x61, 0x35, 0x57, 0xb9, 0x86, 0xc1, 0x1d, 0x9e] ++
  [0xe1, 0xf8, 0x98, 0x11, 0x69, 0xd9, 0x8e, 0x94, 0x9b, 0x1e, 0x87, 0xe9, 0xce, 0x55, 0x28, 0xdf] ++
  [0x8c, 0xa1, 0x89, 0x0d, 0xbf, 0xe6, 0x42, 0x68, 0x41, 0x99, 0x2d, 0x0f, 0xb0, 0x54, 0xbb, 0x16]

/-- The S-box. -/
def sbox : List Nat := sbox0 ++ sbox1 ++ sbox2 ++ sbox3

/-- A byte through the S-box. -/
def subByte (x : Nat) : Nat := sbox.getD x 0
/-- A byte back through the S-box. -/
def unsubByte (x : Nat) : Nat := sbox.idxOf x

/-- A byte multiplied by x in the field of AES. -/
def xtime (a : Nat) : Nat := if a < 128 then 2 * a else (2 * a - 256) ^^^ 0x1B

/-- Product of bytes in the field of AES, over the low n bits of the first. -/
def gmul : Nat → Nat → Nat → Nat
  | 0, _, _ => 0
  | n + 1, k, a => (if k % 2 = 1 then a else 0) ^^^ gmul n (k / 2) (xtime a)

/-- XOR of lists. -/
def xorl (a b : List Nat) : List Nat := List.zipWith (· ^^^ ·) a b

/-- The words of the key schedule after the first 8, newest first; the first argument bounds their number and the second numbers them. -/
def aesExpand : Nat → Nat → List (List Nat) → List (List Nat)
  | 0, _, ws => ws
  | n + 1, i, ws =>
    let t := ws.headD []
    let u := if i % 8 = 0 then xorl ((t.drop 1 ++ t.take 1).map subByte) [2 ^ (i / 8 - 1), 0, 0, 0]
      else if i % 8 = 4 then t.map subByte else t
    aesExpand n (i + 1) (xorl (ws.getD 7 []) u :: ws)

/-- A list cut into pieces of k; the first argument bounds their number. -/
def chunks (k : Nat) : Nat → List Nat → List (List Nat)
  | 0, _ => []
  | n + 1, l => l.take k :: chunks k n (l.drop k)

/-- The 15 round keys of a 32-byte key. -/
def aesKeys (key : List Nat) : List (List Nat) := chunks 16 15 (aesExpand 52 8 (chunks 4 8 key).reverse).reverse.flatten

/-- Rows of the state shifted: byte i of the result is byte 5 i of the state, modulo 16; the state lies column by column. -/
def shiftRows (k : Nat) (st : List Nat) : List Nat := (List.range 16).map (fun i => st.getD (k * i % 16) 0)

/-- Columns mixed with the coefficients of row 0. -/
def mixColumns (co st : List Nat) : List Nat :=
  (List.range 16).map (fun i => (List.range 4).foldl (fun a j => a ^^^ gmul 8 (co.getD ((j + 4 - i % 4) % 4) 0) (st.getD (i / 4 * 4 + j) 0)) 0)

/-- Rounds of AES with the round keys after the first. -/
def aesRounds : List (List Nat) → List Nat → List Nat
  | [], st => st
  | [k], st => xorl (shiftRows 5 (st.map subByte)) k
  | k :: ks, st => aesRounds ks (xorl (mixColumns [2, 3, 1, 1] (shiftRows 5 (st.map subByte))) k)

/-- AES-256 encryption of a 16-byte block. -/
def aesEnc (key blk : List Nat) : List Nat :=
  let ks := aesKeys key
  aesRounds (ks.drop 1) (xorl blk (ks.headD []))

/-- Rounds of AES undone, with the round keys from the last to the first. -/
def aesUnrounds : List (List Nat) → List Nat → List Nat
  | [], st => st
  | [k], st => xorl ((shiftRows 13 st).map unsubByte) k
  | k :: ks, st => aesUnrounds ks (mixColumns [14, 11, 13, 9] (xorl ((shiftRows 13 st).map unsubByte) k))

/-- AES-256 decryption of a 16-byte block. -/
def aesDec (key blk : List Nat) : List Nat :=
  let ks := (aesKeys key).reverse
  aesUnrounds (ks.drop 1) (xorl blk (ks.headD []))

/-! ### XTS (IEEE 1619) -/

/-- Numbers of bytes. -/
def nats (bs : List Byte) : List Nat := bs.map (·.toNat)
/-- Bytes of numbers. -/
def byteList (l : List Nat) : List Byte := l.map (BitVec.ofNat 8)

/-- The tweak of the next 16 bytes: multiplied by x, as a little-endian integer of 128 bits. -/
def xtsNext (t : Nat) : Nat := if t < 2 ^ 127 then 2 * t else (2 * t - 2 ^ 128) ^^^ 0x87

/-- The 16-byte blocks of a data unit through a cipher between two additions of the tweak. -/
def xtsBlocks (f : List Nat → List Nat) (t : Nat) : List (List Nat) → List Nat
  | [] => []
  | b :: bs =>
    let w := nats (leBytes 16 t)
    xorl (f (xorl b w)) w ++ xtsBlocks f (xtsNext t) bs

/-- The first tweak of a data unit. -/
def xtsTweak (k2 : List Nat) (unit : Nat) : Nat := ofLe (byteList (aesEnc k2 (nats (leBytes 16 unit))))

/-- AES-256-XTS encryption of a data unit of 256 bytes under its number (R475). -/
def xtsEnc (k1 k2 : List Nat) (unit : Nat) (bs : List Byte) : List Byte :=
  byteList (xtsBlocks (aesEnc k1) (xtsTweak k2 unit) (chunks 16 16 (nats bs)))

/-- AES-256-XTS decryption of a data unit of 256 bytes (R475). -/
def xtsDec (k1 k2 : List Nat) (unit : Nat) (bs : List Byte) : List Byte :=
  byteList (xtsBlocks (aesDec k1) (xtsTweak k2 unit) (chunks 16 16 (nats bs)))

/-! ### GHASH -/

/-- Product in the field of GHASH of blocks whose first bit is the most significant bit of a 128-bit number: the first argument counts the bits of x that are left. -/
def ghMul : Nat → Nat → Nat → Nat
  | 0, _, _ => 0
  | n + 1, x, v => (if bit x n then v else 0) ^^^ ghMul n x (if v % 2 = 1 then (v / 2) ^^^ (0xE1 * 2 ^ 120) else v / 2)

/-- GHASH of whole 16-byte blocks under the hash key h. -/
def ghash (h : Nat) (bs : List Byte) : List Byte :=
  beBytes 16 ((chunks 16 (bs.length / 16) (nats bs)).foldl (fun y b => ghMul 128 (y ^^^ ofBe (byteList b)) h) 0)

/-! ### HKDF-SHA-384 (RFC 5869) -/

/-- HMAC-SHA-384. -/
def hmac384 (key msg : List Byte) : List Byte :=
  let k0 := if 128 < key.length then sha384 key else key
  let k := k0 ++ List.replicate (128 - k0.length) 0
  sha384 (k.map (· ^^^ 0x5C) ++ sha384 (k.map (· ^^^ 0x36) ++ msg))

/-- HKDF-Extract. -/
def hkdfExtract (salt ikm : List Byte) : List Byte := hmac384 salt ikm

/-- Blocks of HKDF-Expand from number i on, after the block t. -/
def hkdfBlocks (prk info : List Byte) : Nat → Nat → List Byte → List Byte
  | 0, _, _ => []
  | n + 1, i, t =>
    let u := hmac384 prk (t ++ info ++ leBytes 1 i)
    u ++ hkdfBlocks prk info n (i + 1) u

/-- HKDF-Expand to len bytes. -/
def hkdfExpand (prk info : List Byte) (len : Nat) : List Byte := (hkdfBlocks prk info (cdiv len 48) 1 []).take len

end Sys2Proof.Machine
end

