-- ==== Sys2Proof/Machine/Curve.lean ====
section
/-! DEFINITION. The curve P-384 (R472, R479, R480): points, their sums and multiples. -/
namespace Sys2Proof.Machine
open Sys2Proof

/-- The prime of P-384.
[Marks: DEDUCED, log entry 19.] -/
def p384 : Nat := 2 ^ 384 - 2 ^ 128 - 2 ^ 96 + 2 ^ 32 - 1

/-- The coefficient b of P-384. -/
def p384b : Nat := 0xb3312fa7e23ee7e4988e056be3f82d19181d9c6efe8141120314088f5013875ac656398d8a2ed19d2a85c8edd3ec2aef

/-- The order of the group. -/
def p384n : Nat := 0xffffffffffffffffffffffffffffffffffffffffffffffffc7634d81f4372ddf581a0db248b0a77aecec196accc52973

/-- The base point. -/
def p384G : Option (Nat × Nat) := some
  (0xaa87ca22be8b05378eb1c71ef320ad746e1d3b628ba79b9859f741e082542a385502f25dbf55296c3a545e3872760ab7,
   0x3617de4a96262c6f5d9e98bf9292dc29f8f41dbd289a147ce9da3113b5f0b8c00a60b1ce1d7e819d7a431d7c90ea0e5f)

/-- A point lies on P-384: y^2 = x^3 - 3x + b.
[Marks: DEDUCED, log entry 19.] -/
def onP384 (x y : Nat) : Bool := decide (x < p384) && decide (y < p384) && decide (y * y % p384 = (x * x * x + (p384 - 3) * x + p384b) % p384)

/-- A power modulo p, over the low n bits of the exponent. -/
def powMod : Nat → Nat → Nat → Nat
  | 0, _, _ => 1
  | n + 1, a, e => (if e % 2 = 1 then a else 1) * powMod n (a * a % p384) (e / 2) % p384

/-- The inverse modulo p. -/
def invMod (a : Nat) : Nat := powMod 384 (a % p384) (p384 - 2)

/-- The chord or tangent of slope m from (x1, y1), with the other point at x2: the sum. -/
def chord (m x1 y1 x2 : Nat) : Option (Nat × Nat) :=
  let x := (m * m + 2 * p384 - x1 - x2) % p384
  some (x, (m * (x1 + p384 - x) + p384 - y1) % p384)

/-- The sum of two points; none is the point at infinity. -/
def ptAdd : Option (Nat × Nat) → Option (Nat × Nat) → Option (Nat × Nat)
  | none, q => q
  | p, none => p
  | some (x1, y1), some (x2, y2) =>
    if x1 = x2 then
      if (y1 + y2) % p384 = 0 then none
      else chord ((3 * x1 * x1 + (p384 - 3)) * invMod (2 * y1) % p384) x1 y1 x2
    else chord ((y2 + p384 - y1) * invMod (x2 + p384 - x1) % p384) x1 y1 x2

/-- A multiple of a point, over the low n bits of the factor. -/
def ptMul : Nat → Nat → Option (Nat × Nat) → Option (Nat × Nat)
  | 0, _, _ => none
  | n + 1, k, p => ptAdd (if k % 2 = 1 then p else none) (ptMul n (k / 2) (ptAdd p p))

end Sys2Proof.Machine
end

