-- ==== Sys2Proof/Machine/Domain.lean ====
section
/-! DEFINITION. Changes of the mirrored domain (R508 to R511). -/
namespace Sys2Proof.Machine
open Sys2Proof

/-- CROWN_MIRROR_STATUS.STATE values (R509). -/
def mirOff : Nat := 0
/-- RESYNC. -/
def mirResync : Nat := 1
/-- PAIRED. -/
def mirPaired : Nat := 2
/-- SOLO. -/
def mirSolo : Nat := 3
/-- LOST. -/
def mirLost : Nat := 4
/-- ADOPTING. -/
def mirAdopting : Nat := 5

/-- State of the pair. -/
def State.mirror (s : State) : Nat := s.r F.CROWN_MIRROR_STATUS.STATE []

/-- A change of the switch's domain: an update in the ordered stream while copies are exchanged or kept, which carries what now stands there (R510); in SOLO the SOLO mark
is written before the first change (R511).
[Marks: DESIGN CHOICE, log entry 50.] -/
def domainChange (what : State → DomUpd) : Prog := rd fun s =>
  if s.mirror = mirPaired ∨ s.mirror = mirResync then
    let n := (s.r F.CROWN_MIRROR_TX_SEQ.SEQ [] + 1) % 2 ^ 64
    .all [wr F.CROWN_MIRROR_TX_SEQ.SEQ [] n, .eff (.mir { s.mir with tx := s.mir.tx + 1, out := s.mir.out ++ [(s.mir.tx, n, what s)] }),
      send (.mirror s.mir.tx n (what s))]
  else if s.mirror = mirSolo ∧ s.r F.CROWN_MIRROR_STATUS.SOLO_MARK [] = 0 then
    wr F.CROWN_MIRROR_STATUS.SOLO_MARK [] 1
  else .skip

/-- A knot has changed (R362). -/
def knotChange (n : Nat) : Prog := domainChange (fun s => .knot n (SMap.get {} s.knots.kn n))
/-- A line of the Hitch directory has changed (R191). -/
def dirChange (l : Nat) : Prog := domainChange (fun s => .dir l (SMap.get none s.hitch.dir l))
/-- The Cleat entries have changed (R384). -/
def cleatChange : Prog := domainChange (fun s => .cleat s.cleat.ents)
/-- An extent has changed (R136). -/
def extChange (e : Nat) : Prog := domainChange (fun s => .ext e (SMap.get {} s.pool.exts e))
/-- A page of the page map has changed (R136). -/
def pageChange (p : Nat) : Prog := domainChange (fun s => .page p (SMap.get {} s.pool.pages p))
/-- The parity update table has changed (R121). -/
def rowsChange : Prog := domainChange (fun s => .rows s.pool.rows)
/-- A tray has a new journal group (R146). -/
def flashChange (t : Nat) : Prog := domainChange (fun s => .flash t (SMap.get {} s.pool.flash t))
/-- A register field of the domain has changed: partition states and keys, knot configuration, FELT_STAGE and FELT_ROUTE_EPOCH (R97, R362, R473). -/
def regChange (f : Fld) (ix : List Nat) : Prog := domainChange (fun s => .reg (f.key ix) (s.r f ix))

/-- The pair enters SOLO under cause 0x884 (R509). `keep`: the copy of the partner's domain stays complete, since the partner sent a REASON 0 fence or was lost abruptly (R512).
[Marks: DESIGN CHOICE, log entry 50.] -/
def toSolo (keep : Bool) : Prog := rd fun s =>
  let m := s.mirror
  if (m ≠ mirPaired ∧ m ≠ mirResync) ∨ s.boot.pend.isSome then .skip
  else .all [
    wr F.CROWN_MIRROR_STATUS.STATE [] mirSolo, wr F.CROWN_MIRROR_STATUS.OWN_COPY [] 0,
    wr F.CROWN_MIRROR_STATUS.HELD [] (if s.mir.held.isNone then 0 else if keep ∧ m = mirPaired then 1 else 2),
    .eff (.mir { s.mir with out := [] }), log { src := srcCrown, cause := 0x884, sev := 1 }]

/-- The mirror link goes down: no octet has lock, and the pair is SOLO (R444, R509).
[Marks: DESIGN CHOICE, log entry 50.] -/
def mirrorDown (keep : Bool) : Prog := .all [rd fun s => .eff (.mir { s.mir with octs := 0 }), toSolo keep]

/-- RESYNC begins, under cause 0x880 (R509): both copies are sent again from the start of a new stream of link frames.
[Marks: DESIGN CHOICE, log entry 50.] -/
def toResync : Prog := rd fun s => .all [
  wr F.CROWN_MIRROR_STATUS.STATE [] mirResync, wr F.CROWN_MIRROR_STATUS.OWN_COPY [] 0,
  wr F.CROWN_MIRROR_STATUS.HELD [] (if s.mir.held.isNone then 0 else 2),
  .eff (.mir { s.mir with tx := 0, rx := 0, out := [] }), log { src := srcCrown, cause := 0x880, sev := 0 }]

/-- The state of a partition changes (R466): it is shown, kept in the key state record (R473, R487) and mirrored. -/
def setPart (p st : Nat) : Prog := rd fun s => .all [
  wr F.CROWN_PART_CTRL.STATE [p] st,
  .eff (.boot { s.boot with keys := SMap.set {} s.boot.keys p { SMap.get {} s.boot.keys p with st := st } }),
  regChange F.CROWN_PART_CTRL.STATE [p]]

end Sys2Proof.Machine
end

