-- ==== Sys2Proof/Machine/Wire.lean ====
section
/-! DEFINITION. Sending on a BTP connection and answering a request (R47 to R58, R67, R71 to R77): what every unit uses to end a request. -/
namespace Sys2Proof.Machine
open Sys2Proof

/-! ### Connections -/

/-- A connection. -/
def State.conn (s : State) (c : Nat) : Conn := SMap.get {} s.btp.conns c

/-- The Brim die that holds a connection (R63). -/
def connDie (c : Nat) : Nat := c / 8192

/-- The Brim die of a queue pair (R88). -/
def qpDie (n : Nat) : Nat := n / 2048

/-- A request. -/
def State.req (s : State) (r : Nat) : Option Req := SMap.get none s.btp.reqs r

/-- The requests that satisfy a test, oldest first; received responses are none. -/
def State.reqsWith (s : State) (p : Req → Bool) : List (Nat × Req) :=
  s.btp.reqs.filterMap (fun e => match e.2 with
    | some q => if p q && !q.resp then some (e.1, q) else none
    | none => none)

/-- The requests that a connection holds open. -/
def State.openOn (s : State) (c : Nat) : List (Nat × Req) := s.reqsWith (fun q => decide (q.src = .conn c))

/-- MAX_OUTSTANDING of a connection; a value of 0 acts as the default 64 (R64).
[Marks: DESIGN CHOICE, log entry 24.] -/
def Conn.limit (x : Conn) : Nat := if x.maxOut = 0 then 64 else x.maxOut

/-- CREDIT of a packet sent on a connection (R67). -/
def State.credit (s : State) (c : Nat) : Nat := (s.conn c).limit - (s.openOn c).length

/-- ACK_PSN of a connection: every PSN up to it has been received. -/
def Conn.ackPsn (x : Conn) : Nat := (x.rxNext + 2 ^ 32 - 1) % 2 ^ 32

/-- The SACK word, where packets are held above a gap (R55, R72). -/
def Conn.sack (x : Conn) : Option Nat :=
  if x.held.isEmpty then none
  else some (((List.range 64).map (fun i =>
    if x.held.any (fun p => p.psn = (x.rxNext + 1 + i) % 2 ^ 32) then 2 ^ i else 0)).sum)

/-- One of some ports of a connection, by its path hash.
[Marks: DESIGN CHOICE, log entry 25.] -/
def pathPick (c : Nat) (ps : List Nat) : Option Nat := ps[Config.pathIndex c ps.length % ps.length]?

/-- The port on which the packets of a connection leave (R449): of its PORT_SET the one that its path hash chooses, or, while that one is not UP, the one that the hash chooses of those that
are; with none UP they are held at the first.
[Marks: DESIGN CHOICE, log entry 25.] -/
def State.connPort (s : State) (c : Nat) : Option Nat :=
  let ps := (List.range 64).filter (bit (s.conn c).portSet)
  let up := ps.filter (fun m => decide (s.link (64 * connDie c + m) = lkUp))
  match pathPick c ps with
  | none => none
  | some m => if up.contains m then some m else some ((pathPick c up).getD m)

/-- The MTU of port m of die n in the sense of R49 (R441).
[Marks: DESIGN CHOICE, log entry 25.] -/
def State.mtu (s : State) (n m : Nat) : Nat :=
  s.r F.BRIM_PORT.MAX_FRAME [n, m] - 18 - (if s.rb F.TM_INPORT.SHARED [n, m] then 4 else 0) -
    (if s.rb F.BRIM_PORT.MACSEC_EN [n, m] then 24 else 0)

/-- The check-value setting i of a die (R409). -/
def State.chkSet (s : State) (n i : Nat) : ChkSlot :=
  { width := s.r F.BRIM_CHK_SET.WIDTH [n, i - 1], poly := s.r F.BRIM_CHK_SET.POLY [n, i - 1]
    init := s.r F.BRIM_CHK_SET.INIT [n, i - 1], xorout := s.r F.BRIM_CHK_SET.XOROUT [n, i - 1]
    refin := s.rb F.BRIM_CHK_SET.REFIN [n, i - 1], refout := s.rb F.BRIM_CHK_SET.REFOUT [n, i - 1] }

/-- The check value of a payload on a connection, and the running value after it: in PACKET scope from INIT, in TRANSFER scope from the running
value of the segments before (R410). `seg` is the offset of a segment of a segmented body. -/
def State.chkOf (s : State) (n i : Nat) (seg : Option Nat) (run : Nat) (data : List Byte) : List Byte × Nat :=
  let k := s.chkSet n i
  let r0 := match seg with
    | some o => if s.rb F.BRIM_CHK_SET.SCOPE [n, i - 1] ∧ o ≠ 0 then run else k.init
    | none => k.init
  let r := k.feed r0 data
  (beBytes k.size (k.final r), r)

/-- Extension words as bytes. -/
def extBytes (ws : List Nat) : List Byte := ws.flatMap (beBytes 8)

/-! ### The packet on the wire (R47 to R50) -/

/-- The base header as bytes, most significant first (R50). -/
def BtpHdr.bytes (h : BtpHdr) : List Byte :=
  beBytes 1 (h.ver * 16 + b2n h.sack * 8 + b2n h.chk * 4 + b2n h.ackValid * 2 + b2n h.resp) ++ beBytes 1 h.op ++ beBytes 2 h.dst ++
  beBytes 4 h.psn ++ beBytes 4 h.ackPsn ++ beBytes 2 h.epoch ++ beBytes 1 (h.ord * 64 + h.status) ++ beBytes 1 h.extN ++
  beBytes 4 h.tid ++ beBytes 2 h.plen ++ beBytes 2 h.credit

/-- The sum of the 16-bit words of a byte list, most significant byte first, an odd last byte padded with 0. -/
def sum16 : List Byte → Nat
  | a :: b :: bs => a.toNat * 256 + b.toNat + sum16 bs
  | [a] => a.toNat * 256
  | [] => 0

/-- The UDP checksum of a datagram over IPv6: the complement of the ones' complement sum over pseudo-header, UDP header and data; 0 is sent as 0xFFFF.
[Marks: DESIGN CHOICE, log entry 25.] -/
def udpCsum (src dst sport dport : Nat) (data : List Byte) : Nat :=
  let len := 8 + data.length
  let x := sum16 (beBytes 16 src ++ beBytes 16 dst ++ beBytes 4 len ++ beBytes 4 17 ++ beBytes 2 sport ++ beBytes 2 dport ++ beBytes 2 len) + sum16 data
  let c := 65535 - (if x = 0 then 0 else (x - 1) % 65535 + 1)
  if c = 0 then 65535 else c

/-- The network headers of a packet of a connection with given content: the hash of the connection ID with bit 15 set in the UDP source port and the flow
label, the port of BRIM_BTP_CTRL, ECT(0), and the checksum (R47, R48).
[Marks: DESIGN CHOICE, log entry 25.] -/
def State.netHdr (s : State) (c m : Nat) (content : List Byte) : NetHdr :=
  let h := (Config.connHash c).toNat % 32768 + 32768
  let a := Config.ownAddr (64 * connDie c + m)
  let d := s.r F.BRIM_BTP_CTRL.UDP_PORT [connDie c]
  { src := a, dst := (s.conn c).peerAddr, ecn := 2, flow := h, udpSrc := h, udpDst := d, csum := udpCsum a (s.conn c).peerAddr h d content }

/-- The base header of a packet that leaves on a connection. -/
def State.hdrOf (s : State) (c : Nat) (p : OutPkt) : BtpHdr :=
  let x := s.conn c
  { sack := false, chk := !p.chk.isEmpty, ackValid := p.naming.isNone, resp := p.resp, op := p.op, dst := x.peerConn, psn := p.psn
    ackPsn := p.naming.getD x.ackPsn, epoch := p.epoch, ord := p.ord, status := p.status, extN := p.ext.length / 8, tid := p.tid
    plen := p.data.length, credit := s.credit c }

/-- A packet of a connection as a message, by port m of its die. -/
def State.pktMsg (s : State) (c m : Nat) (h : BtpHdr) (ext data chk : List Byte) : Msg :=
  .btp c (s.netHdr c m (h.bytes ++ ext ++ data ++ chk)) h ext data chk

/-- The response queue of a port (R29). -/
def State.respQ (s : State) (p : Nat) : List Msg := SMap.get [] s.btp.respQs p

/-- A packet of a connection enters the response queue of its port, from which the port's scheduler lets it out (R28, R29), or is dropped and counted where it
exceeds the MTU of the port (R49). A connection without a port sends nothing.
[Marks: DESIGN CHOICE, log entry 25.] -/
def queuePkt (c : Nat) (h : BtpHdr) (ext data chk : List Byte) : Prog := rd fun s => Prog.opt (s.connPort c) fun m =>
  let p := 64 * connDie c + m
  if 72 + ext.length + data.length + chk.length ≤ s.mtu (connDie c) m then .eff (.respQ p (s.respQ p ++ [s.pktMsg c m h ext data chk]))
  else count F.BRIM_BTP_DROP_COUNT.COUNT [connDie c]

/-- A packet that the transport engine holds is put out.
[Marks: DESIGN CHOICE, log entry 24.] -/
def emit (c : Nat) (p : OutPkt) : Prog := rd fun s => queuePkt c (s.hdrOf c p) p.ext p.data p.chk

/-- The timer of a packet starts (R73, R99). -/
def State.timed (s : State) (c : Nat) (p : OutPkt) (rto : Nat) : OutPkt :=
  { p with rto := rto, limit := s.r F.BRIM_BTP_TIMER.RETRY_LIMIT [connDie c] }

/-- A packet is sent again, at most RETRY_LIMIT times: same PSN, TID, payload and check value, and the current route epoch (R73). Its timer
starts anew: at RTO_INIT, or at the value given. -/
def resend (c psn : Nat) (rto : Option Nat) : Prog := rd fun s =>
  let x := s.conn c
  match x.out.find? (fun p => p.psn = psn) with
  | none => .skip
  | some p =>
    if p.limit < p.sends then .skip
    else
      let p' := s.timed c { p with epoch := s.r F.FELT_ROUTE_EPOCH.CURRENT [], sends := p.sends + 1, flushed := false }
        (rto.getD (s.r F.BRIM_BTP_TIMER.RTO_INIT_US [connDie c]))
      .all [.eff (.conn c { x with out := x.out.map (fun o => if o.psn = psn then p' else o) }), emit c p']

/-- One packet is sent on a connection: it takes the next PSN and the current route epoch and is kept until it is acknowledged (R69, R71). It
carries ACK_PSN, so no ACK is due for what has been received without a gap (R72). What a flush of the port took is sent again with it (R433).
[Marks: DESIGN CHOICE, log entry 25.] -/
def sendPkt (c : Nat) (p : OutPkt) (seg : Option Nat := none) : Prog := .seq
  (rd fun s => Prog.each ((s.conn c).out.filter (·.flushed)) (fun o => resend c o.psn none))
  (rd fun s =>
    let x := s.conn c
    let n := connDie c
    let k := if x.chk = 0 ∨ p.data.isEmpty then ([], x.chkTx) else s.chkOf n x.chk seg x.chkTx p.data
    let p' := s.timed c { p with psn := x.txNext, chk := k.1, epoch := s.r F.FELT_ROUTE_EPOCH.CURRENT [] } (s.r F.BRIM_BTP_TIMER.RTO_INIT_US [n])
    .all [.eff (.conn c { x with
        txNext := (x.txNext + 1) % 2 ^ 32, out := x.out ++ [p'], chkTx := k.2
        unacked := if x.held.isEmpty ∧ p.naming.isNone then 0 else x.unacked }),
      emit c p'])

/-- The base header of an ACK: ACK_PSN, the next PSN of this side, which it does not consume, the current route epoch and CREDIT (R50, R67, R69). -/
def State.ackHdr (s : State) (c : Nat) : BtpHdr :=
  let x := s.conn c
  { sack := x.sack.isSome, chk := false, ackValid := true, resp := false, op := 0x00, dst := x.peerConn, psn := x.txNext, ackPsn := x.ackPsn
    epoch := s.r F.FELT_ROUTE_EPOCH.CURRENT [], ord := 0, status := 0, extN := b2n x.sack.isSome, tid := 0, plen := 0, credit := s.credit c }

/-- An ACK with ACK_PSN and, where a gap exists, the SACK word (R55, R72). -/
def sendAck (c : Nat) : Prog := rd fun s =>
  let x := s.conn c
  .all [.eff (.conn c { x with unacked := 0 }), queuePkt c (s.ackHdr c) (extBytes x.sack.toList) [] []]

/-- The segment word of an offset (R57). -/
def segWord (o : Nat) : Nat := o * 2 ^ 32

/-- A body cut into segments of up to 8,192 bytes, with their offsets; an empty body is one empty segment (R59, R96). -/
def segments : Nat → Nat → List Byte → List (Nat × List Byte)
  | 0, o, bs => [(o, bs)]
  | n + 1, o, bs => if bs.length ≤ 8192 then [(o, bs)] else (o, bs.take 8192) :: segments n (o + 8192) (bs.drop 8192)

/-- The packets of a response (R58): its extension words and payload, and the offset where it is a segment of a body. -/
def respPackets (q : Req) (data : List Byte) : List (List Nat × List Byte × Option Nat) :=
  if q.op = 0x14 then
    (segments 2048 0 data).map (fun p => (q.words.take 2 ++ [segWord p.1], p.2, some p.1))
  else if q.op = 0x31 ∨ q.op = 0x35 then
    (segments 2048 0 data).map (fun p => (q.words.take 3 ++ [segWord p.1], p.2, some p.1))
  else if q.op = 0x28 then
    (segments 2048 0 data).map (fun p => (q.words.take 3 ++ [data.length * 2 ^ 32 + p.1], p.2, some p.1))
  else [([], data, none)]

/-- The opcodes that are fenced by TID (R75). -/
def fencedOp (op : Nat) : Bool := [0x12, 0x13, 0x16, 0x30, 0x31, 0x32, 0x34, 0x35].contains op

/-! ### What follows the end of a request -/

/-- A draining extent whose OPEN_REQ reaches 0 enters DRAINED (R105). -/
def extDone (e : Option Nat) : Prog := Prog.opt e fun e => rd fun s =>
  let x := SMap.get {} s.pool.exts e
  let n := x.openReq - 1
  if x.st = .draining ∧ n = 0 then .all [.eff (.ext e { x with openReq := 0, st := .drained }), extChange e]
  else .eff (.ext e { x with openReq := n })

/-- Values of CROWN_PART_CTRL.STATE (R466). -/
def ptFree : Nat := 0
/-- CREATING. -/
def ptCreating : Nat := 1
/-- ACTIVE. -/
def ptActive : Nat := 2
/-- FENCING. -/
def ptFencing : Nat := 3
/-- FENCED. -/
def ptFenced : Nat := 4
/-- REMOVING. -/
def ptRemoving : Nat := 5
/-- SCRUBBING. -/
def ptScrubbing : Nat := 6

/-- State of a partition. -/
def State.partSt (s : State) (p : Nat) : Nat := s.r F.CROWN_PART_CTRL.STATE [p]

/-- A partition in FENCING to SCRUBBING answers PARTITION_FENCED (R466). -/
def State.fenced (s : State) (p : Nat) : Bool := decide (ptFencing ≤ s.partSt p)

/-- A partition becomes FENCED, or goes on to REMOVING where a REMOVE waits; FENCE completes (R467, R468). -/
def partFenced (p : Nat) : Prog := rd fun s => .all [
  setPart p (if s.rb F.CROWN_PART_CTRL.REMOVE [p] then ptRemoving else ptFenced),
  Prog.when (s.rb F.CROWN_PART_CTRL.FENCE [p]) (.all [
    wr F.CROWN_PART_CTRL.FENCE [p] 0, wr F.CROWN_PART_CTRL.DONE [p] 1, wr F.CROWN_PART_CTRL.RESULT [p] 0, msix 0])]

/-- A fencing partition whose last admitted request has ended becomes FENCED (R468). -/
def partCheck (p : Nat) : Prog := rd fun s =>
  if s.partSt p = ptFencing ∧ (s.reqsWith (fun q => decide (q.part = p))).isEmpty then partFenced p else .skip

/-- A CLOSING connection whose requests are all answered and acknowledged becomes FREE (R65). -/
def closeCheck (c : Nat) : Prog := rd fun s =>
  let x := s.conn c
  if x.st = .closing ∧ x.out.isEmpty ∧ (s.openOn c).isEmpty then .eff (.conn c {}) else .skip

/-- What follows the end of a request that has left the tables; the rest of a body still to come is discarded as it arrives. -/
def reqGone (q : Req) : Prog := .all [
  extDone q.ext, extDone q.ext2, partCheck q.part,
  match q.src with
  | .conn c => .all [
      Prog.when (decide (q.rcv < q.want)) (rd fun s =>
        if (s.conn c).st = .free then .skip else .eff (.conn c { s.conn c with ended := q.tid :: (s.conn c).ended })),
      closeCheck c]
  | _ => .skip]

/-- A request ends without an answer. -/
def dropReq (r : Nat) : Prog := rd fun s =>
  match s.req r with
  | none => .skip
  | some q => .all [.eff (.req r none), reqGone q]

/-! ### CXL responses (R166) -/

/-- Data with state I, for an uncached read. -/
def cxlData : Nat := 0
/-- GO-S with data. -/
def cxlGoS : Nat := 1
/-- GO-E with data. -/
def cxlGoE : Nat := 2
/-- GO-E without data. -/
def cxlGoENoData : Nat := 3
/-- GO-I. -/
def cxlGoI : Nat := 4
/-- GO-Err or an S2M error completion. -/
def cxlErr : Nat := 5
/-- GO_WritePull. -/
def cxlGoWritePull : Nat := 6
/-- WritePull, after which GO-I or GO-Err ends the write. -/
def cxlWritePull : Nat := 7
/-- GO-M with data, and ExtCmp, which no request of R170 is answered with.
[Marks: PRESUMED, log entry 27.] -/
def cxlGoM : Nat := 14
/-- ExtCmp.
[Marks: PRESUMED, log entry 27.] -/
def cxlExtCmp : Nat := 15
/-- Cmp. -/
def cxlCmp : Nat := 9
/-- Cmp-S. -/
def cxlCmpS : Nat := 10
/-- Cmp-E. -/
def cxlCmpE : Nat := 11
/-- BIConflictAck. -/
def cxlBiConflictAck : Nat := 12
/-- Data with the poison indication. -/
def cxlPoison : Nat := 13

/-- The port of an agent's link, over all dies. -/
def State.agentPort (s : State) (n : Nat) : Nat := 64 * s.r F.HITCH_AGENT.DIE [n] + s.r F.HITCH_AGENT.PORT [n]

/-- The CXL messages that take the data of a write and end it: WritePull and GO-I for WrInv, GO_WritePull for the other D2H writes, Cmp for an S2M one (R166).
[Marks: DEDUCED, log entry 27.] -/
def cxlWriteDone (op : Option CxlOp) : List Nat :=
  match op with
  | some .wrInv => [cxlWritePull, cxlGoI]
  | some .itoMWr | some .wrCur | some .dirtyEvict => [cxlGoWritePull]
  | _ => [cxlCmp]

/-- The CXL messages that end an uncached read or write with a status. -/
def cxlAnswer (q : Req) (status : Nat) : List Nat :=
  if status = stOk then (if q.op = 0x10 then [cxlData] else cxlWriteDone q.cxl)
  else [if status = stPoison ∧ q.op = 0x10 then cxlPoison else cxlErr]

/-! ### Answering (R62) -/

/-- A response comes back for an operation of a context, with the bytes done and the first failing byte where its access failed here; it is delivered by the
operation's completion (R256, R259). -/
def setReply (o status : Nat) (data : List Byte) (fail : Option (Nat × Nat) := none) : Prog := rd fun s =>
  match SMap.get none s.eng.ops o with
  | none => .skip
  | some a => if a.reply.isSome then .skip else .eff (.op o (some { a with reply := some (status, data), fail := fail }))

/-- Bytes of what the record of a failed access names under a cause: a line or a page, 0 for neither. -/
def failUnit (cause : Nat) : Nat :=
  if [0x411, 0x412, 0x413].contains cause then 64 else if [0x311, 0x312, 0x313, 0x323, 0x611].contains cause then 2 ^ 21 else 0

/-- The first byte from a hall address on of the line or page that a record names under a cause.
[Marks: DEDUCED, log entry 63.] -/
def failFrom (a cause obj : Nat) : Nat := max a (a / 2 ^ 52 * 2 ^ 52 + obj * failUnit cause)

/-- How far a request had come when its access failed at this home, and the first failing byte (R259): in the source of a near-pool operation where what failed lies
there. A page of a COMPRESSED extent is no byte of its address range.
[Marks: DEDUCED, log entry 63.] -/
def State.failOf (s : State) (q : Req) (cause obj0 obj1 : Nat) : Option (Nat × Nat) :=
  let fn := bits q.attr 16 6
  let u := failUnit cause
  let x := SMap.get {} s.pool.exts (q.ext.getD 0)
  let inDst := decide (obj0 * u < q.addr % 2 ^ 52 + q.len) && decide (q.addr % 2 ^ 52 < obj0 * u + u)
  let src := decide (q.op = 0x16) && decide (0 < u) && (decide (fn = 2 ∧ cause ≠ 0x313) || (decide (fn = 3 ∨ fn = 5) && !inDst))
  match q.dest with
  | .home | .knotWin =>
    if 0x390 ≤ cause ∧ cause ≤ 0x392 then some (q.placed, max q.addr (q.addr / 2 ^ 52 * 2 ^ 52 + x.base + 1024 * obj1))
    else if bit x.flags 5 ∧ 0 < u then none
    else some (q.placed, failFrom ((if src then q.opA else q.addr) + q.placed) cause obj0)
  | _ => none

/-- A request that its home here has executed: not one that another switch performs, and not one that ended before it was performed (R75).
[Marks: DESIGN CHOICE, log entry 24.] -/
def Req.executed (q : Req) (status : Nat) : Bool :=
  (match q.dest with | .home | .knotWin | .service => true | _ => false) &&
  !(([stRevoked, stFenced, stReset, stStale, stTimeout, stDenied, stLost, stLate, stBroken, stBusy] : List Nat).contains status)

/-- The result of a non-idempotent request is kept, the last 4,096 of each connection (R75). -/
def keepFence (c tid status : Nat) (data : List Byte) : Prog := rd fun s =>
  let x := s.conn c
  .eff (.conn c { x with fences := ({ tid := tid, cancelled := false, status := status, data := data } :: x.fences).take 4096 })

/-- A RoCEv2 packet leaves a queue pair, to UDP port 4791 and with its ICRC (R89).
[Marks: PRESUMED, log entry 29.] -/
def roceMsg (n : Nat) (p : RocePkt) : Msg := .roce n 4791 p (match p with
  | .ack psn => Config.icrc n 0 psn 0 []
  | .nak psn code => Config.icrc n 1 psn code []
  | .read psn data => Config.icrc n 2 psn 0 data
  | .cnp => Config.icrc n 3 0 0 [])

/-- Data cut into packets of a path MTU, with their PSNs of 24 bits; empty data is one empty packet (R89). The first argument bounds their number. -/
def roceCut (mtu : Nat) : Nat → Nat → List Byte → List (Nat × List Byte)
  | 0, psn, bs => [(psn, bs)]
  | k + 1, psn, bs => if bs.length ≤ mtu then [(psn, bs)] else (psn, bs.take mtu) :: roceCut mtu k ((psn + 1) % 2 ^ 24) (bs.drop mtu)

/-- The packets of a READ response of a queue pair. -/
def Qp.readPkts (x : Qp) (psn : Nat) (data : List Byte) : List (Nat × List Byte) := roceCut x.mtu 16384 psn data

/-- A request of a queue pair is answered: an ACK, the packets of a READ response, which stay until they are acknowledged, or NAK Remote Operational Error with the
BTP status in a record (R89, R90); `logged` where a record with it has been written.
[Marks: PRESUMED, log entry 29.] -/
def roceAnswer (n : Nat) (q : Req) (status : Nat) (data : List Byte) (logged : Bool) : Prog := rd fun s =>
  let x := SMap.get {} s.btp.qps n
  if status ≠ stOk then .all [
    Prog.when (!logged) (log { src := srcBrim (n / 2048), cause := 0x840, sev := 2, status := status, part := some q.part, obj0 := n, obj1 := q.addr }),
    send (roceMsg n (.nak q.psn 3))]
  else if q.op = 0x14 then
    let ps := x.readPkts q.psn data
    .all [.eff (.qp n { x with out := x.out ++ ps }), Prog.each ps (fun p => send (roceMsg n (.read p.1 p.2)))]
  else send (roceMsg n (.ack q.psn))

/-- The answer of a request goes to its source; `logged` says that a record with its status has been written, `fail` where its access failed. -/
def answer (q : Req) (status : Nat) (data : List Byte) (logged : Bool := false) (fail : Option (Nat × Nat) := none) : Prog := rd fun s =>
  match q.src with
  | .conn c =>
    let x := s.conn c
    if x.st = .free ∨ x.st = .error then .skip
    else .all [
      Prog.when (fencedOp q.op && q.executed status) (keepFence c q.tid status data),
      Prog.each (respPackets q data) (fun p => sendPkt c
        { psn := 0, op := q.op, tid := q.tid, resp := true, status := status, ext := extBytes p.1, data := p.2.1, epoch := 0, rto := 0 }
        p.2.2)]
  | .ctx _ o => setReply o status data fail
  | .qp n => roceAnswer n q status data logged
  | .agent n => Prog.each (cxlAnswer q status) (fun m => send (.cxl (s.agentPort n) m (q.addr % 2 ^ 52 / 64) data))
  | .cxlPort p => Prog.each (cxlAnswer q status) (fun m => send (.cxl p m (q.addr % 2 ^ 52 / 64) data))
  | .unit o => setReply o status data fail
  | .coll n k =>
    let x := SMap.get {} s.fab.colls n
    if x.wr.contains k then .eff (.coll n { x with ans := x.ans ++ [(k, status)] }) else .skip
  | .tier => .skip

/-- A request ends: it leaves the tables and is answered with a status and data. -/
def respond (r status : Nat) (data : List Byte) : Prog := rd fun s =>
  match s.req r with
  | none => .skip
  | some q => .all [.eff (.req r none), answer q status data false (if status = stOk then none else s.failOf q 0 0 0), reqGone q]

/-- The context and PC that issued a request of a program (R491). -/
def State.issuer (s : State) (q : Req) : Option Nat × Nat :=
  match q.src with
  | .ctx c o => (some c, match SMap.get none s.eng.ops o with | some a => a.pc | none => 0)
  | .unit o => (match SMap.get none s.eng.ops o with | some a => (some a.ctx, a.pc) | none => (none, 0))
  | _ => (none, 0)

/-- A request ends with a status under a Logline cause, which names the issuing context and PC of a program's request (R62, R491, R493).
[Marks: DESIGN CHOICE, log entry 11.] -/
def refuse (r status cause obj0 : Nat) (obj1 : Nat := 0) : Prog := rd fun s =>
  match s.req r with
  | none => .skip
  | some q => .all [
      Prog.when (decide (cause ≠ 0)) (log { src := srcFelt, cause := cause, sev := 2, status := status, part := some q.part, obj0 := obj0, obj1 := obj1,
                                            ctx := (s.issuer q).1, pc := (s.issuer q).2 }),
      .eff (.req r none), answer q status [] (decide (cause ≠ 0)) (s.failOf q cause obj0 obj1), reqGone q]

/-- Requests end with a status under a cause each.
[Marks: DESIGN CHOICE, log entry 11.] -/
def refuseAll (rs : List (Nat × Req)) (status cause : Nat) (obj0 : Nat) : Prog :=
  Prog.each rs (fun p => refuse p.1 status cause obj0)

end Sys2Proof.Machine
end

