-- ==== Sys2Proof/Machine/Cleat.lean ====
section
/-! DEFINITION. The Cleat range engine (ch. 11): lookups, updates, and the commands of its update sets, copies and entry restore. -/
namespace Sys2Proof.Machine
open Sys2Proof

/-- Entries of the Cleat (R367). -/
def cleatCap : Nat := 131072
/-- Forwarding entries that the replica holds (R374). -/
def cleatFwdCap : Nat := 16384

/-- Tag classes (R369). -/
def isRightsTag (t : Nat) : Bool := decide (t ≤ 0xDFFF)
/-- The forwarding class. -/
def isFwdTag (t : Nat) : Bool := decide (0xE000 ≤ t ∧ t ≤ 0xEFFF)
/-- The data class. -/
def isDataTag (t : Nat) : Bool := decide (0xF000 ≤ t ∧ t ≤ 0xFFFD)
/-- The tag of location entries. -/
def tagLocation : Nat := 0xFFFF

/-! ### Lookup (R368, R380) -/

/-- What a lookup gives. -/
inductive Look where
  | hit (e : CleatEnt)
  | bad
  | miss
  deriving DecidableEq, Repr

/-- The entry of a tag that a key hits; tag 0xFFFE never matches (R368, R369). -/
def cleatFind (l : List CleatEnt) (t k : Nat) : Option CleatEnt :=
  if t = 0xFFFE then none else l.find? (fun e => decide (e.tag = t) && decide (e.lo ≤ k) && decide (k ≤ e.hi))

/-- A lookup in a table: a stored entry that waits for its restore answers for its range (R380). -/
def cleatLook (l : List CleatEnt) (t k : Nat) : Look :=
  match cleatFind l t k with
  | none => .miss
  | some e => if e.bad then .bad else .hit e

/-- A lookup in the Felt table. -/
def State.look (s : State) (t k : Nat) : Look := cleatLook s.cleat.ents t k

/-- KIND of a RESULT (R370). -/
def CleatEnt.kind (e : CleatEnt) : Nat := e.result / 2 ^ 60

/-- What the verification of a hit does: a refuted match is corrected and counted; an uncorrectable stored entry waits for its restore (R380).
[Marks: DESIGN CHOICE, log entry 6.] -/
def verifyLook (v : Verify) (t k : Nat) : Prog := rd fun s =>
  match v, cleatFind s.cleat.ents t k with
  | .refuted, _ => .all [count F.CLEAT_VERIFY_FAIL_COUNT.COUNT [], log { src := srcFelt, cause := 0x380, sev := 0, obj0 := t, obj1 := k % 2 ^ 32 },
      health objFelt 6]
  | .uncorrectable, some e => .all [count F.CLEAT_UNCORR_COUNT.COUNT [], health objFelt 5,
      .eff (.cleatEnts (s.cleat.ents.map (fun f => if f.tag = e.tag ∧ f.lo = e.lo then { f with bad := true } else f)))]
  | _, _ => .skip

/-! ### Updates (R376 to R382) -/

/-- An entry comes before another in the order {TAG, LO}. -/
def CleatEnt.before (a b : CleatEnt) : Bool := decide (a.tag < b.tag) || (decide (a.tag = b.tag) && decide (a.lo ≤ b.lo))

/-- An entry put at its sorted place (R378). -/
def cleatIns (e : CleatEnt) : List CleatEnt → List CleatEnt
  | [] => [e]
  | f :: l => if e.before f then e :: f :: l else f :: cleatIns e l

/-- Whether two ranges meet. -/
def CleatEnt.meets (a b : CleatEnt) : Bool := decide (a.tag = b.tag) && decide (a.lo ≤ b.hi) && decide (b.lo ≤ a.hi)

/-- Whether a data tag is lent to a partition (R381). -/
def State.lent (s : State) (p t : Nat) : Bool :=
  decide (0xF000 + s.r F.CLEAT_LEND.TAG_BASE [p] ≤ t) &&
  decide (t < 0xF000 + s.r F.CLEAT_LEND.TAG_BASE [p] + s.r F.CLEAT_LEND.TAG_COUNT [p])

/-- Data entries in the tags lent to a partition. -/
def State.lentUsed (s : State) (p : Nat) : Nat := s.cleat.ents.countP (fun e => s.lent p e.tag)

/-- Entries of the data tags in use, and of the others. -/
def State.dataUsed (s : State) : Nat := s.cleat.ents.countP (fun e => isDataTag e.tag)
/-- Entries of the other tags in use. -/
def State.sysUsed (s : State) : Nat := s.cleat.ents.countP (fun e => !isDataTag e.tag)

/-- No room for one more entry of a tag: the table, the system reserve, the partition's MAX_ENTRIES or the forwarding replica is full (R374, R377,
R381, R382). -/
def State.cleatFull (s : State) (t : Nat) : Bool :=
  decide (cleatCap ≤ s.cleat.ents.length) ||
  (isDataTag t && (decide (cleatCap - s.r F.CLEAT_CFG.SYS_MIN [] ≤ s.dataUsed) ||
    (List.range 16).any (fun p => s.lent p t && decide (s.r F.CLEAT_LEND.MAX_ENTRIES [p] ≤ s.lentUsed p)))) ||
  (isFwdTag t && decide (cleatFwdCap ≤ s.cleat.ents.countP (fun e => isFwdTag e.tag)))

/-- Results of an update (R377). -/
def clDone : Nat := 0
/-- BAD_ARG. -/
def clBadArg : Nat := 1
/-- OVERLAP. -/
def clOverlap : Nat := 2
/-- NO_ROOM. -/
def clNoRoom : Nat := 3
/-- NOT_FOUND. -/
def clNotFound : Nat := 4
/-- DENIED. -/
def clDenied : Nat := 5
/-- ABORTED. -/
def clAborted : Nat := 6

/-- The result of an update, in the order of R377. `view` is the partition whose view starts it; `sys` marks an update of the Tier engine.
[Marks: DEDUCED, log entry 28.] -/
def State.cleatCheck (s : State) (u : CleatOp) (view : Option Nat) (sys : Bool) : Nat :=
  let l := s.cleat.ents
  let named := l.find? (fun e => decide (e.tag = u.tag) && decide (e.lo = u.lo))
  let new : CleatEnt := { tag := u.tag, lo := u.lo, hi := u.hi, result := u.res, sys := sys }
  let others := l.filter (fun e => !(decide (e.tag = u.tag) && decide (e.lo = u.lo)))
  let namedSys := (named.map (·.sys)).getD false
  let barred : Bool := match view with
    | none => false
    | some p => !s.lent p u.tag || s.fenced p
  if u.tag = 0xFFFE ∨ 3 < u.op ∨ ((u.op = 0 ∨ u.op = 2) ∧ u.hi < u.lo) then clBadArg
  else if barred ∨ (sys = false ∧ (u.op = 1 ∨ u.op = 2) ∧ namedSys) then clDenied
  else if (u.op = 1 ∨ u.op = 2) ∧ named.isNone then clNotFound
  else if u.op = 0 ∧ l.any new.meets then clOverlap
  else if u.op = 2 ∧ others.any new.meets then clOverlap
  else if u.op = 0 ∧ s.cleatFull u.tag then clNoRoom
  else clDone

/-- A table after an update that is performed (R376, R378). -/
def cleatApply (l : List CleatEnt) (u : CleatOp) (sys : Bool) : List CleatEnt :=
  match u.op with
  | 0 => cleatIns { tag := u.tag, lo := u.lo, hi := u.hi, result := u.res, sys := sys } l
  | 1 => l.filter (fun e => !(decide (e.tag = u.tag) && decide (e.lo = u.lo)))
  | 2 => l.map (fun e => if e.tag = u.tag ∧ e.lo = u.lo then { e with hi := u.hi, result := u.res } else e)
  | _ => l.filter (fun e => !decide (e.tag = u.tag) || e.sys)

/-- An update takes effect: removals and changes first at the forwarding replica and the cluster caches, then at the Felt table (R375).
[Marks: DESIGN CHOICE, log entry 55.] -/
def cleatPerform (u : CleatOp) (sys : Bool) : Prog := rd fun s => .all [
  Prog.when (decide (u.op ≠ 0)) (.all [
    .eff (.cleatFwd (cleatApply s.cleat.fwd u sys)),
    Prog.each s.cleat.caches (fun p => .eff (.cleatCache p.1 (cleatApply p.2 u sys)))]),
  .eff (.cleatEnts (cleatApply s.cleat.ents u sys)), cleatChange]

/-- An update of the Tier engine or Crown firmware takes effect where it can be performed.
[Marks: DESIGN CHOICE, log entry 55.] -/
def cleatDo (u : CleatOp) : Prog := rd fun s => Prog.when (decide (s.cleatCheck u none true = clDone)) (cleatPerform u true)

/-- The registers of an update set: set 0 is the host's, set p + 1 that of partition view p. -/
def State.updRead (s : State) (set : Nat) (h v : Fld) : Nat := if set = 0 then s.r h [] else s.r v [set - 1]

/-- A field of an update set is written. -/
def updWrite (set : Nat) (h v : Fld) (x : Nat) : Prog := if set = 0 then wr h [] x else wr v [set - 1] x

/-- The staged update of a set. -/
def State.updOp (s : State) (set : Nat) : CleatOp :=
  { op := s.updRead set F.CLEAT_UPD.OP F.VIEW_CLEAT_UPD.OP, tag := s.updRead set F.CLEAT_UPD.TAG F.VIEW_CLEAT_UPD.TAG
    lo := s.updRead set F.CLEAT_UPD.LO F.VIEW_CLEAT_UPD.LO, hi := s.updRead set F.CLEAT_UPD.HI F.VIEW_CLEAT_UPD.HI
    res := s.updRead set F.CLEAT_UPD.RES F.VIEW_CLEAT_UPD.RES }

/-- An update completes: RESULT, DONE, and GO cleared; a result other than DONE is recorded, and a view's interrupt is raised (R377, R529). -/
def updFinish (set res : Nat) : Prog := rd fun s => .all [
  updWrite set F.CLEAT_UPD.GO F.VIEW_CLEAT_UPD.GO 0, updWrite set F.CLEAT_UPD.DONE F.VIEW_CLEAT_UPD.DONE 1,
  updWrite set F.CLEAT_UPD.RESULT F.VIEW_CLEAT_UPD.RESULT res,
  Prog.when (decide (res ≠ clDone)) (.all [count F.CLEAT_UPD_REFUSED_COUNT.COUNT [],
    log { src := srcFelt, cause := 0x383, sev := 0, obj0 := s.updRead set F.CLEAT_UPD.TAG F.VIEW_CLEAT_UPD.TAG, obj1 := res
          part := if set = 0 then none else some (set - 1) }]),
  Prog.when (decide (0 < set)) (msix (7 + set))]

/-- The first update of the queue is taken up: that of a set takes effect, or completes refused; one of the Tier engine or Crown firmware takes effect; that of an EXT_ADD
waits for EXTENT_ADDING_COMPLETE (R376, R377). The argument bounds the updates taken.
[Marks: DESIGN CHOICE, log entry 55.] -/
def cleatNext : Nat → Prog
  | 0 => .skip
  | n + 1 => rd fun s => match s.cleat.upds with
    | [] => .skip
    | u :: us => match u.src with
      | .adding _ => .skip
      | .sys => .all [.eff (.cleatUpds us), cleatDo u.op, cleatNext n]
      | .set k =>
        let res := s.cleatCheck u.op (if k = 0 then none else some (k - 1)) false
        if res = clDone then cleatPerform u.op false else .all [.eff (.cleatUpds us), updFinish k res, cleatNext n]

/-- An update is put behind those whose GO came earlier, and taken up where there are none (R376).
[Marks: DESIGN CHOICE, log entry 55.] -/
def cleatQueue (u : CleatUpd) : Prog := rd fun s =>
  .seq (.eff (.cleatUpds (s.cleat.upds ++ [u]))) (Prog.when s.cleat.upds.isEmpty (cleatNext 1))

/-- The update under way has ended, and the next is taken up.
[Marks: DESIGN CHOICE, log entry 55.] -/
def cleatEnd : Prog := rd fun s => .seq (.eff (.cleatUpds s.cleat.upds.tail)) (cleatNext s.cleat.upds.length)

/-- An update of the Tier engine or Crown firmware, in its turn (R376).
[Marks: DESIGN CHOICE, log entry 55.] -/
def cleatSys (u : CleatOp) : Prog := rd fun s => if s.cleat.upds.isEmpty then cleatDo u else cleatQueue { src := .sys, op := u }

/-- The turn of an EXT_ADD that ends is given up. -/
def cleatDrop (e : Nat) : Prog := rd fun s =>
  if (match s.cleat.upds.head? with | some u => decide (u.src = CleatSrc.adding e) | none => false) then cleatEnd
  else .eff (.cleatUpds (s.cleat.upds.filter (fun u => decide (u.src ≠ CleatSrc.adding e))))

/-- The turn of an EXT_ADD has come: no update whose GO came earlier is left (R105, R376). -/
def State.addingTurn (s : State) (e : Nat) : Bool :=
  match s.cleat.upds.head? with
  | none => true
  | some u => decide (u.src = CleatSrc.adding e)

/-- A write of 1 to GO of an update set whose OP is `op`: the update takes its turn; no effect while GO is already 1 (R17, R376).
[Marks: DESIGN CHOICE, log entry 10.] -/
def cleatGo (op set : Nat) : Prog := reached 0x1009000 <| rd fun s =>
  let u := s.updOp set
  if 17 ≤ set ∨ u.op ≠ op ∨ s.updRead set F.CLEAT_UPD.GO F.VIEW_CLEAT_UPD.GO = 1 then .skip
  else .all [updWrite set F.CLEAT_UPD.GO F.VIEW_CLEAT_UPD.GO 1, cleatQueue { src := .set set, op := u }]

/-- CLEAT_INSERT (R378). -/
def execCleatInsert (set : Nat) (s : State) : Host.Outcome State Fault Refusal := run s (cleatGo 0 set)

/-- CLEAT_REMOVE (R378). -/
def execCleatRemove (set : Nat) (s : State) : Host.Outcome State Fault Refusal := run s (cleatGo 1 set)

/-- CLEAT_MODIFY (R376). -/
def execCleatModify (set : Nat) (s : State) : Host.Outcome State Fault Refusal := run s (cleatGo 2 set)

/-- CLEAT_FLUSH_TAG (R377). -/
def execCleatFlushTag (set : Nat) (s : State) : Host.Outcome State Fault Refusal := run s (cleatGo 3 set)

/-- CLEAT_UPDATE_COMPLETE (R375): the update under way, that of a set, has reached every copy; an inserted forwarding entry is in the replica, the set shows DONE, and the
next update is taken up.
[Marks: DESIGN CHOICE, log entry 55.] -/
def execCleatUpdateComplete (set : Nat) (s : State) : Host.Outcome State Fault Refusal := run s <|
  match s.cleat.upds with
  | [] => .skip
  | u :: _ =>
    let e : CleatEnt := { tag := u.op.tag, lo := u.op.lo, hi := u.op.hi, result := u.op.res, sys := false }
    if u.src ≠ CleatSrc.set set then .skip
    else .all [
      Prog.when (decide (u.op.op = 0) && isFwdTag e.tag && s.cleat.ents.contains e) (.eff (.cleatFwd (cleatIns e s.cleat.fwd))),
      updFinish set clDone, cleatEnd]

/-- CLEAT_ENTRY_RESTORE (R380): a stored entry with an uncorrectable error is restored from the partner, or removed under cause 0x382. -/
def execCleatEntryRestore (tag lo : Nat) (restored : Bool) (s : State) : Host.Outcome State Fault Refusal := run s <|
  let p (e : CleatEnt) : Bool := decide (e.tag = tag) && decide (e.lo = lo) && e.bad
  if s.cleat.ents.any p then
    if restored then .eff (.cleatEnts (s.cleat.ents.map (fun e => if p e then { e with bad := false } else e)))
    else .all [.eff (.cleatEnts (s.cleat.ents.filter (fun e => !p e))), cleatChange,
      .eff (.cleatFwd (s.cleat.fwd.filter (fun e => !(decide (e.tag = tag) && decide (e.lo = lo))))),
      Prog.each s.cleat.caches (fun q => .eff (.cleatCache q.1 (q.2.filter (fun e => !(decide (e.tag = tag) && decide (e.lo = lo)))))),
      log { src := srcFelt, cause := 0x382, sev := 0, obj0 := tag, obj1 := lo % 2 ^ 32 }]
  else .skip

/-- An update under way removes or changes an entry (R375). -/
def State.changing (s : State) (e : CleatEnt) : Bool := match s.cleat.upds.head? with
  | some u => decide (u.op.tag = e.tag) && (decide (u.op.op = 3) || (decide (u.op.op ≠ 0) && decide (u.op.lo = e.lo)))
  | none => false

/-- The table as the checks of a cluster's contexts see it: the entries that its cache holds, then the Felt table (R374). -/
def State.atCluster (s : State) (cl : Nat) : State := { s with cleat := { s.cleat with ents := SMap.get [] s.cleat.caches cl ++ s.cleat.ents } }

/-- CLUSTER_CLEAT_FILL (R374): a miss of a cluster's cache is filled from the Felt table with a rights-class or location entry, in place of the
oldest of 4,096; an entry whose change is under way is not installed (R375).
[Marks: DESIGN CHOICE, log entry 55.] -/
def execClusterCleatFill (cluster tag key : Nat) (s : State) : Host.Outcome State Fault Refusal := run s <|
  let c := SMap.get [] s.cleat.caches cluster
  match s.look tag key with
  | .hit e =>
    if 128 ≤ cluster ∨ ¬ (isRightsTag tag ∨ tag = tagLocation) ∨ (cleatFind c tag key).isSome ∨ s.changing e then .skip
    else .eff (.cleatCache cluster ((e :: c).take 4096))
  | _ => .skip

end Sys2Proof.Machine
end

