-- ==== Sys2Proof/Machine/Codec.lean ====
section
/-! DEFINITION. The base-plus-delta codec (R386 to R396): the delta, the carding pass, frames, and the decoding of sub-streams. -/
namespace Sys2Proof.Machine
open Sys2Proof

/-! ### The delta (R386) -/

/-- Element width of a WCODE. -/
def wBits (wcode : Nat) : Nat := 4 * 2 ^ wcode

/-- The code of a variant element against its base element. -/
def deltaCode (w v b : Nat) : Nat :=
  let d := (v + 2 ^ w - b % 2 ^ w) % 2 ^ w
  ((2 * d) ^^^ (if bit d (w - 1) then 2 ^ w - 1 else 0)) % 2 ^ w

/-- The variant element of a code against its base element. -/
def deltaUndo (w z b : Nat) : Nat :=
  let d := ((z / 2) ^^^ (if bit z 0 then 2 ^ w - 1 else 0)) % 2 ^ w
  (b + d) % 2 ^ w

/-- Bytes grouped by n into numbers, little-endian. -/
def groupLe (n : Nat) : Nat → List Byte → List Nat
  | 0, _ => []
  | k + 1, bs => ofLe (bs.take n) :: groupLe n k (bs.drop n)

/-- The elements of bytes at width w. -/
def elemsOf (w : Nat) (bs : List Byte) : List Nat :=
  if w = 4 then bs.flatMap (fun b => [b.toNat % 16, b.toNat / 16])
  else groupLe (w / 8) (bs.length / (w / 8)) bs

/-- Pairs of nibbles as bytes. -/
def packNibbles : List Nat → List Byte
  | a :: b :: r => BitVec.ofNat 8 (a % 16 + 16 * b) :: packNibbles r
  | _ => []

/-- The bytes of elements at width w. -/
def bytesOf (w : Nat) (es : List Nat) : List Byte :=
  if w = 4 then packNibbles es else es.flatMap (leBytes (w / 8))

/-- The code stream of variant bytes against base bytes. -/
def codeStream (w : Nat) (v b : List Byte) : List Byte :=
  bytesOf w ((elemsOf w v).zip (elemsOf w b) |>.map (fun p => deltaCode w p.1 p.2))

/-- The variant bytes of a code stream against base bytes. -/
def undoStream (w : Nat) (z b : List Byte) : List Byte :=
  bytesOf w ((elemsOf w z).zip (elemsOf w b) |>.map (fun p => deltaUndo w p.1 p.2))

/-! ### The carding pass (R393) -/

/-- A node of the Huffman construction: weight, whether internal, order among its kind, and its symbols with their depths. -/
structure HNode where
  weight : Nat
  internal : Bool
  order : Nat
  syms : List (Nat × Nat)
  deriving DecidableEq, Repr

/-- A node comes before another: lower weight, a leaf before an internal node, then by order. -/
def HNode.before (a b : HNode) : Bool :=
  decide (a.weight < b.weight) || (decide (a.weight = b.weight) &&
    ((!a.internal && b.internal) || (decide (a.internal = b.internal) && decide (a.order ≤ b.order))))

/-- A node inserted in its place. -/
def HNode.insert (n : HNode) : List HNode → List HNode
  | [] => [n]
  | m :: ms => if n.before m then n :: m :: ms else m :: HNode.insert n ms

/-- The two lowest nodes are merged repeatedly; the argument bounds the merges. -/
def huffMerge : Nat → Nat → List HNode → List (Nat × Nat)
  | fuel + 1, k, a :: b :: r =>
    huffMerge fuel (k + 1) (HNode.insert
      { weight := a.weight + b.weight, internal := true, order := k, syms := (a.syms ++ b.syms).map (fun p => (p.1, p.2 + 1)) } r)
  | _, _, [a] => a.syms
  | _, _, _ => []

/-- The Kraft sum of code lengths in units of 2^-15. -/
def kraft (ls : List Nat) : Nat := (ls.map (fun l => if l = 0 then 0 else 2 ^ (15 - l))).sum

/-- The symbol whose length is the largest below 15, the highest of several. -/
def longestBelow15 (ls : List Nat) : Option Nat :=
  (ls.zipIdx.foldl (fun (best : Option (Nat × Nat)) p =>
    if 0 < p.1 ∧ p.1 < 15 ∧ ((best.map (·.1)).getD 0) ≤ p.1 then some p else best) none).map (·.2)

/-- Lengths are raised until the Kraft sum fits; the argument bounds the steps. -/
def limitLoop : Nat → List Nat → List Nat
  | 0, ls => ls
  | fuel + 1, ls =>
    if kraft ls ≤ 32768 then ls
    else match longestBelow15 ls with
      | none => ls
      | some s => limitLoop fuel (ls.modify s (· + 1))

/-- The code lengths of symbol counts (R393 steps 1 to 3). -/
def codeLengths (counts : List Nat) : List Nat :=
  let present := counts.zipIdx.filter (fun p => decide (0 < p.1))
  match present with
  | [] => counts.map (fun _ => 0)
  | [p] => counts.zipIdx.map (fun q => if q.2 = p.2 then 1 else 0)
  | _ =>
    let leaves := present.foldr (fun p l => HNode.insert { weight := p.1, internal := false, order := p.2, syms := [(p.2, 0)] } l) []
    let ds := huffMerge counts.length 0 leaves
    let ls := (List.range counts.length).map (fun s => min 15 (((ds.find? (fun p => p.1 = s)).map (·.2)).getD 0))
    limitLoop 4096 ls

/-- The canonical codes of lengths: (length, code, symbol) (R393 step 4). -/
def canonCodes (ls : List Nat) : List (Nat × Nat × Nat) :=
  ((List.range 15).foldl (fun (acc : Nat × List (Nat × Nat × Nat)) i =>
    let len := i + 1
    let syms := (ls.zipIdx.filter (fun p => decide (p.1 = len))).map (·.2)
    let new := (syms.zipIdx acc.1).map (fun p => (len, p.2, p.1))
    (2 * (acc.1 + syms.length), acc.2 ++ new)) (0, [])).2

/-- Number of tables of a width. -/
def ntabOf (w : Nat) : Nat := if w ≤ 8 then 1 else w / 8

/-- Symbols of a table. -/
def nsymOf (w : Nat) : Nat := if w = 4 then 16 else 256

/-- Bytes of a table. -/
def tabBytes (w : Nat) : Nat := nsymOf w / 2

/-- The symbols that a sub-stream of 1,024 code bytes holds (R392). -/
def symsOf (w : Nat) (bs : List Byte) : List Nat :=
  if w = 4 then bs.flatMap (fun b => [b.toNat % 16, b.toNat / 16]) else bs.map BitVec.toNat

/-- The symbols of a stream that use table t. -/
def symsOfTable (w t : Nat) (bs : List Byte) : List Nat :=
  if w ≤ 8 then symsOf w bs
  else (bs.zipIdx.filter (fun p => decide (p.2 % (w / 8) = t))).map (fun p => p.1.toNat)

/-- Counts of each symbol. -/
def countSyms (n : Nat) (ss : List Nat) : List Nat :=
  (List.range n).map (fun s => ss.countP (· = s))

/-- Bits of a code word, most significant first. -/
def codeBits (len code : Nat) : List Bool := (List.range len).map (fun i => bit code (len - 1 - i))

/-- Eight bits, the first most significant, as a byte; missing bits are 0. -/
def byteOfBits (bs : List Bool) : Byte :=
  BitVec.ofNat 8 (((List.range 8).map (fun i => if (bs[i]?).getD false then 2 ^ (7 - i) else 0)).sum)

/-- Bits packed into n bytes, bit k in bit 7 - (k mod 8) of byte k / 8 (R392). -/
def packBits : Nat → List Bool → List Byte
  | 0, _ => []
  | n + 1, bs => byteOfBits bs :: packBits n (bs.drop 8)

/-- The bits of bytes in the order of R392. -/
def bitsOf (bs : List Byte) : List Bool := bs.flatMap (fun b => (List.range 8).map (fun i => bit b.toNat (7 - i)))

/-- What carding makes of a block (R394): its STATE, its stored size, and its stored bytes. -/
structure Carded where
  state : Nat
  size : Nat
  bytes : List Byte
  deriving DecidableEq, Repr

/-- A block of 65,536 variant bytes carded and encoded against its base (R391 to R394). -/
def encodeBlock (wcode block : Nat) (v b : List Byte) : Carded :=
  let w := wBits wcode
  let z := codeStream w v b
  if z.all (· = 0) then { state := 4, size := 0, bytes := [] }
  else
    let nt := ntabOf w
    let lens := (List.range nt).map (fun t => codeLengths (countSyms (nsymOf w) (symsOfTable w t z)))
    let codes := lens.map canonCodes
    let subs := (List.range 64).map (fun i => (z.drop (1024 * i)).take 1024)
    let streams := subs.map (fun s => (symsOf w s).zipIdx.flatMap (fun p =>
      let tab := (codes[p.2 % nt]?).getD []
      match tab.find? (fun e => e.2.2 = p.1) with
      | none => []
      | some e => codeBits e.1 e.2.1))
    let body := leBytes 2 0x4B46 ++ leBytes 1 wcode ++ leBytes 1 nt
    let tabs := lens.flatMap packNibbles
    let nbits := streams.flatMap (fun s => leBytes 2 s.length)
    let data := streams.flatMap (fun s => packBits (cdiv s.length 8) s)
    let raw := 16 + tabs.length + nbits.length + data.length
    let len64 := cdiv raw 64
    if 64 * len64 ≤ 65472 then
      { state := 2, size := 64 * len64
        bytes := body ++ leBytes 4 (64 * len64) ++ leBytes 4 block ++ leBytes 4 0 ++ tabs ++ nbits ++ data ++
          List.replicate (64 * len64 - raw) 0 }
    else { state := 3, size := 65536, bytes := v }

/-! ### Decoding (R395) -/

/-- How a decode of a sub-stream ends. -/
inductive Dec where
  | ok (codes : List Byte)
  | overrun
  | underrun
  deriving DecidableEq, Repr

/-- The decoder of one sub-stream: tables, CAP, code word so far (value and length), symbols out in reverse and their number. -/
def decodeBits (tabs : List (List (Nat × Nat × Nat))) (cap : Nat) : List Bool → Nat → Nat → List Nat → Nat → Option (List Nat) × Bool
  | [], _, len, out, n => if len = 0 ∧ n = cap then (some out.reverse, false) else (none, false)
  | b :: bs, v, len, out, n =>
    if len = 0 ∧ n = cap then (none, true)
    else
      let v' := 2 * v + b2n b
      let tab := (tabs[n % tabs.length]?).getD []
      match tab.find? (fun e => e.1 = len + 1 ∧ e.2.1 = v') with
      | some e => decodeBits tabs cap bs 0 0 (e.2.2 :: out) (n + 1)
      | none => if len + 1 = 15 then (none, false) else decodeBits tabs cap bs v' (len + 1) out n

/-- A frame that passed the checks of R395: width, tables, and bits of each sub-stream. -/
structure Frame where
  w : Nat
  tabs : List (List (Nat × Nat × Nat))
  streams : List (List Bool)
  deriving DecidableEq, Repr

/-- The frame in stored bytes, where it passes the checks before decoding (R391, R395). -/
def Frame.parse (wcode block : Nat) (f : List Byte) : Option Frame :=
  let w := wBits wcode
  let nt := ntabOf w
  let tb := tabBytes w
  let lens := (List.range nt).map (fun t => ((f.drop (16 + t * tb)).take tb).flatMap (fun b => [b.toNat % 16, b.toNat / 16]))
  let nb := (List.range 64).map (fun i => leAt f (16 + nt * tb + 2 * i) 2)
  let starts := nb.foldl (fun (acc : List Nat × Nat) n => (acc.1 ++ [acc.2], acc.2 + cdiv n 8)) ([], 144 + nt * tb)
  if leAt f 0 2 = 0x4B46 ∧ byteAt f 2 = wcode ∧ byteAt f 3 = nt ∧ leAt f 4 4 = f.length ∧ leAt f 8 4 = block ∧
      lens.all (fun l => decide (kraft l ≤ 32768)) ∧ starts.2 ≤ f.length then
    some { w := w, tabs := lens.map canonCodes
           streams := (nb.zip starts.1).map (fun p => (bitsOf ((f.drop p.2).take (cdiv p.1 8))).take p.1) }
  else none

/-- Sub-stream i of a frame decoded to its 1,024 code bytes. -/
def Frame.sub (f : Frame) (i : Nat) : Dec :=
  let cap := if f.w = 4 then 2048 else 1024
  match decodeBits f.tabs cap ((f.streams[i]?).getD []) 0 0 [] 0 with
  | (some ss, _) => .ok (if f.w = 4 then packNibbles ss else ss.map (BitVec.ofNat 8))
  | (none, true) => .overrun
  | (none, false) => .underrun

/-- Sub-streams i to i + n - 1 of a frame: their code bytes, or how the lowest failing one ends and its number. -/
def Frame.subs (f : Frame) : Nat → Nat → Dec × Nat
  | i, 0 => (.ok [], i)
  | i, n + 1 =>
    match f.sub i with
    | .ok z => (match f.subs (i + 1) n with
      | (.ok r, k) => (.ok (z ++ r), k)
      | e => e)
    | .overrun => (.overrun, i)
    | .underrun => (.underrun, i)

end Sys2Proof.Machine
end

