-- ==== Sys2Proof/Machine/Pool.lean ====
section
/-! DEFINITION. The pool as a memory (ch. 03): extents, pages and frames, reading and writing bytes at the home, and reads of COMPRESSED extents. -/
namespace Sys2Proof.Machine
open Sys2Proof

/-! ### Extents (R100 to R105) -/

/-- An extent. -/
def State.ext (s : State) (e : Nat) : Ext := SMap.get {} s.pool.exts e

/-- Size of an extent in bytes. -/
def Ext.size (x : Ext) : Nat := 2 ^ x.log2

/-- Whether a fabric address lies in an extent that is not FREE. -/
def Ext.covers (x : Ext) (a : Nat) : Bool := decide (x.st ≠ .free) && decide (x.base ≤ a) && decide (a < x.base + x.size)

/-- The extent homed here in which a fabric address lies. -/
def State.extAt (s : State) (a : Nat) : Option Nat := (s.pool.exts.find? (fun e => e.2.covers a)).map (·.1)

/-- FLAGS of R102. -/
def Ext.pinHot (x : Ext) : Bool := bit x.flags 0
/-- PIN_WARM. -/
def Ext.pinWarm (x : Ext) : Bool := bit x.flags 1
/-- STAGING_OK. -/
def Ext.stagingOk (x : Ext) : Bool := bit x.flags 2
/-- FIXED_LAYOUT. -/
def Ext.fixedLayout (x : Ext) : Bool := bit x.flags 3
/-- COHERENT. -/
def Ext.coherent (x : Ext) : Bool := bit x.flags 4
/-- COMPRESSED. -/
def Ext.compressed (x : Ext) : Bool := bit x.flags 5
/-- SCRUB_ON_RELEASE. -/
def Ext.scrub (x : Ext) : Bool := bit x.flags 6
/-- READ_ONLY. -/
def Ext.readOnly (x : Ext) : Bool := bit x.flags 7

/-- How a new request to an extent is answered by its state: served, or a status with its cause (R105). -/
def Ext.gate (x : Ext) : Option (Nat × Nat) :=
  match x.st with
  | .active => none
  | .draining | .drained | .releasing => some (stRevoked, 0x301)
  | .recovering => some (stBusy, 0)
  | .lost => some (stLost, 0)
  | .free | .adding => some (stDenied, 0x830)

/-! ### Stripe sets and trays (R118) -/

/-- A stripe set. -/
def State.sset (s : State) (t : Nat) : Option SSet := SMap.get none s.pool.sets t
/-- A tray. -/
def State.trayAt (s : State) (t : Nat) : Option Tray := SMap.get none s.pool.trays t

/-- Whether a stripe set is of flash trays (the cold tier). -/
def State.coldSet (s : State) (t : Nat) : Bool :=
  match s.sset t with
  | none => false
  | some x => x.trays.any (fun i => match s.trayAt i with | none => false | some y => decide (y.kind = 1))

/-- Usable capacity of a stripe set in pages: its smallest member times its data members (R118). -/
def State.setPages (s : State) (x : SSet) : Nat :=
  let caps := x.trays.map (fun i => match s.trayAt i with | none => 0 | some y => y.cap)
  let n := x.trays.length
  (caps.foldl min (caps.headD 0)) * (if x.mode = 1 then n - 1 else n) / 2 ^ 21

/-- Pages of the floor slots reserved in a stripe set. -/
def State.setReserved (s : State) (t : Nat) : Nat :=
  (s.pool.exts.map (fun e => if e.2.st ≠ .free ∧ (e.2.set1 = t ∨ e.2.set2 = t) then e.2.size / 2 ^ 21 else 0)).sum

/-- Whether an extent has a cold floor. -/
def State.coldFloor (s : State) (x : Ext) : Bool := decide (x.set1 ≠ 0xFF) && s.coldSet x.set1

/-- Bytes of a stripe unit. -/
def SSet.bytes (y : SSet) : Nat := 2 ^ (12 + y.unit)
/-- Tray of member m, numbered in ascending TRAY order. -/
def SSet.tray (y : SSet) (m : Nat) : Nat := (y.trays[m]?).getD 0

/-- Member and row of logical unit u of a set of n members (R118). -/
def unitPlace (u n : Nat) (parity : Bool) : Nat × Nat :=
  if ¬ parity then (u % n, u / n)
  else
    let row := u / (n - 1)
    let pm := n - 1 - row % n
    let d := u % (n - 1)
    (if d < pm then d else d + 1, row)

/-- The tray that holds byte o of the page in a slot. -/
def SSet.trayAt (y : SSet) (slot o : Nat) : Nat :=
  y.tray (unitPlace (slot * (2 ^ 21 / y.bytes) + o / y.bytes) y.trays.length (decide (y.mode = 1))).1

/-- The tray that holds the parity unit of a row. -/
def SSet.parityTray (y : SSet) (row : Nat) : Nat := y.tray (y.trays.length - 1 - row % y.trays.length)

/-- A parity row of a store to a page on a PARITY floor (R118, R121): pages take consecutive slots from the extent's first slot on. -/
def State.rowOf (s : State) (x : Ext) (a : Nat) : Option (Nat × Nat) :=
  match s.sset x.set1 with
  | none => none
  | some y =>
    if y.mode = 1 then
      let u := 2 ^ (12 + y.unit)
      let slot := x.slot1 + (a - x.base) / 2 ^ 21
      some (x.set1, (slot * (2 ^ 21 / u) + a % 2 ^ 21 / u) / (y.trays.length - 1))
    else none

/-! ### Pages and frames (R108, R124) -/

/-- A page.
[Marks: DESIGN CHOICE, log entry 53.] -/
def State.page (s : State) (p : Nat) : Page := SMap.get {} s.pool.pages p

/-- The pages that n bytes from a fabric address on touch. -/
def pagesOf (a n : Nat) : List Nat := rangeFrom (a / 2 ^ 21) ((a + n - 1) / 2 ^ 21 + 1 - a / 2 ^ 21)

/-- The lines that n bytes from a fabric address on touch. -/
def linesOf (a n : Nat) : List Nat := rangeFrom (a / 64) ((a + n - 1) / 64 + 1 - a / 64)

/-- Frames of the hot pool (R124). -/
def State.hotTotal (s : State) : Nat := (288 - s.r F.TIER_HBM_CFG.RESERVED_GIB []) * 512

/-- The hot frames of a place.
[Marks: DESIGN CHOICE, log entry 53.] -/
def Place.frames : Place → List Nat
  | .hot f g => f :: g.toList
  | _ => []

/-- Hot frames in use, by pages and by migrations under way. -/
def State.usedFrames (s : State) : List Nat :=
  s.pool.pages.flatMap (fun e => e.2.place.frames) ++
  s.pool.migs.flatMap (fun e => match e.2 with | none => [] | some m => m.dst.frames)

/-- Free hot frames (TIER_STATUS.HOT_FREE). -/
def State.hotFree (s : State) : Nat := s.hotTotal - s.usedFrames.length

/-- The least free hot frame, on a stack other than that of `avoid`; frame f lies on stack f mod 6.
[Marks: DESIGN CHOICE, log entry 33.] -/
def State.freeFrame (s : State) (avoid : Option Nat) : Option Nat :=
  let used := s.usedFrames
  (List.range (min s.hotTotal (2 * used.length + 12))).find? (fun f =>
    !used.contains f && (match avoid with | none => true | some g => decide (f % 6 ≠ g % 6)))

/-- The least start of n units in a row that no used range (start, length) meets.
[Marks: DESIGN CHOICE, log entry 33.] -/
def firstGap (used : List (Nat × Nat)) (n : Nat) : Nat :=
  let cs := 0 :: used.map (fun u => u.1 + u.2)
  let ok (c : Nat) : Bool := used.all (fun u => decide (c + n ≤ u.1) || decide (u.1 + u.2 ≤ c))
  (cs.filter ok).foldl min (cs.foldl max 0)

/-- Staging frames of a set in use, by pages and by migrations under way (R124, R128). -/
def State.stagingUsed (s : State) (k : Nat) : List Nat :=
  let frame (q : Place) : Option Nat := match q with | .staging j f => if j = k then some f else none | _ => none
  s.pool.pages.filterMap (fun e => frame e.2.place) ++ s.pool.migs.filterMap (fun e => e.2.bind (fun m => frame m.dst))

/-- The slots of a set in use, as ranges: floor slots of extents and staging frames. -/
def State.slotsUsed (s : State) (k : Nat) : List (Nat × Nat) :=
  s.pool.exts.flatMap (fun e => if e.2.st = .free then [] else
    (if e.2.set1 = k then [(e.2.slot1, e.2.size / 2 ^ 21)] else []) ++ (if e.2.set2 = k then [(e.2.slot2, e.2.size / 2 ^ 21)] else [])) ++
  (s.stagingUsed k).map (fun f => (f, 1))

/-- A free frame of a staging set.
[Marks: DESIGN CHOICE, log entry 33.] -/
def State.freeStaging (s : State) : Option Place :=
  s.pool.sets.findSome? (fun e => match e.2 with
    | none => none
    | some x =>
      if x.staging ∧ (s.stagingUsed e.1).length + s.setReserved e.1 < s.setPages x then some (.staging e.1 (firstGap (s.slotsUsed e.1) 1)) else none)

/-- A hot place for a page: two frames on different stacks where its content is protected there (R119, R124). -/
def State.hotPlace (s : State) (two : Bool) : Option Place :=
  match s.freeFrame none with
  | none => none
  | some f => if two then (s.freeFrame (some f)).map (fun g => .hot f (some g)) else some (.hot f none)

/-- The place a page takes when a store allocates or promotes it (R108, R125, R126): hot for PIN_HOT and for an extent with no floor; the floor slot
of a warm floor; for a cold floor a hot frame, or a staging frame when no hot frame is free. None: the store waits. -/
def State.storePlace (s : State) (x : Ext) : Option Place :=
  let two := decide (x.prot ≠ 0)
  if x.pinHot ∨ x.set1 = 0xFF then s.hotPlace two
  else if s.coldFloor x then
    match (if x.pinWarm then none else s.hotPlace two) with
    | some p => some p
    | none => if x.stagingOk then s.freeStaging else none
  else some .floor

/-- The page after a store to it, where it has a place for the data (R108, R124, R125, R128). -/
def State.storedPage (s : State) (x : Ext) (p : Nat) : Option Page :=
  let y := s.page p
  let fresh := decide (y.place = .none) || (decide (y.place = .floor) && s.coldFloor x)
  let place := if fresh then s.storePlace x else
    match y.place with
    | .hot f none => if x.prot ≠ 0 then (s.freeFrame (some f)).map (fun g => .hot f (some g)) else some y.place
    | q => some q
  place.map (fun q => { y with
    st := if y.st = .migrating then .migrating else .valid
    place := q, floorValid := false })

/-- The migration of a page, with the recopy bit of the sub-block of a store set (R128).
[Marks: DESIGN CHOICE, log entry 34.] -/
def markRecopy (p a n : Nat) : Prog := rd fun s =>
  match SMap.get none s.pool.migs p with
  | none => .skip
  | some m => .eff (.mig p (some { m with
      recopy := (rangeFrom (a % 2 ^ 21 / 65536) ((a % 2 ^ 21 + n - 1) / 65536 + 1 - a % 2 ^ 21 / 65536)).foldl
        (fun b i => if i < 32 then setBits b i 1 1 else b) m.recopy }))

/-! ### Prefetches (R127, R288, R306) -/

/-- A prefetch ends with a status that its knot is signalled with; one that is not OK is recorded under a cause (R306). -/
def prefetchEnd (f : Prefetch) (status cause : Nat) : Prog := .all [
  Prog.when (decide (cause ≠ 0)) (rd fun s => Prog.opt (SMap.get none s.eng.ops f.op) (fun a =>
    log { src := srcFelt, cause := cause, sev := 2, status := status, ctx := some a.ctx, pc := a.pc, part := some (s.ext f.ext).part, obj0 := f.ext })),
  asyncEnd f.op status 0 0 false]

/-- The prefetches that satisfy a test end with a status that their knots are signalled with.
[Marks: DESIGN CHOICE, log entry 34.] -/
def endPrefetch (test : Prefetch → Bool) (status cause : Nat) : Prog := rd fun s => .all [
  .eff (.prefetch (s.pool.prefetch.filter (fun f => !test f))),
  Prog.each (s.pool.prefetch.filter test) (fun f => prefetchEnd f status cause)]

/-- A page counts as placed for a prefetch (R288): at or above its target, without content, or of a PIN_WARM extent whose target is hot.
[Marks: DESIGN CHOICE, log entry 34.] -/
def State.placed (s : State) (x : Ext) (staging : Bool) (p : Nat) : Bool :=
  match (s.page p).place with
  | .none | .hot _ _ => true
  | .staging _ _ => staging || x.pinWarm
  | .floor => !staging && x.pinWarm

/-- Prefetches whose pages are all placed end: with TIER_UNCORRECTABLE where a page became POISONED (R288, R306). -/
def prefetchSweep : Prog := rd fun s =>
  let step (f : Prefetch) : Prefetch := { f with
    bad := f.bad || f.pages.any (fun p => decide ((s.page p).st = .poisoned))
    pages := f.pages.filter (fun p => !s.placed (s.ext f.ext) f.staging p && decide ((s.page p).st ≠ .poisoned)) }
  let fs := s.pool.prefetch.map step
  .all [.eff (.prefetch (fs.filter (fun f => !f.pages.isEmpty))),
    Prog.each (fs.filter (fun f => f.pages.isEmpty)) (fun f => if f.bad then prefetchEnd f stUncorr 0x311 else prefetchEnd f stOk 0)]

/-- A page becomes POISONED, and every request that waits for it ends (R134). -/
def poisonPage (p cause : Nat) : Prog := rd fun s => .all [
  .eff (.page p { s.page p with st := .poisoned, place := .none, floorValid := false }), .eff (.mig p none), pageChange p,
  refuseAll (s.reqsWith (fun q => decide (q.wait = .page p))) stUncorr cause p, prefetchSweep]

/-- An access to a page is counted for placement and its last use noted (R126). -/
def touchPage (p : Nat) : Prog := rd fun s =>
  let y := s.page p
  if y.st = .zero then .skip
  else .all [.eff (.page p { y with cnt := y.cnt + 1, used := s.pool.uses + 1 }), .eff (.uses (s.pool.uses + 1))]

/-- The page's slot in a set of its floor. -/
def Ext.slotIn (x : Ext) (first p : Nat) : Nat := first + (p - x.base / 2 ^ 21)

/-- Whether the tray that holds an address in a set of the floor is readable. -/
def State.unitUp (s : State) (x : Ext) (k first a : Nat) : Bool :=
  match s.sset k with
  | none => false
  | some y => !y.degraded.contains (y.trayAt (x.slotIn first (a / 2 ^ 21)) (a % 2 ^ 21))

/-- Whether requests on a tray wait: its link is in Recovery (R451). -/
def State.trayWaits (s : State) (t : Nat) : Bool :=
  match s.trayAt t with | none => false | some x => decide (s.link (64 * x.die + x.port) = lkRecovery)

/-- Whether an access to a unit of a set, at a slot and an offset in it, waits for a tray: that of the unit, that of the row's parity where it writes, or any of the row where the unit's own
tray is lost. -/
def State.unitWaits (s : State) (k slot o : Nat) (write : Bool) : Bool :=
  match s.sset k with
  | none => false
  | some y =>
    let t := y.trayAt slot o
    let row := (unitPlace (slot * (2 ^ 21 / y.bytes) + o / y.bytes) y.trays.length true).2
    if y.degraded.contains t then decide (y.mode = 1) && y.trays.any s.trayWaits
    else s.trayWaits t || (write && decide (y.mode = 1) && s.trayWaits (y.parityTray row))

/-- Whether an access to the unit at an address waits for a link in Recovery (R451): a read of a MIRROR floor goes to the other copy, where that one answers. -/
def State.tierWaits (s : State) (x : Ext) (a : Nat) (write : Bool) : Bool :=
  let p := a / 2 ^ 21
  let o := a % 2 ^ 21
  match (s.page p).place with
  | .staging k f => s.unitWaits k f o write
  | .floor =>
    let w1 := s.unitWaits x.set1 (x.slotIn x.slot1 p) o write
    if x.prot = 1 then
      let w2 := s.unitWaits x.set2 (x.slotIn x.slot2 p) o write
      if write then w1 || w2 else (w1 || !s.unitUp x x.set1 x.slot1 a) && (w2 || !s.unitUp x x.set2 x.slot2 a) && (w1 || w2)
    else w1
  | _ => false

/-- Whether an access to a range waits for a link in Recovery. -/
def State.rangeWaits (s : State) (x : Ext) (a n : Nat) (write : Bool) : Bool := (linesOf a n).any (fun l => s.tierWaits x (l * 64) write)

/-- Whether a page has a second readable copy of the unit at an address (R123, R134): a mirror whose tray is there beside the one that is read, the other units of a
parity row, all of whose members are there, a floor slot with FLOOR_VALID, or the second hot frame.
[Marks: DESIGN CHOICE, log entry 34.] -/
def State.secondCopy (s : State) (x : Ext) (a : Nat) : Bool :=
  let y := s.page (a / 2 ^ 21)
  let row (t : Nat) : Bool := match s.sset t with | none => false | some z => decide (z.mode = 1) && z.degraded.isEmpty
  match y.place with
  | .none => false
  | .hot _ (some _) => true
  | .hot _ none => y.floorValid
  | .staging t _ => y.floorValid || row t
  | .floor =>
    if x.prot = 1 then s.unitUp x x.set1 x.slot1 a && s.unitUp x x.set2 x.slot2 a else if x.prot = 2 then row x.set1 else false

/-- Whether a page lies in a DEGRADED set, so that an uncorrectable read of it is a second failure (R123). -/
def State.inDegraded (s : State) (x : Ext) (p : Nat) : Bool :=
  let deg (t : Nat) : Bool := match s.sset t with | none => false | some z => !z.degraded.isEmpty
  match (s.page p).place with
  | .staging t _ => deg t
  | .floor => deg x.set1 || (decide (x.prot = 1) && deg x.set2)
  | _ => false

/-- The cause of an uncorrectable read without a copy (R123, R134). -/
def State.uncorrCause (s : State) (x : Ext) (p : Nat) : Nat := if s.inDegraded x p then 0x323 else 0x311

/-- Writes to a page are held from step 4 of its migration on (R128). -/
def State.pageHeld (s : State) (p : Nat) : Bool :=
  match SMap.get none s.pool.migs p with | none => false | some m => m.verify

/-- Reads of a page are held from step 4 of its migration on (R128); those of a page on its way to a cold floor are served from the source (R148). -/
def State.readHeld (s : State) (p : Nat) : Bool :=
  match SMap.get none s.pool.migs p with | none => false | some m => m.verify && !m.cold

/-! ### Reading and writing at the home -/

/-- How an access at the home goes on: performed, waiting, or ended with a status under a cause that names an object. -/
inductive Acc where
  | ok
  | wait
  | refuse (status cause obj : Nat)
  deriving DecidableEq, Repr

/-- A refusal at the destination of a writing function or an atomic: a POISONED page is met by a write (R132). -/
def Acc.asWrite : Acc → Acc
  | .refuse st c b => .refuse st (if c = 0x312 then 0x313 else c) b
  | y => y

/-- n bytes of fabric memory.
[Marks: DESIGN CHOICE, log entry 4; DESIGN CHOICE, log entry 53.] -/
def State.memBytes (s : State) (a n : Nat) : List Byte := SMap.slice 0 s.pool.mem a n

/-- Lines of a range that are poisoned. -/
def State.poisoned (s : State) (a n : Nat) : List Nat := (linesOf a n).filter (fun l => SMap.get false s.pool.poison l)

/-- The first page of a range whose content lies in a tier. -/
def State.tierPage (s : State) (a n : Nat) : Option Nat := (pagesOf a n).find? (fun p => decide ((s.page p).st ≠ .zero))

/-- How a read of n bytes at the home goes on, when its tier answers `t` (R108, R128, R134, R135, R181, R451).
[Marks: DESIGN CHOICE, log entry 6.] -/
def State.readAcc (s : State) (x : Ext) (a n : Nat) (t : TierRead) : Acc :=
  let ps := pagesOf a n
  if ps.any s.readHeld || s.rangeWaits x a n false then .wait
  else match ps.find? (fun p => decide ((s.page p).st = .poisoned)) with
    | some p => .refuse stUncorr 0x312 p
    | none =>
      match s.tierPage a n, t with
      | some p, .uncorrectable => if s.secondCopy x (max a (p * 2 ^ 21)) then .ok else .refuse stUncorr (s.uncorrCause x p) p
      | some p, .macFail b => if s.secondCopy x (max a (p * 2 ^ 21)) && b then .ok else .refuse stMacFail 0x611 p
      | some p, .timeout => .refuse stTimeout 0 p
      | _, _ => match s.poisoned a n with
        | l :: _ => .refuse stPoison 0x412 l
        | [] => .ok

/-- The HBM stack whose error a read met raises its health score (R519). -/
def hbmUncorr (p : Nat) : Prog := rd fun s =>
  match (s.page p).place with
  | .hot f _ => health (objHbm (f % 6)) 5
  | _ => .skip

/-- What the tier's answer does beside the request (R134, R135): a rebuild from the second copy is recorded; without a copy the page is poisoned and
every request that waits on it ends.
[Marks: DESIGN CHOICE, log entry 12.] -/
def tierNote (x : Ext) (a n : Nat) (t : TierRead) : Prog := rd fun s =>
  match s.tierPage a n, t with
  | some p, .uncorrectable => .all [count F.TIER_UNCORR_COUNT.COUNT [], hbmUncorr p,
      if s.secondCopy x (max a (p * 2 ^ 21)) then log { src := srcFelt, cause := 0x310, sev := 0, obj0 := p, part := some x.part }
      else poisonPage p (s.uncorrCause x p)]
  | some p, .macFail b => .all [count F.CROWN_MAC_FAIL_COUNT.COUNT [],
      Prog.when (s.secondCopy x (max a (p * 2 ^ 21)) && b) (log { src := srcFelt, cause := 0x610, sev := 0, obj0 := p, part := some x.part })]
  | _, _ => .skip

/-- How a write of n bytes at the home goes on (R451). `clears`: a FILL or COPY, which clears the poison of a page it covers whole (R132). -/
def State.writeAcc (s : State) (x : Ext) (a n : Nat) (clears : Bool) : Acc :=
  let ps := pagesOf a n
  let whole (p : Nat) : Bool := clears && decide (a ≤ p * 2 ^ 21) && decide ((p + 1) * 2 ^ 21 ≤ a + n)
  if ps.any s.pageHeld || s.rangeWaits x a n true then .wait
  else match ps.find? (fun p => decide ((s.page p).st = .poisoned) && !whole p) with
    | some p => .refuse stUncorr 0x313 p
    | none =>
      match (s.poisoned a n).find? (fun l => !(decide (a ≤ l * 64) && decide ((l + 1) * 64 ≤ a + n))) with
      | some l => .refuse stPoison 0x413 l
      | none => if ps.any (fun p => (s.storedPage x p).isNone) then .wait else .ok

/-- The pages of a store take their places (R108, R124). -/
def storePages (x : Ext) (a n : Nat) : Prog := Prog.each (pagesOf a n) fun p => rd fun s =>
  match s.storedPage x p with
  | none => .skip
  | some y => .all [.eff (.page p y), Prog.when (decide ({ s.page p with cnt := y.cnt, used := y.used } ≠ y)) (pageChange p), markRecopy p (max a (p * 2 ^ 21)) (min (a + n) ((p + 1) * 2 ^ 21) - max a (p * 2 ^ 21)), touchPage p,
      Prog.when (decide (y.place ≠ (s.page p).place)) prefetchSweep]

/-- Poison marks that a full-line write clears (R181). -/
def clearPoison (a n : Nat) : Prog := rd fun s => Prog.each (s.poisoned a n) fun l => .all [
  .eff (.poison l false), log { src := srcFelt, cause := 0x414, sev := 0, obj0 := l }]

/-- Load entries of the Fuller on the lines of a write take no further participants (R185). -/
def closeCombs (a n : Nat) : Prog := rd fun s =>
  Prog.each s.hitch.combs fun e => match e.2 with
    | none => .skip
    | some c => if c.atomic.isNone ∧ ¬ c.forward ∧ a / 64 ≤ c.line ∧ c.line ≤ (a + n - 1) / 64 then
        .eff (.comb e.1 (some { c with closed := true })) else .skip

/-- The parity rows of a store that goes to a PARITY floor are recorded while their update is in progress (R121). -/
def recordRows (x : Ext) (a n : Nat) : Prog := rd fun s =>
  let rows := (linesOf a n).filterMap (fun l => if (s.page (l * 64 / 2 ^ 21)).place = .floor then s.rowOf x (l * 64) else none)
  let new := rows.eraseDups.filter (fun r => !s.pool.rows.contains r)
  if new.isEmpty then .skip else .all [.eff (.rows (s.pool.rows ++ new)), rowsChange]

/-- Bytes are written at the home, where `writeAcc` lets them through. -/
def homePut (x : Ext) (a : Nat) (bs : List Byte) : Prog :=
  if bs.isEmpty then .skip
  else .all [storePages x a bs.length, clearPoison a bs.length, recordRows x a bs.length, .eff (.memR a bs)]

/-- A store, atomic or near-pool write is performed at the home. -/
def homeWrite (x : Ext) (a : Nat) (bs : List Byte) : Prog := if bs.isEmpty then .skip else .seq (closeCombs a bs.length) (homePut x a bs)

/-! ### Reads of COMPRESSED extents (R388 to R396) -/

/-- How a read of a COMPRESSED extent fails: status, cause, block and sub-stream. -/
structure CodecErr where
  status : Nat
  cause : Nat
  block : Nat
  sub : Nat := 0
  deriving DecidableEq, Repr

/-- Index blocks of a COMPRESSED extent (R388). -/
def indexBlocks (log2 : Nat) : Nat := if log2 ≤ 28 then 1 else log2 - 27

/-- NB_MAX of a COMPRESSED extent (R388). -/
def nbMax (log2 : Nat) : Nat := 2 ^ (log2 - 16) - indexBlocks log2

/-- The header of a COMPRESSED extent (R389). -/
structure CodecHdr where
  ok : Bool
  wcode : Nat
  noBase : Bool
  nb : Nat
  base : Nat
  fill : Nat
  deriving DecidableEq, Repr

/-- The header in stored bytes. -/
def State.codecHdr (s : State) (x : Ext) : CodecHdr :=
  let h := s.memBytes x.base 64
  { ok := decide (leAt h 0 4 = 0x44425846), wcode := byteAt h 4, noBase := bit (byteAt h 5) 0, nb := leAt h 8 4
    base := leAt h 16 8, fill := leAt h 24 8 }

/-- Index entry b: STATE, LEN64, OFF64 (R390). -/
def State.codecEntry (s : State) (x : Ext) (b : Nat) : Nat × Nat × Nat :=
  let v := ofLe (s.memBytes (x.base + 64 + 8 * b) 8)
  (bits v 0 3, bits v 16 11, bits v 32 24)

/-- Base bytes of a logical range: zeros with NO_BASE; from memory where the base is homed here, and otherwise the bytes `far` that another switch of the
stage returned for the range read. -/
def State.baseBytes (s : State) (h : CodecHdr) (x n : Nat) (far : List Byte) : List Byte :=
  if h.noBase then List.replicate n 0
  else
    let a := (h.base + x) % 2 ^ 52
    if (s.extAt a).isSome then s.memBytes a n else (far.take n) ++ List.replicate (n - far.length) 0

/-- The decoded bytes of sub-range [o, o + m) of logical block b (R390, R395, R396). -/
def State.codecBlock (s : State) (x : Ext) (h : CodecHdr) (b o m : Nat) (far : List Byte) : Except CodecErr (List Byte) :=
  let e := s.codecEntry x b
  if e.1 = 2 then
    let o1 := o / 1024 * 1024
    let n1 := (o + m + 1023) / 1024 - o / 1024
    if e.2.1 = 0 ∨ 1024 ≤ e.2.1 ∨ x.size < 64 * (e.2.2 + e.2.1) then .error { status := stUnderrun, cause := 0x391, block := b }
    else match Frame.parse h.wcode b (s.memBytes (x.base + 64 * e.2.2) (64 * e.2.1)) with
      | none => .error { status := stUnderrun, cause := 0x391, block := b }
      | some f => match f.subs (o / 1024) n1 with
        | (.ok z, _) => .ok (((undoStream (wBits h.wcode) z (s.baseBytes h (65536 * b + o1) (1024 * n1) far)).drop (o - o1)).take m)
        | (.overrun, i) => .error { status := stOverrun, cause := 0x390, block := b, sub := i }
        | (.underrun, i) => .error { status := stUnderrun, cause := 0x391, block := b, sub := i }
  else if e.1 = 3 then .ok (s.memBytes (x.base + 64 * e.2.2 + o) m)
  else if e.1 = 4 then .ok (s.baseBytes h (65536 * b + o) m far)
  else .error { status := stDenied, cause := 0x392, block := b }

/-- Logical bytes [o, o + n) of a COMPRESSED extent, block by block; the first argument bounds the blocks.
[Marks: DESIGN CHOICE, log entry 37.] -/
def State.codecRead (s : State) (x : Ext) (h : CodecHdr) : Nat → Nat → Nat → List Byte → Except CodecErr (List Byte)
  | 0, _, _, _ => .ok []
  | k + 1, o, n, far =>
    if n = 0 then .ok []
    else if ¬ h.ok ∨ h.nb * 65536 < o + n then .error { status := stDenied, cause := 0x392, block := o / 65536 }
    else
      let m := min n (65536 - o % 65536)
      match s.codecBlock x h (o / 65536) (o % 65536) m far with
      | .error e => .error e
      | .ok bs => match s.codecRead x h k (o + m) (n - m) (far.drop m) with
        | .error e => .error e
        | .ok r => .ok (bs ++ r)

/-- The stored ranges that a read of logical bytes [o, o + n) meets, with the extent of each (R388 to R390, R396): header, index entries, frames and RAW
bytes, and the base bytes homed here; the first argument bounds the blocks. -/
def State.codecRanges (s : State) (x : Ext) (h : CodecHdr) : Nat → Nat → Nat → List (Ext × Nat × Nat)
  | 0, _, _ => []
  | k + 1, o, n =>
    if n = 0 then []
    else
      let b := o / 65536
      let m := min n (65536 - o % 65536)
      let e := s.codecEntry x b
      let own := if e.1 = 2 then [(x, x.base + 64 * e.2.2, 64 * e.2.1)] else if e.1 = 3 then [(x, x.base + 64 * e.2.2 + o % 65536, m)] else []
      let ba := (h.base + o) % 2 ^ 52
      let far := if h.noBase ∨ e.1 = 3 then [] else match s.extAt ba with
        | some y => [(s.ext y, ba, m)]
        | none => []
      (x, x.base + 64 + 8 * b, 8) :: (own ++ far ++ s.codecRanges x h k (o + m) (n - m))

/-- The ranges of memory that a read of n bytes at a fabric address meets. -/
def State.readRanges (s : State) (x : Ext) (a n : Nat) : List (Ext × Nat × Nat) :=
  if x.compressed then
    let h := s.codecHdr x
    (x, x.base, 64) :: (if h.ok then s.codecRanges x h (n / 65536 + 2) (a - x.base) n else [])
  else [(x, a, n)]

/-- How a read of several ranges goes on: the tier answers `t` at the first page whose content lies in a tier. -/
def State.readAccs (s : State) (t : TierRead) : List (Ext × Nat × Nat) → Acc
  | [] => .ok
  | (x, a, n) :: rs =>
    match s.readAcc x a n t with
    | .ok => s.readAccs (if (s.tierPage a n).isSome then .ok else t) rs
    | y => y

/-- What the tier's answer does beside the request, at that page. -/
def tierNotes (t : TierRead) (rs : List (Ext × Nat × Nat)) : Prog := rd fun s =>
  match rs.find? (fun r => (s.tierPage r.2.1 r.2.2).isSome) with
  | none => .skip
  | some r => tierNote r.1 r.2.1 r.2.2 t

/-- The codec requests at the units of a die. -/
def State.codecQueue (s : State) (d : Nat) : Nat :=
  s.eng.ops.countP (fun e => match e.2 with | some p => decide (p.kind = .codec) && decide (p.mask = d) && !p.dead | none => false)

/-- The die whose codec units serve a read: the sender's die where its CODEC_EN is 1, else of the dies with CODEC_EN = 1 the one with the fewest codec requests, the
lowest of several (R396, R404).
[Marks: DESIGN CHOICE, log entry 66.] -/
def State.codecDie (s : State) (die : Option Nat) : Option Nat :=
  let up (n : Nat) : Bool := s.rb F.CODEC_CTRL.CODEC_EN [n] && bit (s.r F.CROWN_DIE_STATUS.BRIM_ONLINE []) n
  let best : Option Nat := (List.range 8).foldl (fun b n => if up n then (match b with
    | none => some n
    | some m => if s.codecQueue n < s.codecQueue m then some n else some m) else b) none
  match die with
  | some n => if up n then some n else best
  | none => best

/-- A decode is counted on its die: decoded bytes, or how it failed (R412). -/
def codecCount (n : Nat) (r : Except CodecErr (List Byte)) : Prog :=
  match r with
  | .ok bs => tally F.CODEC_DEC_BYTES.BYTES [n] bs.length
  | .error e =>
    if e.status = stOverrun then count F.CODEC_OVERRUN_COUNT.COUNT [n]
    else if e.status = stUnderrun then count F.CODEC_UNDERRUN_COUNT.COUNT [n] else .skip

/-- The bytes that a read of n bytes at a fabric address in an extent returns: logical bytes of a COMPRESSED extent, memory otherwise. -/
def State.readBytes (s : State) (x : Ext) (a n : Nat) (far : List Byte) : Except CodecErr (List Byte) :=
  if x.compressed then s.codecRead x (s.codecHdr x) (n / 65536 + 2) (a - x.base) n far
  else .ok (s.memBytes a n)

end Sys2Proof.Machine
end

