-- ==== Sys2Proof/Machine/Crypt.lean ====
section
/-! DEFINITION. Keys (R472), and memory protection (R475 to R477): the keys of memory, and the form in which the blocks of the pool are stored in every tier. `State` holds the
bytes that the memory protection units give on a read; what lies in a frame or on a tray is computed from them, here. -/
namespace Sys2Proof.Machine
open Sys2Proof

/-! ### Keys (R472) -/

/-- The bytes of an ASCII label. -/
def label (t : String) : List Byte := t.toList.map (fun c => BitVec.ofNat 8 c.toNat)

/-- PRK_DEV: extracted from IDS and the DEBUG_STATE byte under the salt "FQS9025". -/
def State.prkDev (s : State) : List Byte :=
  hkdfExtract (label "FQS9025") (beBytes 32 Config.ids.toNat ++ beBytes 1 (s.r F.CROWN_LC_STATUS.DEBUG_STATE []))

/-- Data key, tweak key and MAC key of a memory key. -/
structure MemKey where
  k1 : List Nat
  k2 : List Nat
  km : List Nat
  deriving DecidableEq, Repr

/-- MEK(p, e). -/
def State.mek (s : State) (p e : Nat) : MemKey :=
  let k := nats (hkdfExpand s.prkDev (label "mem" ++ beBytes 1 p ++ beBytes 4 e) 96)
  { k1 := k.take 32, k2 := (k.drop 32).take 32, km := k.drop 64 }

/-- SYS_MEK, the key of switch metadata on trays. -/
def State.sysMek (s : State) : MemKey := s.mek 0xFF 0

/-- A private key of P-384 expanded from PRK_DEV under an info string, reduced modulo the group order. -/
def State.privKey (s : State) (info : List Byte) : Nat := ofBe (hkdfExpand s.prkDev info 48) % p384n

/-- The public key of a private key: its coordinates, most significant byte first, 48 bytes each. -/
def pubKey (k : Nat) : List Byte := match ptMul 384 k p384G with
  | some (x, y) => beBytes 48 x ++ beBytes 48 y
  | none => List.replicate 96 0

/-- The private key of DevID, the identity of the part. -/
def State.devKey (s : State) : Nat := s.privKey (label "devid")

/-- The private key of AgreeID, for static key agreement. -/
def State.agreeKey (s : State) : Nat := s.privKey (label "agree")

/-- The private key of Alias, which signs attestation, bound to the boot measurements.
[Marks: DESIGN CHOICE, log entry 68.] -/
def State.aliasKey (s : State) : Nat :=
  s.privKey (label "alias" ++ sha384 ([Config.romDigest, SMap.get 0 s.boot.meas 2, SMap.get 0 s.boot.meas 3, SMap.get 0 s.boot.meas 4].flatMap (beBytes 48)))

/-- The digest of the DevID public key of this part (R473, R474).
[Marks: DESIGN CHOICE, log entry 68.] -/
def State.devId (s : State) : Nat := ofBe (sha384 (pubKey s.devKey))

/-! ### Link keys (R480, R481) -/

/-- A coordinate of CROWN_PEER_n, most significant word first. -/
def State.peerCoord (s : State) (f : Fld) (n : Nat) : Nat := (List.range 12).foldl (fun a i => a * 2 ^ 32 + s.r f [n, i]) 0

/-- Z: the static-static ECDH of the AgreeID private key with the peer key of a port, 48 bytes. -/
def State.linkZ (s : State) (p : Nat) : List Byte :=
  match ptMul 384 s.agreeKey (some (s.peerCoord F.CROWN_PEER.PUB_X p, s.peerCoord F.CROWN_PEER.PUB_Y p)) with
  | some (x, _) => beBytes 48 x
  | none => List.replicate 48 0

/-- PRK_L from the nonces of both ends, ordered as unsigned numbers, and Z.
[Marks: DESIGN CHOICE, log entry 68.] -/
def prkLink (own peer z : List Byte) : List Byte := hkdfExtract (if ofBe own ≤ ofBe peer then own ++ peer else peer ++ own) z

/-- SAK_k of a port.
[Marks: DESIGN CHOICE, log entry 68.] -/
def PortSt.sakKey (x : PortSt) (k : Nat) : List Byte := hkdfExpand x.prk (label "sak" ++ beBytes 4 k) 32

/-- The XPN salt that goes with SAK_k.
[Marks: DESIGN CHOICE, log entry 68.] -/
def PortSt.xpnSalt (x : PortSt) (k : Nat) : List Byte := hkdfExpand x.prk (label "salt" ++ beBytes 4 k) 12

/-- The pre-shared key of the SPDM session of a CXL link (R481). -/
def PortSt.psk (x : PortSt) : List Byte := hkdfExpand x.prk (label "spdm-psk") 48

/-! ### The MAC word of a block (R476) -/

/-- E_KM of a 128-bit word, as a 128-bit word; words lie in memory least significant byte first.
[Marks: DEDUCED, log entry 65.] -/
def MemKey.pad (k : MemKey) (blk p e mask : Nat) : Nat :=
  ofLe (byteList (aesEnc k.km (nats (leBytes 16 (blk % 2 ^ 44 + p % 256 * 2 ^ 44 + e % 2 ^ 32 * 2 ^ 52 + mask % 16 * 2 ^ 84)))))

/-- The MAC of the ciphertext of a block before its poison mask.
[Marks: DEDUCED, log entry 65.] -/
def MemKey.mac (k : MemKey) (blk p e : Nat) (cipher : List Byte) : Nat :=
  (ofLe (ghash (ofBe (byteList (aesEnc k.km (List.replicate 16 0)))) cipher) ^^^ k.pad blk p e 0) % 2 ^ 64

/-- The MAC word M of a block whose lines of `mask` are poisoned. -/
def MemKey.word (k : MemKey) (blk p e mask : Nat) (cipher : List Byte) : Nat :=
  if mask = 0 then k.mac blk p e cipher else k.mac blk p e cipher ^^^ (k.pad blk p e mask % 2 ^ 64)

/-- What a read finds of a stored block: the mask of the candidate word that matches, none where none does (a MAC failure, R135). -/
def MemKey.verify (k : MemKey) (blk p e : Nat) (cipher : List Byte) (m : Nat) : Option Nat :=
  (List.range 16).find? (fun mask => decide (k.word blk p e mask cipher = m))

/-- A block of 256 bytes as it is stored under its number (R475). -/
def MemKey.seal (k : MemKey) (blk : Nat) (bs : List Byte) : List Byte := xtsEnc k.k1 k.k2 blk bs

/-- The bytes of a stored block: what the memory protection unit decrypts. -/
def MemKey.unseal (k : MemKey) (blk : Nat) (cipher : List Byte) : List Byte := xtsDec k.k1 k.k2 blk cipher

/-! ### The pool as it is stored (R475, R477) -/

/-- The poisoned lines of the block at a fabric address, a bit each. -/
def State.poisonMask (s : State) (a : Nat) : Nat :=
  ((List.range 4).map (fun i => if SMap.get false s.pool.poison (a / 64 + i) then 2 ^ i else 0)).sum

/-- The partition of the extent at a fabric address, with its key epoch. -/
def State.keyOf (s : State) (a : Nat) : Nat × Nat :=
  let p := match s.extAt a with | some e => (s.ext e).part | none => 0
  (p, s.r F.CROWN_KEY_EPOCH.EPOCH [p])

/-- The ciphertext of the block at a fabric address, the same in every tier (R475).
[Marks: DEDUCED, log entry 65.] -/
def State.cipher (s : State) (a : Nat) : List Byte :=
  (s.mek (s.keyOf a).1 (s.keyOf a).2).seal (a / 256) (s.memBytes (a / 256 * 256) 256)

/-- The MAC word of the block at a fabric address (R476).
[Marks: DEDUCED, log entry 65.] -/
def State.macWord (s : State) (a : Nat) : Nat :=
  (s.mek (s.keyOf a).1 (s.keyOf a).2).word (a / 256) (s.keyOf a).1 (s.keyOf a).2 (s.poisonMask (a / 256 * 256)) (s.cipher a)

/-- Metadata offset of the MAC word of the block at an offset of a DRAM tray (R477). -/
def macOffset (t : Nat) : Nat := 8 * (t / 256)

/-- Data blocks of 4,096 bytes from a fabric address on as a flash tray stores them: ciphertext, then 128 bytes of MAC words (R138, R477).
[Marks: DEDUCED, log entry 65.] -/
def State.stored (s : State) (a : Nat) : Nat → List Byte
  | 0 => []
  | n + 1 => (List.range 16).flatMap (fun i => s.cipher (a + 256 * i)) ++ (List.range 16).flatMap (fun i => leBytes 8 (s.macWord (a + 256 * i))) ++
      s.stored (a + 4096) n

/-- Bytes of switch metadata as the block of 4,096 bytes that a tray stores under SYS_MEK, filled with zeros; a free value numbers its blocks of 256 bytes (R477).
[Marks: DEDUCED, log entry 65.] -/
def State.sealMeta (s : State) (t z wp : Nat) (bs : List Byte) : List Byte :=
  let b := bs ++ List.replicate (4096 - bs.length) 0
  let blk (i : Nat) : Nat := Config.metaBlock t z (16 * wp + i)
  let c (i : Nat) : List Byte := s.sysMek.seal (blk i) ((b.drop (256 * i)).take 256)
  (List.range 16).flatMap c ++ (List.range 16).flatMap (fun i => leBytes 8 (s.sysMek.word (blk i) 0xFF 0 0 (c i)))

end Sys2Proof.Machine
end

