-- ==== Sys2Proof/Machine/Hitch.lean ====
section
/-! DEFINITION. The Hitch (ch. 05): the directory, the one transaction open on a line, snoops, agent messages and the loss of an agent. -/
namespace Sys2Proof.Machine
open Sys2Proof

/-! ### Directory and transactions -/

/-- The directory entry of a line. -/
def State.dirAt (s : State) (l : Nat) : Option DirEnt := SMap.get none s.hitch.dir l

/-- The transaction open on a line. -/
def State.txnAt (s : State) (l : Nat) : Option Txn := SMap.get none s.hitch.txns l

/-- Agent states (R192). -/
def agAbsent : Nat := 0
/-- ACTIVE. -/
def agActive : Nat := 1
/-- RECALLING. -/
def agRecalling : Nat := 2
/-- LOST. -/
def agLost : Nat := 3

/-- STATE of an agent. -/
def State.agentSt (s : State) (n : Nat) : Nat := s.r F.HITCH_AGENT.STATE [n]

/-- Partition of an agent. -/
def State.agentPart (s : State) (n : Nat) : Nat := s.r F.HITCH_AGENT.PARTITION [n]

/-- A line is marked poisoned (R181); an event of cause 0x410 or 0x411. -/
def poisonLine (l cause : Nat) (agent : Nat) : Prog := .all [
  .eff (.poison l true), count F.HITCH_POISON_COUNT.COUNT [],
  log { src := srcFelt, cause := cause, sev := 0, obj0 := l, obj1 := agent }]

/-- The holders of a line that are being recalled after their loss leave it; a line that such an agent owned in EM is poisoned (R180, R181). -/
def purgeLine (l : Nat) : Prog := rd fun s =>
  match s.dirAt l with
  | none => .skip
  | some e =>
    match e.holders.find? (fun n => decide (s.agentSt n = agRecalling)) with
    | none => .skip
    | some n =>
      let keep := e.holders.filter (fun n => decide (s.agentSt n ≠ agRecalling))
      .all [.eff (.dir l (if keep.isEmpty then none else some { e with holders := keep })), dirChange l,
        Prog.when e.em (poisonLine l 0x410 n)]

/-- Whether an operation of an agent takes the line into its cache. -/
def CxlOp.caches : CxlOp → Bool
  | .rdShared | .rdAny | .rdOwn | .rdOwnNoData => true
  | _ => false

/-- Whether an operation of an agent writes the line from outside its cache. -/
def CxlOp.writes : CxlOp → Bool
  | .itoMWr | .wrCur | .wrInv => true
  | _ => false

/-- Whether a request writes the lines it names (R170). -/
def Req.writesLines (q : Req) : Bool :=
  decide (q.op = 0x11 ∨ q.op = 0x12 ∨ q.op = 0x15) ||
  (decide (q.op = 0x16) && !(decide (bits q.attr 16 6 = 3) || decide (bits q.attr 16 6 = 4)))

/-- The snoop a transaction sends and the agents it goes to, by the directory state of its line (R170); the clear of a line that is not poisoned has no effect (R192). -/
def State.snoopsOf (s : State) (l : Nat) (k : TxnKind) : Snoop × List Nat :=
  match s.dirAt l with
  | none => (.inv, [])
  | some e =>
    match k with
    | .cxl op n _ _ =>
      let others := e.holders.filter (· ≠ n)
      match op with
      | .rdShared | .rdAny => if e.em then (.data, others) else (.inv, [])
      | .rdOwn | .rdOwnNoData | .itoMWr | .wrCur | .wrInv => (.inv, others)
      | .rdCurr | .memRdData => if e.em then (.cur, others) else (.inv, [])
      | .clFlush | .cleanEvict | .cleanEvictNoData | .dirtyEvict | .memWr | .memClnEvct => (.inv, [])
    | .req r =>
      match s.req r with
      | none => (.inv, [])
      | some q => if q.writesLines then (.inv, e.holders) else if e.em then (.cur, e.holders) else (.inv, [])
    | .evict => (.inv, e.holders)
    | .poisonClear => (.inv, if SMap.get false s.pool.poison l then e.holders else [])
    | .done => (.inv, [])

/-- The set of a line (R167). -/
def dirSet (l : Nat) : Nat := l % 2 ^ 20

/-- The entries of a line's set. -/
def State.setEnts (s : State) (l : Nat) : List DirEnt :=
  s.hitch.dir.filterMap (fun e => if dirSet e.1 = dirSet l then e.2 else none)

/-- The lowest permitted way of a line's set that is free (R175). -/
def State.freeWay (s : State) (l p : Nat) : Option Nat :=
  firstIdx (fun w => bit (s.r F.HITCH_WAYMASK.WAYS [p]) w && !(s.setEnts l).any (fun e => e.way = w)) 16

/-- An entry is a better victim than another: older, and S before EM of equal age (R175).
[Marks: DEDUCED, log entry 27.] -/
def DirEnt.sooner (a b : DirEnt) : Bool :=
  decide (b.age < a.age) || (decide (a.age = b.age) && !a.em && b.em)

/-- The victim of a full set among the permitted ways that are not BUSY (R175); entries of a fenced partition's lines stay unchanged (R191).
[Marks: DEDUCED, log entry 27.] -/
def State.victim (s : State) (l p : Nat) : Option DirEnt :=
  ((s.setEnts l).filter (fun e => bit (s.r F.HITCH_WAYMASK.WAYS [p]) e.way && (s.txnAt e.line).isNone && !s.fenced e.part)).foldl
    (fun best e => match best with
      | none => some e
      | some b => if e.sooner b then some e else some b) none

/-- Evictions that run. -/
def State.evictions (s : State) : Nat :=
  s.hitch.txns.countP (fun e => match e.2 with | some t => decide (t.kind = .evict) | none => false)

/-- The other entries of a set grow older by one when an entry is used. -/
def ageSet (l : Nat) : Prog := rd fun s => Prog.each (s.setEnts l) fun e =>
  if e.line = l then .skip else .eff (.dir e.line (some { e with age := min 15 (e.age + 1) }))

/-- A directory entry of a line is set, in its way or in a free permitted one. -/
def setDir (l p : Nat) (em : Bool) (holders : List Nat) : Prog := rd fun s =>
  let way := match s.dirAt l with | some e => e.way | none => (s.freeWay l p).getD 0
  .all [ageSet l, .eff (.dir l (some { line := l, em := em, holders := holders, part := p, way := way })), dirChange l]

/-- A line leaves the directory. -/
def dropDir (l : Nat) : Prog := rd fun s =>
  if (s.dirAt l).isSome then .all [.eff (.dir l none), dirChange l] else .skip

/-- Bytes an agent returns are written to memory, poisoned where they carry the poison indication (R170, R181). A page for which no frame is free
takes its place when one is. Joining of a load entry goes on after a writeback, which is no store of R185; `write`: the agent writes the line from outside its cache. -/
def agentData (l : Nat) (data : List Byte) (poison : Bool) (n : Nat) (write : Bool := false) : Prog := rd fun s =>
  match s.extAt (l * 64) with
  | none => .skip
  | some e => .all [
      Prog.when (decide (data.length = 64)) (.all [
        Prog.when ((s.storedPage (s.ext e) (l * 64 / 2 ^ 21)).isNone)
          (.eff (.page (l * 64 / 2 ^ 21) { s.page (l * 64 / 2 ^ 21) with st := .valid, floorValid := false })),
        Prog.when write (closeCombs (l * 64) 64), homePut (s.ext e) (l * 64) data]),
      Prog.when poison (poisonLine l 0x411 n)]

/-- A CXL answer to an agent. -/
def cxlTo (n msg l : Nat) (data : List Byte) : Prog := rd fun s => send (.cxl (s.agentPort n) msg l data)

/-- Whether an agent is a host on HDM-DB (R165). -/
def State.isHost (s : State) (n : Nat) : Bool := s.rb F.HITCH_AGENT.KIND [n]

/-- A request of an agent is completed, once every response is in (R170). `fromEM`: the line was in EM when the request took its turn. -/
def finishCxl (l : Nat) (op : CxlOp) (n : Nat) (data : List Byte) (poison fromEM : Bool) : Prog := rd fun s =>
  let p := s.agentPart n
  let mem := s.memBytes (l * 64) 64
  let ent := s.dirAt l
  let held := (ent.map (·.holders)).getD []
  let owner := match ent with | some e => e.em && e.holders.contains n | none => false
  let marked := SMap.get false s.pool.poison l
  let badPage := decide ((s.page (l * 64 / 2 ^ 21)).st = .poisoned)
  let refused := .all [log { src := srcFelt, cause := 0x412, sev := 2, status := stPoison, obj0 := l, obj1 := n, part := some p }, cxlTo n cxlPoison l mem]
  let grantS := .all [setDir l p false (held.filter (· ≠ n) ++ [n]), cxlTo n (if s.isHost n then cxlCmpS else cxlGoS) l mem]
  let grantE (bs : List Byte) := .all [setDir l p true [n],
    cxlTo n (if s.isHost n then cxlCmpE else if bs.isEmpty then cxlGoENoData else cxlGoE) l bs]
  let remove := if held.contains n then
      (if held = [n] then dropDir l else setDir l p ((ent.map (·.em)).getD false) (held.filter (· ≠ n)))
    else .skip
  let pulled := Prog.each (cxlWriteDone (some op)) (fun m => cxlTo n m l [])
  let reads : Bool := match op with | .rdCurr | .memRdData | .rdShared | .rdAny | .rdOwn | .rdOwnNoData => true | _ => false
  if badPage ∧ (reads ∨ op.writes) then
    .all [log { src := srcFelt, cause := if reads then 0x312 else 0x313, sev := 2, status := stUncorr, obj0 := l * 64 / 2 ^ 21, obj1 := n, part := some p },
      cxlTo n cxlErr l []]
  else if marked ∧ reads then refused
  else match op with
  | .rdCurr | .memRdData => cxlTo n cxlData l mem
  | .rdShared => if owner then cxlTo n (if s.isHost n then cxlCmpE else cxlGoE) l mem else grantS
  | .rdAny =>
    if owner then cxlTo n (if s.isHost n then cxlCmpE else cxlGoE) l mem
    else if held.isEmpty ∧ ¬ fromEM ∧ ¬ s.rb F.HITCH_CTRL.NO_E [] then grantE mem else grantS
  | .rdOwn => grantE mem
  | .rdOwnNoData => grantE []
  | .itoMWr | .wrCur | .wrInv => .all [dropDir l, agentData l data poison n true, pulled]
  | .clFlush | .cleanEvict | .cleanEvictNoData => .all [remove, cxlTo n cxlGoI l []]
  | .memClnEvct => .all [remove, cxlTo n cxlCmp l []]
  | .dirtyEvict => if owner then .all [dropDir l, agentData l data poison n, pulled] else cxlTo n cxlGoI l []
  | .memWr => if owner then .all [dropDir l, agentData l data poison n, cxlTo n cxlCmp l []] else cxlTo n cxlCmp l []

/-- HITCH_POISON_CTRL clears a line (R181, R192). -/
def finishPoisonClear (l : Nat) : Prog := rd fun s =>
  let was := SMap.get false s.pool.poison l
  .all [
    Prog.when was (.all [
      dropDir l,
      Prog.when (!s.rb F.HITCH_POISON_CTRL.MODE []) (.eff (.memR (l * 64) (List.replicate 64 0))),
      .eff (.poison l false), log { src := srcFelt, cause := 0x414, sev := 0, obj0 := l }, closeCombs (l * 64) 64]),
    wr F.HITCH_POISON_CTRL.WAS_POISONED [] (b2n was), wr F.HITCH_POISON_CTRL.DONE [] 1, wr F.HITCH_POISON_CTRL.GO [] 0]

/-- A load takes the data of a line at its turn (R170, R172). -/
def captureLine (r l : Nat) : Prog := rd fun s =>
  match s.req r with
  | none => .skip
  | some q => .eff (.req r (some { q with got := q.got ++ [(l, s.memBytes (l * 64) 64)] }))

/-- Snoops go out to agents. -/
def snoopAll (l : Nat) (k : Snoop) (ns : List Nat) : Prog := Prog.each ns fun n => send (.snoop n k l)

/-- An error completion on CXL under a cause (R87, R166).
[Marks: DEDUCED, log entry 27.] -/
def cxlRefuse (port l status cause obj part : Nat) : Prog := .all [
  Prog.when (decide (cause ≠ 0)) (log { src := srcFelt, cause := cause, sev := 2, status := status, obj0 := obj, obj1 := port, part := some part }),
  send (.cxl port cxlErr l [])]

/-- The partition of a transaction. -/
def State.kindPart (s : State) (k : TxnKind) : Option Nat :=
  match k with
  | .cxl _ n _ _ => some (s.agentPart n)
  | .req r => (s.req r).map (·.part)
  | _ => none

/-- Open transactions of a partition, waiting ones included. -/
def State.txnUsed (s : State) (p : Nat) : Nat :=
  (s.hitch.txns.flatMap (fun e => match e.2 with | some t => t.kind :: t.queue | none => [])).countP (fun k => s.kindPart k = some p)

/-- Places for k more transactions of a partition: within its share or in the free pool (R172). -/
def State.txnFits (s : State) (p k : Nat) : Bool :=
  decide (s.txnUsed p + k ≤ s.r F.HITCH_TXN_MIN.MIN [p]) ||
  decide (((List.range 16).map (fun i => max (s.txnUsed i + (if i = p then k else 0)) (s.r F.HITCH_TXN_MIN.MIN [i]))).sum ≤ 131072)

/-- An agent request of the ingress queues has the partition p. -/
def State.ofPart (s : State) (p : Nat) (e : Nat × TxnKind) : Bool := decide (s.kindPart e.2 = some p)

/-- k transactions of a partition find places, with none of its requests waiting before them (R172). -/
def State.txnRoom (s : State) (p k : Nat) : Bool := s.txnFits p k && !s.hitch.ingress.any (s.ofPart p)

/-- The first request of the ingress queues for which there is a place (R172). -/
def State.ingressNext (s : State) : Option (Nat × TxnKind) :=
  s.hitch.ingress.find? (fun e => match s.kindPart e.2 with | some p => s.txnFits p 1 | none => true)

/-- A line whose agent request waited for a way can go on: the line is in the directory, a way is free, or an entry can be evicted (R175). -/
def State.resumes (s : State) (l : Nat) : Bool :=
  match s.txnAt l with
  | some t => (match t.kind with
    | .cxl _ n _ _ =>
      let p := s.agentPart n
      (s.dirAt l).isSome || (s.freeWay l p).isSome || (decide (s.evictions < 256) && (s.victim l p).isSome)
    | _ => true)
  | none => true

/-- A transaction becomes the one open on its line: holders that are being recalled leave it, and its snoops go out; `go` is done where no response is to come. -/
def openTxn (l : Nat) (k : TxnKind) (queue : List TxnKind) (go : Prog) : Prog := .all [purgeLine l, rd fun u =>
  let sn := u.snoopsOf l k
  .all [.eff (.txn l (some { kind := k, snoop := sn.1, waitFor := sn.2, queue := queue })), snoopAll l sn.1 sn.2, Prog.when sn.2.isEmpty go]]

/-- The transactions of a line go on, from one whose last response is in to the next that waits (R172, R175); without a line, requests that waited for a way or for a
place, in order of arrival. The first argument bounds the steps. A request of a requester that stores keeps the line until it is performed. A request of an agent that is
no longer ACTIVE is refused (R180).
[Marks: DEDUCED, log entry 27.] -/
def drive : Nat → Option Nat → Prog
  | 0, _ => .skip
  | fuel + 1, none => rd fun s =>
    match s.hitch.stalls.find? s.resumes, s.ingressNext with
    | some l, _ => .all [.eff (.stalls (s.hitch.stalls.erase l)), drive fuel (some l), drive fuel none]
    | none, some (l, k) => .all [.eff (.ingress (s.hitch.ingress.erase (l, k))),
        (match s.txnAt l with
        | some t => .eff (.txn l (some { t with queue := t.queue ++ [k] }))
        | none => openTxn l k [] (drive fuel (some l))),
        drive fuel none]
    | none, none => .skip
  | fuel + 1, some l => rd fun s =>
    match s.txnAt l with
    | none => .skip
    | some t =>
      let next : Prog :=
        match t.queue with
        | [] => .all [.eff (.txn l none), drive fuel none]
        | k :: rest => .all [openTxn l k rest (drive fuel (some l)), drive fuel none]
      if ¬ t.waitFor.isEmpty then .skip
      else match t.kind with
        | .cxl op n data poison =>
          let p := s.agentPart n
          if s.agentSt n ≠ agActive then .seq (cxlRefuse (s.agentPort n) l stDenied 0x420 n p) next
          else if op.caches ∧ (s.dirAt l).isNone ∧ (s.freeWay l p).isNone ∧ SMap.get false s.pool.poison l = false ∧
              (s.page (l * 64 / 2 ^ 21)).st ≠ .poisoned then
            match (if s.evictions < 256 then s.victim l p else none) with
            | none => if s.hitch.stalls.contains l then .skip else .eff (.stalls (s.hitch.stalls ++ [l]))
            | some v => .all [count F.HITCH_EVICT_COUNT.COUNT [], purgeLine v.line, rd fun u =>
                match u.dirAt v.line with
                | none => drive fuel (some l)
                | some e => .all [
                    .eff (.txn v.line (some { kind := .evict, snoop := .inv, waitFor := e.holders, next := some (l, t.kind) })),
                    snoopAll v.line .inv e.holders]]
          else .seq (finishCxl l op n data poison (decide (t.snoop = .data))) next
        | .req r =>
          match s.req r with
          | none => next
          | some q => if q.writesLines then .skip else .seq (captureLine r l) next
        | .evict => .all [dropDir l,
            match t.next with
            | none => .skip
            | some p => .all [.eff (.txn l (some { t with next := none })), drive fuel (some p.1)],
            next]
        | .poisonClear => .seq (finishPoisonClear l) next
        | .done => next

/-- A bound for the steps of `drive`: transactions and waiting ones. -/
def State.driveFuel (s : State) : Nat :=
  8 + 4 * ((s.hitch.txns.map (fun e => match e.2 with | some t => 1 + t.queue.length | none => 0)).sum + s.hitch.stalls.length + s.hitch.ingress.length)

/-- The transactions of a line go on. -/
def driveLine (l : Nat) : Prog := rd fun s => drive s.driveFuel (some l)

/-- Requests that wait for a way or a place go on. -/
def driveWaiting : Prog := rd fun s => drive s.driveFuel none

/-- A request takes its turn on a line: it waits behind those before it (R172). -/
def enqueue (l : Nat) (k : TxnKind) : Prog := rd fun s =>
  match s.txnAt l with
  | some t => .eff (.txn l (some { t with queue := t.queue ++ [k] }))
  | none => openTxn l k [] (driveLine l)

/-- A clear becomes the next transaction on its line (R192). -/
def enqueueNext (l : Nat) (k : TxnKind) : Prog := rd fun s =>
  match s.txnAt l with
  | some t => .eff (.txn l (some { t with queue := k :: t.queue }))
  | none => openTxn l k [] (driveLine l)

/-- A request of an agent takes its turn, or waits in the ingress queue of its partition for a place (R172). -/
def enqueueAgent (p l : Nat) (k : TxnKind) : Prog := rd fun s =>
  if s.txnRoom p 1 then enqueue l k else .eff (.ingress (s.hitch.ingress ++ [(l, k)]))

/-- A line has been granted to a request. -/
def State.granted (s : State) (r l : Nat) : Bool :=
  match s.txnAt l with
  | some t => decide (t.kind = .req r) && t.waitFor.isEmpty
  | none => false

/-- A request already waits for, or holds, a line. -/
def State.inLine (s : State) (r l : Nat) : Bool :=
  match s.txnAt l with
  | some t => decide (t.kind = .req r) || t.queue.contains (.req r)
  | none => false

/-- A request that is performed, or has ended, gives up the lines it holds, and the next transactions of the lines go on. -/
def releaseLines (r : Nat) (ls : List Nat) : Prog := Prog.each ls fun l => rd fun s =>
  match s.txnAt l with
  | none => .skip
  | some t =>
    if t.kind = .req r then
      (if t.waitFor.isEmpty then .all [.eff (.txn l (some { t with kind := .done })), driveLine l] else .skip)
    else .eff (.txn l (some { t with queue := t.queue.erase (.req r) }))

/-! ### Requests of the home on a COHERENT line -/

/-- The lines of a load that keep it waiting: BUSY ones and those owned in EM, unless their data was taken (R170, R172). -/
def State.loadBlocked (s : State) (q : Req) (ls : List Nat) : List Nat :=
  ls.filter (fun l => !q.got.any (fun g => g.1 = l) && ((s.txnAt l).isSome || (match s.dirAt l with | some e => e.em | none => false)))

/-- A load of a COHERENT extent takes its turn on the lines that keep it waiting; then `go` is done. -/
def loadLines (r : Nat) (q : Req) (ls : List Nat) (go : Prog) : Prog := rd fun s =>
  match s.loadBlocked q ls with
  | [] => go
  | bs => if ¬ s.txnRoom q.part (bs.filter (fun l => !s.inLine r l)).length then .skip else .all [
      Prog.each bs (fun l => rd fun u => if u.inLine r l then .skip else enqueue l (.req r)),
      rd fun u => match u.req r with
        | none => .skip
        | some q' => if (u.loadBlocked q' ls).isEmpty then go
          else .eff (.req r (some { q' with wait := .line (bs.headD 0) }))]

/-- A store, or an atomic, of a COHERENT extent takes its turn on all its lines at once; once all are granted `go` is done and the lines go on (R172). -/
def storeLines (r : Nat) (q : Req) (ls : List Nat) (go : Prog) : Prog := rd fun s =>
  let new := ls.filter (fun l => !s.inLine r l)
  if ¬ new.isEmpty ∧ ¬ s.txnRoom q.part new.length then .skip
  else .all [Prog.each new (fun l => enqueue l (.req r)), rd fun u =>
    if ls.all (u.granted r) then .all [Prog.each ls dropDir, go, releaseLines r ls]
    else match u.req r with
      | none => .skip
      | some q' => .eff (.req r (some { q' with wait := .line (ls.headD 0) }))]

/-- A bulk or near-pool write takes its turn on the lines of its range that are BUSY or that agents hold (R131, R170, R172), as many at a time as find a place; `go` is
done once it has been granted all of them.
[Marks: DEDUCED, log entry 27.] -/
def recallLines (r : Nat) (q : Req) (ls : List Nat) (go : Prog) : Prog := rd fun s =>
  let mine (l : Nat) : Bool := decide (ls.headD 0 ≤ l) && decide (l < ls.headD 0 + ls.length)
  let dir := (SMap.keys s.hitch.dir).filter mine
  let busy := dir ++ (SMap.keys s.hitch.txns).filter (fun l => mine l && (s.dirAt l).isNone)
  match busy.filter (fun l => !s.granted r l) with
  | [] => .all [Prog.each dir dropDir, go, releaseLines r busy]
  | bs => .all [
      Prog.each bs (fun l => rd fun u => if u.inLine r l ∨ ¬ u.txnRoom q.part 1 then .skip else enqueue l (.req r)),
      rd fun u => match u.req r with
        | none => .skip
        | some q' => .eff (.req r (some { q' with wait := .line (bs.headD 0) }))]

/-! ### Loss of an agent (R177 to R180) -/

/-- The state a snoop response leaves its agent in (R166): none, S, or as before. -/
def SnoopRsp.leaves : SnoopRsp → Option Bool
  | .iHitI | .iHitSE | .iFwdM => some false
  | .sHitSE | .sFwdM => some true
  | .vHitV | .vFwdV => none

/-- A response carries data. -/
def SnoopRsp.carries : SnoopRsp → Bool
  | .sFwdM | .iFwdM | .vFwdV => true
  | _ => false

/-- An agent's response to the snoop outstanding on a line advances the transaction (R170, R172). -/
def snoopAnswered (n l : Nat) (rsp : SnoopRsp) (data : List Byte) (poison : Bool) : Prog := rd fun s =>
  match s.txnAt l with
  | none => .skip
  | some t => .all [
      Prog.when rsp.carries (agentData l data poison n),
      rd fun u => match u.dirAt l, rsp.leaves with
        | some e, some false =>
          let keep := e.holders.filter (· ≠ n)
          .all [.eff (.dir l (if keep.isEmpty then none else some { e with holders := keep })), dirChange l]
        | some e, some true => .all [.eff (.dir l (some { e with em := false })), dirChange l]
        | _, _ => .skip,
      .eff (.txn l (some { t with waitFor := t.waitFor.erase n })),
      Prog.when ((t.waitFor.erase n).isEmpty) (driveLine l)]

/-- The agent-loss procedure starts (R180 steps 1 and 2): outstanding snoops to the agent end as RspIHitI with no data, and a line it owned is
poisoned. -/
def agentLost (n cause : Nat) : Prog := rd fun s =>
  if s.agentSt n ≠ agActive then .skip
  else .all [
    wr F.HITCH_AGENT.STATE [n] agRecalling,
    wr F.HITCH_STATUS.AGENT_LOST [] (setBits (s.r F.HITCH_STATUS.AGENT_LOST []) n 1 1),
    log { src := srcFelt, cause := cause, sev := 0, obj0 := n, part := some (s.agentPart n) },
    .eff (.probe n 0),
    Prog.each (s.hitch.txns.filterMap (fun e => match e.2 with
        | some t => if t.waitFor.contains n then some e.1 else none
        | none => none))
      (fun l => .all [purgeLine l, snoopAnswered n l .iHitI [] false])]

end Sys2Proof.Machine
end

