-- ==== Sys2Proof/Machine/Send.lean ====
section
/-! DEFINITION. Requests that the switch itself sends on a connection (R46, R74, R83): forwarded and gateway requests, stage arrivals and releases. -/
namespace Sys2Proof.Machine
open Sys2Proof

/-- The stage switch at the far end of a connection, where its peer is one: SWITCH_INDEX.
[Marks: DESIGN CHOICE, log entry 52.] -/
def State.peerIdx (s : State) (c : Nat) : Option Nat :=
  match SMap.get 0 s.btp.peers (s.conn c).peerAddr with
  | 0 => none
  | n + 1 => some n

/-- The first OPEN connection to the switch of the stage with an index.
[Marks: DESIGN CHOICE, log entry 52.] -/
def State.connTo (s : State) (i : Nat) : Option Nat :=
  (s.btp.conns.find? (fun e => decide (e.2.st = .open) && decide (s.peerIdx e.1 = some i))).map (·.1)

/-- A hall address of this stage (R44). -/
def State.hall (s : State) (a : Nat) : Nat := s.r F.FELT_STAGE.STAGE_ID [] * 2 ^ 52 + a % 2 ^ 52

/-- The word of LEN and ATTR of a memory extension (R52). -/
def lenAttr (len attr : Nat) : Nat := len * 2 ^ 32 + attr % 2 ^ 32

/-- A request goes out on a connection, as segments where it is a BULK_WRITE (R59); what it stands for is kept until it ends. -/
def sendReq (o : OutReq) (ord : Nat) (words : List Nat) (data : List Byte) : Prog := fresh fun t =>
  let tid := t % 2 ^ 32
  .all [.eff (.out t (some { o with tid := tid })),
    Prog.each (if o.op = 0x15 then (segments 2048 0 data).map (fun p => (words ++ [segWord p.1], p.2, some p.1)) else [(words, data, none)])
      (fun p => sendPkt o.conn { psn := 0, op := o.op, tid := tid, resp := false, status := 0, ord := ord, ext := extBytes p.1, data := p.2.1
                                 epoch := 0, rto := 0 } p.2.2)]

end Sys2Proof.Machine
end

