-- ==== Sys2Proof/Machine/Knot.lean ====
section
/-! DEFINITION. Knots (ch. 10): signals, arrivals, waits, stage barriers, triggers and launches, breaking, and the knot window. -/
namespace Sys2Proof.Machine
open Sys2Proof

/-! ### Knots and their conditions (R343 to R347) -/

/-- A knot. -/
def State.knot (s : State) (n : Nat) : Knot := SMap.get {} s.knots.kn n

/-- The partition whose slice holds a knot (R343). -/
def State.knotPart (s : State) (n : Nat) : Option Nat :=
  firstIdx (fun p => decide (s.r F.KNOT_SLICE.BASE [p] ≤ n) && decide (n < s.r F.KNOT_SLICE.BASE [p] + s.r F.KNOT_SLICE.COUNT [p])) 16

/-- TYPE values (R345). -/
def tyCounter : Nat := 0
/-- BARRIER. -/
def tyBarrier : Nat := 1
/-- SEMAPHORE. -/
def tySemaphore : Nat := 2
/-- EVENT. -/
def tyEvent : Nat := 3

/-- TYPE of a knot. -/
def State.knotTy (s : State) (n : Nat) : Nat := s.r F.KNOT.TYPE [n]

/-- The condition of a knot taken without a handle; false for a BARRIER (R345, R366). -/
def State.knotReady (s : State) (n : Nat) : Bool :=
  let v := (s.knot n).value
  match s.knotTy n with
  | 0 => decide (sext 32 (s.r F.KNOT.TARGET [n]) ≤ sext 64 v)
  | 2 => decide (1 ≤ v)
  | 3 => decide (v ≠ 0)
  | _ => false

/-- The number that a wait returns as VALUE (R345): GEN of a BARRIER, else the low half of VALUE. -/
def State.knotShown (s : State) (n : Nat) : Nat :=
  if s.knotTy n = tyBarrier then (s.knot n).gen % 2 ^ 32 else (s.knot n).value % 2 ^ 32

/-- The result word of a wait or test (R297). -/
def waitWord (status : Nat) (ready : Bool) (value : Nat) : Nat := status % 64 + b2n ready * 2 ^ 8 + value % 2 ^ 32 * 2 ^ 32

/-- A wait returns: its result goes to its register and it is gone (R297). -/
def waitEnd (o status : Nat) (ready : Bool) (value : Nat) : Prog := rd fun s =>
  match SMap.get none s.eng.ops o with
  | none => .skip
  | some p => .all [
      match p.dst, p.dead with
      | .s r, false => .eff (.ctx p.ctx ((s.ctx p.ctx).setS r (waitWord status ready value)))
      | _, _ => .skip,
      Prog.when (decide (status = stLate)) (count F.KNOT_LATE_COUNT.COUNT []),
      .eff (.op o none), haltCheck p.ctx]

/-- A semaphore's units go to its waiters in order: the waits served, with the value after each took its unit. -/
def semTake : Nat → List KWait → List (KWait × Nat)
  | _, [] => []
  | 0, _ => []
  | v + 1, w :: ws => (w, v) :: semTake v ws

/-- A new value wakes every waiter it satisfies; the waiters of a semaphore take one unit each in order (R346, R347). -/
def wakeKnot (n : Nat) : Prog := rd fun s =>
  let k := s.knot n
  if s.knotTy n = tySemaphore then
    let took := semTake k.value k.waits
    .all [.eff (.knot n { k with value := k.value - took.length, waits := k.waits.drop took.length }), Prog.when (!took.isEmpty) (knotChange n),
      Prog.each took (fun p => waitEnd p.1.op stOk true (p.2 % 2 ^ 32))]
  else
    let up (w : KWait) : Bool := if s.knotTy n = tyBarrier then decide (w.gen ≠ k.gen) else s.knotReady n
    .all [.eff (.knot n { k with waits := k.waits.filter (fun w => !up w) }),
      Prog.each (k.waits.filter up) (fun w => waitEnd w.op stOk true (s.knotShown n))]

/-- Operations of a context on one binding of a knot handle: those of a kind whose numbers satisfy a test (R347). -/
def State.handleOps (s : State) (p : AOp) (k : AKind) (test : Nat → Bool) : List (Nat × AOp) :=
  (s.opsOf p.ctx).filter (fun e => decide (e.2.kind = k ∧ e.2.fn = p.fn ∧ e.2.b = p.b) && test e.1)

/-- An arrival is acknowledged with the generation it joined (R347): its handle keeps it, and so do the waits on the handle that follow it and have not reached the knot; a
request is answered. -/
def ackArrival (a : Arriver) (gen : Nat) : Prog := rd fun s =>
  match a with
  | .op o => (match SMap.get none s.eng.ops o with
    | none => .skip
    | some p =>
      let x := s.ctx p.ctx
      let h := x.handle p.fn
      .all [
        Prog.when (!p.dead && h.bound && decide (h.id = p.b)) (.eff (.ctx p.ctx { x with k := SMap.set {} x.k p.fn { h with arrGen := some gen } })),
        Prog.when (!p.dead) (Prog.each (s.handleOps p .knotWait (fun i => decide (o < i))) (fun e => .eff (.op e.1 (some { e.2 with gen := some gen })))),
        .eff (.op o none), haltCheck p.ctx])
  | .req r => respond r stOk []
  | .none => .skip

/-! ### Breaking (R358, R359) -/

/-- A knot enters BROKEN: pending waits return KNOT_BROKEN and held arrivals are released (R359). -/
def breakKnot (n : Nat) : Prog := rd fun s =>
  let k := s.knot n
  .all [.eff (.knot n { k with st := .broken, waits := [], held := [] }), knotChange n, count F.KNOT_BROKEN_COUNT.COUNT [],
    Prog.each k.waits (fun w => waitEnd w.op stBroken false (s.knotShown n)),
    Prog.each k.held (fun a => match a with
      | .req r => respond r stBroken []
      | .op _ => ackArrival a k.gen
      | .none => .skip)]

/-- Knots of a list that are ACTIVE break at one event; one record names the owner and the number broken (R358). -/
def breakKnots (ns : List Nat) (owner : Nat) (part : Option Nat) (ctx : Option Nat) (link : Nat) : Prog := rd fun s =>
  let act := ns.filter (fun n => decide ((s.knot n).st = .active))
  if act.isEmpty then .skip
  else .all [Prog.each act breakKnot,
    log { src := srcFelt, cause := 0x510, sev := 2, status := stBroken, obj0 := owner, obj1 := act.length, part := part, ctx := ctx, link := link }]

/-- The knots whose state is kept. -/
def State.knotsIn (s : State) : List Nat := SMap.keys s.knots.kn

/-- Knots owned by a context (R358). -/
def State.ownedBy (s : State) (c : Nat) : List Nat :=
  s.knotsIn.filter (fun n => s.rb F.KNOT.OWNER_CTX_EN [n] && decide (s.r F.KNOT.OWNER_CTX [n] = c) && !(s.knot n).ownerFreed)

/-- Knots of a partition's slice. -/
def State.sliceKnots (s : State) (p : Nat) : List Nat := s.knotsIn.filter (fun n => decide (s.knotPart n = some p))

/-- The knots that a context owns break (R358). -/
def breakOwned (c : Nat) (link : Nat) : Prog := rd fun s => breakKnots (s.ownedBy c) c (some (s.ctx c).part) (some c) link

/-- A context is freed: its knots break and stay BROKEN until their OWNER fields are committed again (R358, R360). -/
def freeOwned (c : Nat) : Prog := rd fun s =>
  let ns := s.ownedBy c
  .all [breakOwned c 0, Prog.each ns (fun n => rd fun t => .eff (.knot n { t.knot n with ownerFreed := true }))]

/-- Stage barriers that span the switch with an index break when it resets or its connection fails (R354).
[Marks: DESIGN CHOICE, log entry 25.] -/
def breakStage (i : Nat) : Prog := rd fun s =>
  Prog.each (s.knotsIn.filter (fun n => decide ((s.knot n).st = .active) && decide (s.knotTy n = tyBarrier) &&
      ((decide (s.r F.KNOT.STAGE [n] = 1) && bit (s.r F.KNOT.MEMBER_MASK [n]) i) ||
       (decide (s.r F.KNOT.STAGE [n] = 2) && (decide (s.r F.KNOT.HOME_INDEX [n] = i) || Config.barrierMember n i)))))
    (fun n => .all [breakKnot n,
      log { src := srcFelt, cause := 0x515, sev := 2, status := stBroken, part := s.knotPart n, obj1 := n
            obj0 := swName (s.r F.FELT_STAGE.STAGE_ID []) i }])

/-! ### Stage barriers (R352, R353) -/

/-- A store to a knot's slot on another switch of the stage, on the switch-to-switch connection, STRICT; without one the barrier is broken. -/
def stageStore (n i off : Nat) : Prog := rd fun s =>
  match s.connTo i with
  | none => breakStage i
  | some c =>
    let a := s.hall (Config.peerWindow i + n * 128 + off)
    sendReq { conn := c, tid := 0, op := 0x11, addr := a, len := 8, knot := some n } 2 [a, lenAttr 8 0] (List.replicate 8 0)

/-- A generation completes: GEN rises, ARRIVED becomes 0, its waiters wake, and a home releases its members (R347, R353). -/
def completeGen (n : Nat) : Prog := rd fun s =>
  let k := s.knot n
  .all [.eff (.knot n { k with gen := (k.gen + 1) % 2 ^ 32, arrived := 0 }), knotChange n, wakeKnot n,
    Prog.when (decide (s.r F.KNOT.STAGE [n] = 1))
      (Prog.each ((List.range 16).filter (fun i => bit (s.r F.KNOT.MEMBER_MASK [n]) i)) (fun i => stageStore n i 0x18))]

/-- ARRIVED has reached TARGET: a member sends its stage arrival, any other barrier completes its generation (R347, R353). -/
def reachTarget (n : Nat) : Prog := rd fun s =>
  if s.r F.KNOT.STAGE [n] = 2 then stageStore n (s.r F.KNOT.HOME_INDEX [n]) 0x10 else completeGen n

/-- The TARGET of a barrier. -/
def State.barTarget (s : State) (n : Nat) : Nat := s.r F.KNOT.TARGET [n] % 2 ^ 16

/-- One arrival at an ACTIVE barrier: held at a member that has sent its stage arrival, else counted and acknowledged (R347, R353). -/
def barrierArrive (n : Nat) (a : Arriver) : Prog := rd fun s =>
  let k := s.knot n
  if s.r F.KNOT.STAGE [n] = 2 ∧ k.arrived = s.barTarget n then .eff (.knot n { k with held := k.held ++ [a] })
  else .all [.eff (.knot n { k with arrived := k.arrived + 1 }), knotChange n, ackArrival a k.gen,
    Prog.when (decide (k.arrived + 1 = s.barTarget n)) (reachTarget n)]

/-! ### Signals and arrivals (R345, R348) -/

/-- A signal or arrival that a knot which is not ACTIVE discards (R296, R359). -/
def knotDiscard (n : Nat) (ctx : Option Nat) : Prog := rd fun s =>
  log { src := srcFelt, cause := 0x50B, sev := 1, obj0 := n, part := s.knotPart n, ctx := ctx }

/-- The status a hardware completion carries is stored first and counted (R348). -/
def knotFail (n status : Nat) : Prog := rd fun s =>
  let k := s.knot n
  if status = stOk then .skip
  else .all [Prog.when (decide (k.fail = 0)) (.all [.eff (.knot n { k with fail := status }), knotChange n]), count F.KNOT_FAIL_COUNT.COUNT []]

/-- A signal of value v is applied to an ACTIVE knot by its TYPE (R345); an arrival at a knot that is no barrier is a signal of 1. -/
def applySignal (n v : Nat) (a : Arriver) : Prog := rd fun s =>
  let k := s.knot n
  match s.knotTy n with
  | 1 => if v = 0 then ackArrival a k.gen else barrierArrive n a
  | 0 => .all [.eff (.knot n { k with value := (k.value + v) % 2 ^ 64 }), knotChange n, wakeKnot n, ackArrival a k.gen]
  | 2 =>
    let w := k.value + v % 2 ^ 32
    .all [.eff (.knot n { k with value := min w 0xFFFFFFFF }), knotChange n,
      Prog.when (decide (0xFFFFFFFF < w)) (.all [count F.KNOT_SAT_COUNT.COUNT [],
        log { src := srcFelt, cause := 0x518, sev := 1, obj0 := n, part := s.knotPart n }]),
      wakeKnot n, ackArrival a k.gen]
  | _ => .all [.eff (.knot n { k with value := v % 2 ^ 64 }), knotChange n, wakeKnot n, ackArrival a k.gen]

/-- A signal with a status reaches the knot array (R346, R348, R359). -/
def knotSignal (n v status : Nat) (ctx : Option Nat) : Prog := rd fun s =>
  if (s.knot n).st = .active then .all [knotFail n status, applySignal n v .none] else knotDiscard n ctx

/-- An operation of a context was issued after a store of the context that has not been performed (R247). -/
def State.storesBefore (s : State) (o : Nat) (p : AOp) : Bool :=
  (s.opsOf p.ctx).any (fun e => decide (e.1 < o) && (decide (e.2.kind = .fabSt) || decide (e.2.kind = .fabBst)) && e.2.reply.isNone)

/-- KNOT_SIGNAL_APPLY (R346): the signal with a number, of a hardware completion or of a `knot.sig`, reaches the knot array. -/
def execKnotSignalApply (i : Nat) (s : State) : Host.Outcome State Fault Refusal := run s <|
  match SMap.get none s.knots.sigs i with
  | some g => .all [.eff (.sig i none), knotSignal g.knot 1 g.status none]
  | none => match SMap.get none s.eng.ops i with
    | none => .skip
    | some p =>
      if p.kind ≠ .knotSig ∨ s.storesBefore i p then .skip
      else .all [.eff (.op i none), knotSignal p.a p.b stOk (some p.ctx), haltCheck p.ctx]

/-- KNOT_ARRIVAL_APPLY (R347): the arrival of a `knot.arr` reaches its knot. -/
def execKnotArrivalApply (o : Nat) (s : State) : Host.Outcome State Fault Refusal := run s <|
  match SMap.get none s.eng.ops o with
  | none => .skip
  | some p =>
    if p.kind ≠ .knotArr ∨ s.storesBefore o p ∨ (s.knot p.a).held.contains (.op o) then .skip
    else if (s.knot p.a).st = .active then applySignal p.a 1 (.op o)
    else .all [.eff (.op o none), knotDiscard p.a (some p.ctx), haltCheck p.ctx]

/-! ### Waits (R297, R298, R346) -/

/-- How a wait with an arrival generation stands at a knot: a result at once, or none where it stays pending. -/
def State.waitNow (s : State) (n : Nat) (gen : Option Nat) : Option (Nat × Bool) :=
  let k := s.knot n
  match k.st with
  | .lost => some (stLost, false)
  | .off | .broken => some (stBroken, false)
  | .active =>
    if s.knotTy n = tyBarrier then
      match gen with
      | some g => if k.gen ≠ g then some (stOk, true) else none
      | none => none
    else if s.knotReady n then some (stOk, true) else none

/-- KNOT_WAIT_ARRIVE (R346): a `knot.wait` reaches its knot, after every arrival on its handle before it has been acknowledged; it returns at once, or stays
pending.
[Marks: DEDUCED, log entry 40.] -/
def execKnotWaitArrive (o : Nat) (s : State) : Host.Outcome State Fault Refusal := run s <|
  match SMap.get none s.eng.ops o with
  | none => .skip
  | some p =>
    let k := s.knot p.a
    if p.kind ≠ .knotWait ∨ ¬ (s.handleOps p .knotArr (fun i => decide (i < o))).isEmpty ∨ k.waits.any (fun w => w.op = o) then .skip
    else match s.waitNow p.a p.gen with
      | none => .eff (.knot p.a { k with waits := k.waits ++ [{ ctx := p.ctx, op := o, gen := p.gen.getD k.gen }] })
      | some (st, ready) =>
        if ready ∧ s.knotTy p.a = tySemaphore then
          .all [.eff (.knot p.a { k with value := k.value - 1 }), knotChange p.a, waitEnd o st true ((k.value - 1) % 2 ^ 32)]
        else waitEnd o st ready (s.knotShown p.a)

/-- KNOT_WAIT_DEADLINE (R298): the deadline of a wait passes; it returns LATE and takes no unit. -/
def execKnotWaitDeadline (o : Nat) (s : State) : Host.Outcome State Fault Refusal := run s <|
  match SMap.get none s.eng.ops o with
  | none => .skip
  | some p =>
    if p.kind ≠ .knotWait ∨ p.deadline.isNone then .skip
    else
      let k := s.knot p.a
      .all [.eff (.knot p.a { k with waits := k.waits.filter (fun w => decide (w.op ≠ o)) }), waitEnd o stLate false (s.knotShown p.a)]

/-! ### Triggers and launches (R355 to R357) -/

/-- A context is an instance of a program placed with MODE 1 in a partition. -/
def State.instanceOf (s : State) (p g c : Nat) : Bool :=
  let x := s.ctx c
  decide (x.st ≠ .free) && x.mode && decide (x.part = p) && decide (x.prog = g)

/-- A program has an instance placed with MODE 1 in a partition. -/
def State.hasInstance (s : State) (p g : Nat) : Bool := (SMap.keys s.eng.ctxs).any (s.instanceOf p g)

/-- The PARKED instance of a program that has been parked longest; an engine that is fenced or offline takes no launch (R355, R521). -/
def State.parked (s : State) (p g : Nat) : Option Nat :=
  ((SMap.keys s.eng.ctxs).filter (fun c => s.instanceOf p g c && decide ((s.ctx c).st = .parked) && (s.ctx c).zero.isNone &&
    !(s.ctx c).xsvc && bit (s.r F.SPL_ENG_AVAIL.AVAIL [ctxDie c]) (ctxEng c % 64))).foldl
    (fun best c => match best with
      | none => some c
      | some b => if (s.ctx c).parkedAt < (s.ctx b).parkedAt then some c else some b) none

/-- Argument bytes in the lanes of v0, missing ones 0 (R356). -/
def argLanes (args : List Byte) : List Nat := (List.range 64).map (fun l => leAt args (4 * l) 4)

/-- A context is launched (R356). -/
def launchCtx (c n srcWord : Nat) (args : List Byte) : Prog := rd fun s =>
  let x := s.ctx c
  let y := (((x.fresh (s.entryOf x)).setS 5 n).setS 6 srcWord).setS 7 args.length
  .all [.eff (.order (s.eng.order + 1)),
    .eff (.ctx c { y.setV 0 (argLanes args) with st := .ready, issuedAt := s.eng.order + 1, monAt := s.time.now })]

/-- The source word of a launch (R356). -/
def launchSrc (conn : Bool) (id : Nat) : Nat := id % 2 ^ 16 + (if conn then 0 else 2 ^ 16)

/-- A trigger to a knot: the status and cause with which it is answered, and the launch it makes (R351, R355). -/
def triggerKnot (n : Nat) (conn : Bool) (id : Nat) (args : List Byte) (fin : Nat → Nat → Prog) : Prog := rd fun s =>
  let k := s.knot n
  let g := s.r F.KNOT.TRIG_PROG [n]
  match k.st, s.knotPart n with
  | .lost, _ => fin stLost 0
  | .off, _ | .broken, _ => fin stBroken 0
  | .active, none => fin stDenied 0x830
  | .active, some p =>
    if ¬ s.rb F.KNOT.TRIG_EN [n] ∨ ¬ s.hasInstance p g then fin stDenied 0x511
    else match s.parked p g with
      | some c => .all [launchCtx c n (launchSrc conn id) args, fin stOk 0]
      | none =>
        if s.knots.launches.countP (fun l => l.part = p) < s.r F.KNOT_LAUNCH.MAX_QUEUED [p] ∧ s.knots.launches.length < 4096 then
          .all [.eff (.launches (s.knots.launches ++ [{ knot := n, part := p, prog := g, srcConn := conn, srcId := id, args := args }])), fin stOk 0]
        else .all [count F.KNOT_LAUNCH_BUSY_COUNT.COUNT [], fin stBusy 0x512]

/-- KNOT_QUEUED_LAUNCH_START (R355): the oldest queued launch of a program of a partition starts on an instance that is PARKED. -/
def execKnotQueuedLaunchStart (part prog : Nat) (s : State) : Host.Outcome State Fault Refusal := run s <|
  match s.knots.launches.find? (fun l => l.part = part ∧ l.prog = prog), s.parked part prog with
  | some l, some c => .all [.eff (.launches (s.knots.launches.erase l)), launchCtx c l.knot (launchSrc l.srcConn l.srcId) l.args]
  | _, _ => .skip

/-- Queued launches that satisfy a test are discarded (R357, R361, R364). -/
def dropLaunches (p : Launch → Bool) : Prog := rd fun s =>
  let gone := s.knots.launches.filter p
  if gone.isEmpty then .skip
  else .all [.eff (.launches (s.knots.launches.filter (fun l => !p l))),
    Prog.each gone (fun l => log { src := srcFelt, cause := 0x513, sev := 1, obj0 := l.knot, obj1 := l.prog, part := some l.part })]

/-- Queued launches whose program has lost its last MODE 1 instance are discarded (R357). -/
def sweepLaunches : Prog := rd fun s => dropLaunches (fun l => !s.hasInstance l.part l.prog)

/-! ### The knot window (R344, R350, R351) -/

/-- The knot and slot offset of a fabric address in the window of this switch (R344). -/
def State.slotOf (s : State) (a : Nat) : Option (Nat × Nat) :=
  let b := s.r F.KNOT_WINDOW.BASE [] * 2 ^ 23
  if s.rb F.KNOT_WINDOW.WIN_EN [] ∧ b ≤ a ∧ a < b + 2 ^ 23 then some ((a - b) / 128, (a - b) % 128) else none

/-- The status word of a knot (R350). -/
def State.knotStatus (s : State) (n : Nat) : Nat :=
  let k := s.knot n
  let st := match k.st with | .off => 0 | .active => 1 | .broken => 2 | .lost => 3
  st + b2n (s.knotReady n) * 2 ^ 3 + s.knotTy n * 2 ^ 4 + k.fail % 64 * 2 ^ 6 + k.arrived % 2 ^ 16 * 2 ^ 16 + k.gen % 2 ^ 32 * 2 ^ 32

/-- A store to a knot that is not ACTIVE ends so (R351). -/
def Knot.storeEnd (k : Knot) : Option Nat :=
  match k.st with
  | .active => none
  | .lost => some stLost
  | .off | .broken => some stBroken

/-- The stage release of a member: a release store, on the connection of its home (R353). -/
def slotRelease (r n : Nat) : Prog := rd fun s =>
  match s.req r with
  | none => .skip
  | some q =>
    let from' := match q.src with | .conn c => s.peerIdx c | _ => none
    let k := s.knot n
    match k.storeEnd with
    | some st => refuse r st 0 n
    | none =>
      if s.knotTy n ≠ tyBarrier ∨ s.r F.KNOT.STAGE [n] ≠ 2 ∨ from' ≠ some (s.r F.KNOT.HOME_INDEX [n]) then refuse r stDenied 0x517 n
      else .all [
        .eff (.knot n { k with gen := (k.gen + 1) % 2 ^ 32, arrived := 0, held := [] }), knotChange n, wakeKnot n,
        Prog.each k.held (barrierArrive n), respond r stOk []]

/-- A fabric request to a knot slot is performed (R350, R351). -/
def slotAccess (r n off : Nat) : Prog := rd fun s =>
  match s.req r with
  | none => .skip
  | some q =>
    let k := s.knot n
    let viaPeer : Bool := match q.src with | .conn c => (s.peerIdx c).isSome | _ => false
    let srcId := match q.src with | .conn c => (true, c) | .ctx c _ => (false, c) | _ => (true, 0)
    let trig := triggerKnot n srcId.1 srcId.2 (q.data.take 64) (fun st cause => if st = stOk then respond r st [] else refuse r st cause n)
    if s.knotPart n ≠ some q.part then refuse r stDenied 0x830 (q.addr % 2 ^ 52)
    else if q.op = 0x10 ∧ off = 0 ∧ q.len = 8 then respond r stOk (leBytes 8 k.value)
    else if q.op = 0x10 ∧ off = 8 ∧ q.len = 8 then respond r stOk (leBytes 8 (s.knotStatus n))
    else if q.op = 0x11 ∧ off = 0 ∧ q.len = 8 then
      (match k.storeEnd with
      | some st => refuse r st 0 n
      | none => if s.knotTy n = tyBarrier ∧ ofLe q.data ≠ 0 then barrierArrive n (.req r)
        else .all [applySignal n (ofLe q.data) .none, respond r stOk []])
    else if q.op = 0x11 ∧ off = 0x10 ∧ q.len = 8 then
      (match k.storeEnd with
      | some st => refuse r st 0 n
      | none => applySignal n 1 (.req r))
    else if q.op = 0x11 ∧ off = 0x18 ∧ q.len = 8 ∧ viaPeer then slotRelease r n
    else if q.op = 0x13 ∧ off = 0x40 ∧ q.data.length ≤ 64 then trig
    else if q.op = 0x11 ∧ off = 0x40 ∧ 1 ≤ q.len ∧ q.len ≤ 64 then trig
    else refuse r stDenied 0x517 n

/-- KNOT_STAGE_RELEASE (R353): a release store at offset 0x18 of a member's slot. -/
def execKnotStageRelease (r : Nat) (s : State) : Host.Outcome State Fault Refusal := run s <|
  match s.req r with
  | none => .skip
  | some q => match q.dest, s.slotOf (q.addr % 2 ^ 52) with
    | .knotWin, some (n, off) => if q.op = 0x11 ∧ off = 0x18 ∧ ¬ q.resp ∧ q.wait = .none then slotAccess r n off else .skip
    | _, _ => .skip

/-! ### Commands of a knot (R348, R360) -/

/-- KNOT_REARM (R360): a BROKEN knot returns to ACTIVE, unless its owner was freed since its OWNER fields were committed. -/
def execKnotRearm (n : Nat) (s : State) : Host.Outcome State Fault Refusal := run s <| reached 0x1400000 <|
  let k := s.knot n
  if k.st = .broken ∧ k.ownerFreed = false then
    .all [.eff (.knot n { k with
        st := .active, value := wrap 64 (sext 32 (s.r F.KNOT.INIT [n])), arrived := 0, gen := (k.gen + 1) % 2 ^ 32, fail := 0 }),
      knotChange n]
  else .skip

/-- KNOT_CLR_FAIL (R366): FAIL_STATUS of a knot becomes 0. -/
def execKnotClrFail (n : Nat) (s : State) : Host.Outcome State Fault Refusal := run s <| reached 0x1400000 <|
  if (s.knot n).fail = 0 then .skip else .all [.eff (.knot n { s.knot n with fail := 0 }), knotChange n]

end Sys2Proof.Machine
end

