-- ==== Sys2Proof/Machine/Admit.lean ====
section
/-! DEFINITION. Admission of a request (R45, R59, R60, R67, R68, R75, R94 to R96, R103, R105, R130, R371 to R373): the checks made once, when it
enters the switch, and where it goes. -/
namespace Sys2Proof.Machine
open Sys2Proof

/-! ### What an opcode carries (R52 to R58, R94, R96, R326) -/

/-- Opcodes of R58 that are requests. -/
def knownOp (op : Nat) : Bool :=
  [0x01, 0x02, 0x10, 0x11, 0x12, 0x13, 0x14, 0x15, 0x16, 0x20, 0x28, 0x2A, 0x30, 0x31, 0x32, 0x34, 0x35].contains op

/-- Opcodes that carry the memory extension (R52). -/
def memOp (op : Nat) : Bool := decide (0x10 ≤ op ∧ op ≤ 0x16)

/-- The service bit of an opcode (R64); none for the opening and closing of a connection. -/
def serviceBit (op : Nat) : Option Nat :=
  if op = 0x10 ∨ op = 0x11 ∨ op = 0x12 then some 0
  else if op = 0x13 then some 1
  else if op = 0x14 ∨ op = 0x15 then some 2
  else if op = 0x16 then some 3
  else if op = 0x20 then some 4
  else if op = 0x28 then some 5
  else if op = 0x2A then some 6
  else if 0x30 ≤ op ∧ op ≤ 0x35 then some 7
  else none

/-- ATOP of ATTR (R52). -/
def Req.atop (q : Req) : Nat := bits q.attr 28 4
/-- ASIZE in bytes; 0 where it is reserved. -/
def Req.asize (q : Req) : Nat := match bits q.attr 26 2 with | 0 => 4 | 1 => 8 | _ => 0
/-- ATYPE. -/
def Req.atype (q : Req) : Nat := bits q.attr 24 2
/-- NOCOMB. -/
def Req.noComb (q : Req) : Bool := bit q.attr 23
/-- RETRY. -/
def Req.retry (q : Req) : Bool := bit q.attr 22
/-- NEAR_FN. -/
def Req.nearFn (q : Req) : Nat := bits q.attr 16 6

/-- SVC_LEN of a service request (R94). -/
def Req.svcLen (q : Req) : Nat := (q.words.getD 2 0) / 2 ^ 32
/-- Element type of a push or pull (R94). -/
def Req.svcType (q : Req) : Nat := bits (q.words.getD 2 0) 20 4
/-- Bytes of one element (R96). -/
def Req.svcElem (q : Req) : Nat := if q.svcType = 0 then 4 else 2

/-- Length of the segmented body that a request carries (R57, R96, R326). -/
def Req.bodyLen (q : Req) : Nat :=
  if q.op = 0x15 then q.len
  else if q.op = 0x30 then q.svcLen
  else if q.op = 0x34 then q.svcLen * q.svcElem
  else if q.op = 0x28 then q.words.getD 3 0 / 2 ^ 32
  else 0

/-- Opcodes whose request carries a segmented body. -/
def bodyOp (op : Nat) : Bool := [0x15, 0x28, 0x30, 0x34].contains op

/-- Bytes of fabric memory that a request names. -/
def Req.span (q : Req) : Nat := if q.op = 0x12 then q.asize else if q.op = 0x13 then 1 else q.len

/-! ### Limits of form (R59, R60, R94, R130) -/

/-- ATOP with ATYPE and ASIZE allowed by R60. -/
def atomAllowed (atop asize atype : Nat) : Bool :=
  decide (atop ≤ 7) && decide (asize ≠ 0) &&
  (decide (atype ≤ 1) || (decide (atype = 2) && decide (atop ≤ 2) && decide (asize = 4)))

/-- The cause under which a request breaks a limit of its form, if it does: 0x341 for NEAR_OP, 0x803 otherwise.
[Marks: DEDUCED, log entry 23.] -/
def Req.badForm (q : Req) : Option Nat :=
  let bulk := decide (q.addr % 64 = 0 ∧ q.len % 64 = 0 ∧ 64 ≤ q.len ∧ q.len ≤ 2 ^ 24)
  let ok : Bool :=
    if q.op = 0x10 ∨ q.op = 0x11 then
      decide (1 ≤ q.len ∧ q.addr % 256 + q.len ≤ 256) && (decide (q.op = 0x10) || decide (q.data.length = q.len))
    else if q.op = 0x12 then atomAllowed q.atop q.asize q.atype && decide (q.addr % q.asize = 0)
    else if q.op = 0x14 ∨ q.op = 0x15 then bulk
    else if q.op = 0x16 then
      bulk && decide (1 ≤ q.nearFn ∧ q.nearFn ≤ 5) &&
      (decide (q.nearFn ≤ 3) || (decide (q.atop ≤ 5) && atomAllowed q.atop q.asize q.atype))
    else if q.op = 0x30 ∨ q.op = 0x31 ∨ q.op = 0x32 then decide (1 ≤ q.svcLen ∧ q.svcLen ≤ 65536)
    else if q.op = 0x34 ∨ q.op = 0x35 then decide (1 ≤ q.svcLen ∧ q.svcLen ≤ 16384 ∧ q.svcType ≤ 2)
    else true
  if ok then none else some (if q.op = 0x16 then 0x341 else 0x803)

/-- NEAR_FN that writes its destination: FILL, COPY and ACCUMULATE. -/
def Req.nearWrites (q : Req) : Bool := decide (q.nearFn = 1 ∨ q.nearFn = 2 ∨ q.nearFn = 5)
/-- NEAR_FN that names a source: COPY, COMPARE and ACCUMULATE. -/
def Req.nearSource (q : Req) : Bool := decide (q.op = 0x16) && decide (q.nearFn = 2 ∨ q.nearFn = 3 ∨ q.nearFn = 5)

/-- ACCESS bits that a request needs (R115, R130). -/
def Req.need (q : Req) : Nat :=
  if q.op = 0x10 ∨ q.op = 0x14 then 1
  else if q.op = 0x11 ∨ q.op = 0x15 ∨ q.op = 0x13 then 2
  else if q.op = 0x12 then 4
  else if q.nearFn = 1 ∨ q.nearFn = 2 then 10
  else if q.nearFn = 5 then 11
  else 9

/-! ### Rights and location (R370 to R372) -/

/-- How a check of rights ends. -/
inductive Rights where
  | ok | bad | no
  deriving DecidableEq, Repr

/-- The ACCESS bits of a rights entry (R370). -/
def CleatEnt.access (e : CleatEnt) : Nat := if e.kind = 3 then e.result % 4 else e.result % 16

/-- The rights that a tag gives a partition over n bytes of hall address (R368, R372 steps 2 and 3): one entry of KIND EXTENT, GRANT or KNOTWIN
covers the first and the last byte, names the partition and allows the access; a TRIGGER needs KNOTWIN. -/
def State.rights (s : State) (tag part a n need : Nat) (trig : Bool) : Rights :=
  if ¬ isRightsTag tag then .no
  else match s.look tag a, s.look tag (a + n - 1) with
    | .bad, _ | _, .bad => .bad
    | .hit e, .hit f =>
      if e = f ∧ (e.kind = 1 ∨ e.kind = 2 ∨ e.kind = 3) ∧ (trig → e.kind = 3) ∧ bits e.result 24 4 = part ∧ e.access &&& need = need then .ok
      else .no
    | _, _ => .no

/-- The decision on a request: served, with where it goes and the extents in whose OPEN_REQ it counts, or ended. -/
inductive Verdict where
  | serve (d : Where) (e e2 : Option Nat)
  | refuse (status cause obj : Nat)
  deriving DecidableEq, Repr

/-- A refusal of access: a switch whose domain is lost answers STATE_LOST in its place (R516).
[Marks: DEDUCED, log entry 23.] -/
def State.deny (s : State) (cause obj : Nat) : Verdict :=
  if s.mirror = mirLost then .refuse stLost 0x882 obj else .refuse stDenied cause obj

/-- A request for an extent in its present state and with its flags (R103, R105, R192, the Tier engine's TIER_EN). -/
def State.extGate (s : State) (q : Req) (e : Nat) : Option (Nat × Nat) :=
  let x := s.ext e
  let writes := decide (q.op = 0x11 ∨ q.op = 0x12 ∨ q.op = 0x15) || (decide (q.op = 0x16) && q.nearWrites)
  if x.readOnly ∧ writes then some (stDenied, 0x830)
  else if q.op = 0x12 ∧ ¬ x.fixedLayout then some (stDenied, 0x830)
  else if q.op = 0x16 ∧ (x.compressed ∨ x.base + x.size < q.addr % 2 ^ 52 + q.len) then some (stDenied, 0x341)
  else if ¬ s.rb F.TIER_CTRL.TIER_EN [] then some (stBusy, 0)
  else if x.coherent ∧ ¬ s.rb F.HITCH_CTRL.HITCH_EN [] then some (stBusy, 0)
  else x.gate

/-- The rights to the source of a NEAR_OP (R130); a request of another switch is not checked by tag. -/
def State.sourceRights (s : State) (q : Req) (tag : Option Nat) (n : Nat) : Rights :=
  match tag with
  | none => .ok
  | some t => s.rights t q.part q.opA n 1 false

/-- The location entry of an address in the map that routes a request: the current one, or for a packet of the previous route epoch the route entries as they stood
when the current epoch was committed, and the extents homed here (R81).
[Marks: DESIGN CHOICE, log entry 24.] -/
def State.lookRoute (s : State) (old : Bool) (a : Nat) : Look :=
  if ¬ old then s.look tagLocation a
  else match cleatLook s.btp.prevRoutes tagLocation a with
    | .miss => (match s.look tagLocation a with
      | .hit e => if e.kind = 8 then .hit e else .miss
      | y => y)
    | y => y

/-- Whether n bytes lie in a RELEASING extent of a partition to which its Cleat entries gave a tag the access before they were removed: a new request to it still ends as
the extent table says (R105, R107); no tag is that of a request of another switch.
[Marks: DEDUCED, log entry 57.] -/
def State.releasing (s : State) (tag : Option Nat) (part a n need : Nat) : Bool :=
  decide (a / 2 ^ 52 = s.r F.FELT_STAGE.STAGE_ID []) && (match s.extAt (a % 2 ^ 52) with
  | none => false
  | some e =>
    let x := s.ext e
    decide (x.st = .releasing ∧ x.part = part ∧ a % 2 ^ 52 + n ≤ x.base + x.size) &&
      (match tag with | none => true | some t => decide (x.tag = t) && decide (x.acc &&& need = need)))

/-- The check of the source of a NEAR_OP (R130): the extent it lies in, none where it is homed at another switch of the stage, or the end of the request. -/
def State.nearSourceGate (s : State) (q : Req) (tag : Option Nat) : Except (Nat × Nat) (Option Nat) :=
  let a := q.opA
  if a / 2 ^ 52 ≠ s.r F.FELT_STAGE.STAGE_ID [] then .error (stDenied, 0x341)
  else match s.sourceRights q tag q.len with
    | .bad => .error (stBusy, 0x381)
    | .no =>
      if s.releasing tag q.part a q.len 1 then .error (stRevoked, 0x301)
      else (match s.sourceRights q tag 1, s.extAt (a % 2 ^ 52) with
      | .ok, some e => if (s.ext e).base + (s.ext e).size < a % 2 ^ 52 + q.len then .error (stDenied, 0x341) else .error (stDenied, 0x830)
      | _, _ => .error (stDenied, 0x830))
    | .ok => match s.lookRoute q.old a with
      | .bad => .error (stBusy, 0x381)
      | .miss => .error (if s.releasing tag q.part a q.len 1 then (stRevoked, 0x301) else (stDenied, 0x830))
      | .hit e =>
        if e.kind = 9 then .ok none
        else if e.kind ≠ 8 then .error (stDenied, 0x830)
        else
          let n := e.result % 2 ^ 20
          let x := s.ext n
          if x.part ≠ q.part then .error (stDenied, 0x830)
          else if x.base + x.size < a % 2 ^ 52 + q.len ∨ x.compressed then .error (stDenied, 0x341)
          else match x.gate with
            | some (st, c) => .error (st, c)
            | none => if x.coherent ∧ ¬ s.rb F.HITCH_CTRL.HITCH_EN [] then .error (stBusy, 0) else .ok (some n)

/-- A request homed here, for the extent of a HOME entry.
[Marks: DEDUCED, log entry 23.] -/
def State.homeVerdict (s : State) (q : Req) (tag : Option Nat) (e : Nat) : Verdict :=
  match s.extGate q e with
  | some (st, c) => if st = stDenied then s.deny c q.addr else .refuse st c q.addr
  | none =>
    if q.nearSource then
      (match s.nearSourceGate q tag with
      | .error (st, c) => if st = stDenied then s.deny c q.addr else .refuse st c q.addr
      | .ok e2 => .serve .home (some e) (if e2 = some e then none else e2))
    else .serve .home (some e) none

/-- A request that leaves the switch: the rights to a source are checked where it enters the stage (R130, R372). -/
def State.outVerdict (s : State) (q : Req) (tag : Nat) (d : Where) : Verdict :=
  if ¬ q.nearSource then .serve d none none
  else match s.sourceRights q (some tag) q.len with
    | .ok => .serve d none none
    | .bad => .refuse stBusy 0x381 q.addr
    | .no => s.deny 0x830 q.addr

/-- Where a request of the stage goes by its location entry (R372 step 4). -/
def State.location (s : State) (q : Req) (tag : Nat) : Verdict :=
  let miss := s.deny (if q.addr / 2 ^ 52 = s.r F.FELT_STAGE.STAGE_ID [] then 0x830 else 0x831) q.addr
  match s.lookRoute q.old q.addr with
  | .bad => .refuse stBusy 0x381 q.addr
  | .miss => miss
  | .hit e =>
    match e.kind with
    | 8 =>
      if e.hi < q.addr + q.span - 1 ∨ bits e.result 20 4 ≠ q.part ∨ (s.ext (e.result % 2 ^ 20)).part ≠ q.part then s.deny 0x830 q.addr
      else s.homeVerdict q (some tag) (e.result % 2 ^ 20)
    | 9 => s.outVerdict q tag (.route (e.result % 16))
    | 10 => s.outVerdict q tag (.gateway (e.result % 2 ^ 16))
    | 11 => .serve (.knotHome (e.result % 16)) none none
    | _ => miss

/-- The resolution of a request by the tag of its requester (R45, R372); `cause` is that of a failed check of rights. -/
def State.resolve (s : State) (q : Req) (tag cause : Nat) : Verdict :=
  let own := s.r F.FELT_STAGE.STAGE_ID []
  if q.addr / 2 ^ 52 = 0xFFF ∨ own = 0xFFF then .refuse stDenied 0x831 q.addr
  else match s.rights tag q.part q.addr q.span q.need (decide (q.op = 0x13)) with
    | .bad => .refuse stBusy 0x381 q.addr
    | .no =>
      if q.op ≠ 0x13 ∧ s.releasing (some tag) q.part q.addr q.span q.need then .refuse stRevoked 0x301 q.addr else s.deny cause q.addr
    | .ok =>
      if q.addr / 2 ^ 52 = own ∧ (s.slotOf (q.addr % 2 ^ 52)).isSome then
        (if s.mirror = mirLost then .refuse stLost 0x882 q.addr else .serve .knotWin none none)
      else s.location q tag

/-- The resolution of a request of another switch of the stage (R372): it is not checked by tag; a knot slot held here is served, and the home
checks the partition when the request is taken up (R110). -/
def State.resolvePeer (s : State) (q : Req) : Verdict :=
  let own := s.r F.FELT_STAGE.STAGE_ID []
  if q.addr / 2 ^ 52 ≠ own ∨ own = 0xFFF then .refuse stDenied 0x831 q.addr
  else if (s.slotOf (q.addr % 2 ^ 52)).isSome then
    (if s.mirror = mirLost then .refuse stLost 0x882 q.addr else .serve .knotWin none none)
  else .serve .home none none

/-! ### Connections (R65 to R68) -/

/-- Whether the compatibility service mode takes requests in a partition (R217, R218). -/
def State.svcOn (s : State) (p : Nat) : Bool := (SMap.get {} s.eng.svc p).on && !(SMap.get {} s.eng.svc p).draining

/-- The cause of a request whose service bit is clear (R68). -/
def serviceCause (op : Nat) : Nat := if op = 0x20 then 0x261 else if op = 0x28 ∨ op = 0x2A then 0x561 else 0x830

/-- What the connection itself says of a request that it delivers (R58, R65, R67): FENCED, CLOSING, its outstanding-request limit, and a reserved opcode, as status and
cause. Only a CONN_OPEN passes in CREATED.
[Marks: DESIGN CHOICE, log entry 24.] -/
def State.connGate (s : State) (c : Nat) (q : Req) : Option (Nat × Nat) :=
  let x := s.conn c
  if x.st = .fenced then some (stFenced, 0)
  else if x.st ≠ .open ∧ ¬ (x.st = .created ∧ q.op = 0x01) then some (stDenied, 0x830)
  else if x.limit ≤ (s.openOn c).length then some (stBusy, 0)
  else if ¬ knownOp q.op then some (stDenied, 0x801)
  else none

/-- The decision on a request that a connection lets through.
[Marks: DEDUCED, log entry 23.] -/
def State.connVerdict (s : State) (c : Nat) (q : Req) : Verdict :=
  let x := s.conn c
  if q.op = 0x01 ∨ q.op = 0x02 then .serve .service none none
  else if (match serviceBit q.op with | some b => !bit x.services b | none => false) then .refuse stDenied (serviceCause q.op) c
  else if 0x30 ≤ q.op ∧ ¬ s.svcOn x.part then .refuse stDenied 0x830 c
  else match q.badForm with
    | some k => .refuse stDenied k c
    | none =>
      if s.fenced x.part then .refuse stFenced 0 c
      else if ¬ memOp q.op then .serve .service none none
      else if (s.peerIdx c).isSome then s.resolvePeer q
      else s.resolve q x.tag 0x830

/-- A request counts in the OPEN_REQ of an extent.
[Marks: DESIGN CHOICE, log entry 24.] -/
def openExt (e : Option Nat) : Prog := Prog.opt e fun e => rd fun s => .eff (.ext e { s.ext e with openReq := (s.ext e).openReq + 1 })

/-- A request is entered in the tables and its decision carried out. A request taken up from another switch waits for its ownership check. -/
def admitReq (r : Nat) (q : Req) (v : Verdict) (peer : Bool) : Prog :=
  match v with
  | .refuse st cause obj => .all [.eff (.req r (some q)), refuse r st cause obj]
  | .serve d e e2 => .all [
      .eff (.req r (some { q with dest := d, ext := e, ext2 := e2, wait := if peer && decide (d = .home) then .other else .none })),
      openExt e, openExt e2]

/-! ### Retries (R75) -/

/-- What the fence of a connection says of a fenced request that has arrived. -/
inductive Again where
  | run (q : Req)
  | stored (status : Nat) (data : List Byte)
  | cancelled
  deriving DecidableEq, Repr

/-- A fenced request against the TIDs kept: a cancelled TID, a retry whose first attempt was executed, a retry whose first attempt is still open and is
waited for, or a request to execute.
[Marks: DESIGN CHOICE, log entry 24.] -/
def State.again (s : State) (c : Nat) (q : Req) : Again :=
  let x := s.conn c
  if x.fences.any (fun f => decide (f.tid = q.tid) && f.cancelled) then .cancelled
  else match q.retryOf with
    | none => .run q
    | some t => match x.fences.find? (fun f => decide (f.tid = t) && !f.cancelled) with
      | some f => .stored f.status f.data
      | none => if (s.openOn c).any (fun e => e.2.tid = t) then .run q else .run { q with retryOf := none }

/-- The old TID of a retry that was not found is marked cancelled.
[Marks: DESIGN CHOICE, log entry 24.] -/
def cancelTid (c : Nat) (q q' : Req) : Prog :=
  match q.retryOf, q'.retryOf with
  | some t, none => rd fun s => if fencedOp q.op then
      .eff (.conn c { s.conn c with fences := ({ tid := t, cancelled := true } :: (s.conn c).fences).take 4096 }) else .skip
  | _, _ => .skip

/-- Whether another switch performs a request: it then goes on with its RETRY and RETRY_OF, and its home keeps its result (R75). -/
def Where.away : Where → Bool
  | .route _ | .knotHome _ | .gateway _ => true
  | _ => false

/-- A request that a connection delivers in PSN order is admitted; `bad`: its segment is in error (R57). A fenced request that is homed here is held against the
TIDs kept (R75). -/
def admitConn (c : Nat) (q : Req) (bad : Bool) : Prog := fresh fun r => rd fun s =>
  let peer := (s.peerIdx c).isSome
  match s.connGate c q with
  | some (st, k) => admitReq r q (.refuse st k c) peer
  | none =>
    let v (q : Req) : Verdict := match s.connVerdict c q with
      | .serve d e e2 => if bad then .refuse stDenied 0x803 c else .serve d e e2
      | v => v
    let away : Bool := match v q with | .serve d _ _ => d.away | _ => false
    if away then admitReq r q (v q) peer
    else if ¬ fencedOp q.op then admitReq r { q with retryOf := none } (v { q with retryOf := none }) peer
    else match s.again c q with
      | .cancelled => .all [.eff (.req r (some q)), respond r stTimeout []]
      | .stored st data => .all [.eff (.req r (some q)), respond r st data]
      | .run q' => .all [cancelTid c q q', admitReq r q' (v q') peer]

/-- A retry homed here that waited for its first attempt takes that attempt's result; otherwise `go` is done. -/
def afterRetry (r : Nat) (q : Req) (go : Prog) : Prog := rd fun s =>
  match q.src, q.retryOf with
  | .conn c, some t =>
    if q.dest.away then go
    else if (s.openOn c).any (fun e => e.2.tid = t ∧ e.1 < r) then .skip
    else match (s.conn c).fences.find? (fun f => decide (f.tid = t) && !f.cancelled) with
      | some f => respond r f.status f.data
      | none => go
  | _, _ => go

/-! ### Order on one stream (R76 to R78, R245, R313) -/

/-- The stream of a source: a connection, a context or a queue pair; others have none. -/
def Src.stream : Src → Option (Nat × Nat)
  | .conn c => some (0, c)
  | .ctx c _ => some (1, c)
  | .qp q => some (2, q)
  | _ => none

/-- A trigger store to a knot slot held here (R350). -/
def State.trigStore (s : State) (q : Req) : Bool :=
  match s.slotOf (q.addr % 2 ^ 52) with
  | some p => decide (q.op = 0x11) && decide (q.dest = .knotWin) && decide (p.2 = 0x40)
  | none => false

/-- A trigger, and a trigger store to a knot slot, are performed as STRICT (R78, R350); the reserved ORD acts as STRICT. -/
def State.ordOf (s : State) (q : Req) : Nat :=
  if decide (q.op = 0x13) || s.trigStore q then 2 else min q.ord 2

/-- The bytes of fabric memory that a request reads or writes, as hall address and length (R76, R339): its range and the source of a NEAR_OP (R130), the page list
and pages of an attention request (R326, R328), and the table of a retrieval (R336); other requests name none.
[Marks: DESIGN CHOICE, log entry 24.] -/
def State.ranges (s : State) (q : Req) : List (Nat × Nat) :=
  if memOp q.op then (q.addr, q.span) :: (if q.nearSource then [(q.opA, q.len)] else [])
  else if q.op = 0x28 then
    let a := q.attn
    (a.list, 8 * a.npages) :: (List.range a.npages).map (fun i => (ofLe (SMap.slice 0 s.pool.mem (a.list % 2 ^ 52 + 8 * i) 8), a.pageBytes))
  else if q.op = 0x2A then [(q.retr.table, q.retr.tiles * q.retr.tileBytes)]
  else []

/-- Whether the bytes of two requests overlap. -/
def State.overlap (s : State) (a b : Req) : Bool :=
  (s.ranges a).any (fun x => (s.ranges b).any (fun y => decide (x.1 < y.1 + y.2) && decide (y.1 < x.1 + x.2)))

/-- An accepted contribution or fetch whose answer waits for its granules has been performed (R313). -/
def Req.collDone (q : Req) : Bool := decide (q.op = 0x20 ∧ q.wait = .other)

/-- A request may be performed: no earlier request of its stream that it must follow is still open. -/
def State.inOrder (s : State) (r : Nat) (q : Req) : Bool :=
  match q.src.stream with
  | none => true
  | some st =>
    let o := s.ordOf q
    (s.reqsWith (fun p => decide (p.src.stream = some st) && !p.collDone)).all (fun e =>
      decide (r ≤ e.1) || decide (o = 0) || (decide (o = 1) && !s.overlap q e.2))

/-- A store homed here may be performed: no store of another source to one of its lines arrived earlier and is still open (R80).
[Marks: DESIGN CHOICE, log entry 24.] -/
def State.storeFirst (s : State) (r : Nat) (q : Req) : Bool :=
  (s.reqsWith (fun p => decide (p.op = 0x11 ∧ p.dest = .home ∧ p.ext.isSome ∧ (p.src.stream = none ∨ p.src.stream ≠ q.src.stream) ∧ p.addr / 64 ≤ (q.addr + q.len - 1) / 64 ∧
    q.addr / 64 ≤ (p.addr + p.len - 1) / 64))).all (fun e => decide (r ≤ e.1))

end Sys2Proof.Machine
end

