-- ==== Sys2Proof/Machine/Btp.lean ====
section
/-! DEFINITION. The BTP transport engines (R47 to R58, R65 to R75, R81 to R85): receipt, acknowledgment, retransmission, opening and closing of a
connection, and the responses to requests that the switch has sent. -/
namespace Sys2Proof.Machine
open Sys2Proof

/-! ### The packet (R50 to R57) -/

/-- A received packet: the fields of its base header, its extension words without the SACK word, the SACK word, and the bytes after the
extension words. -/
structure Pkt where
  ver : Nat
  chk : Bool
  ackValid : Bool
  resp : Bool
  op : Nat
  dst : Nat
  psn : Nat
  ackPsn : Nat
  epoch : Nat
  ord : Nat
  status : Nat
  extN : Nat
  tid : Nat
  plen : Nat
  sack : Option Nat
  words : List Nat
  body : List Byte
  deriving DecidableEq, Repr

/-- Extension words of an opcode before the segment word (R52 to R54, R58, R94, R310, R326, R335); `retry` is ATTR.RETRY. -/
def extBase (op : Nat) (resp retry : Bool) : Nat :=
  if resp then (if op = 0x14 then 2 else if op = 0x28 then 4 else if op = 0x31 ∨ op = 0x35 then 3 else 0)
  else if op = 0x12 ∨ op = 0x16 then 4 + b2n retry
  else if op = 0x13 then 2 + b2n retry
  else if memOp op ∨ op = 0x20 ∨ op = 0x2A then 2
  else if op = 0x28 then 4
  else if op = 0x30 ∨ op = 0x31 ∨ op = 0x32 ∨ op = 0x34 ∨ op = 0x35 then 3
  else 0

/-- Whether the segment word of R57 follows. -/
def hasSeg (op : Nat) (resp : Bool) : Bool :=
  if resp then decide (op = 0x14 ∨ op = 0x31 ∨ op = 0x35) else [0x14, 0x15, 0x30, 0x31, 0x34, 0x35].contains op

/-- Whether ATTR.RETRY is set in the words of an opcode with the memory extension (R52). -/
def retrySet (op : Nat) (resp : Bool) (ws : List Nat) : Bool := memOp op && !resp && bit (ws.getD 1 0) 22

/-- The big-endian words of 8 bytes of a byte list, n of them. -/
def beWords (bs : List Byte) (n : Nat) : List Nat := (List.range n).map (fun i => ofBe ((bs.drop (8 * i)).take 8))

/-- Extension words before the segment word: those of the opcode, and none in a ROUTE_EPOCH_STALE response (R58). -/
def extOf (op status : Nat) (resp retry : Bool) : Nat := if resp ∧ status = stStale then 0 else extBase op resp retry

/-- A datagram read as a BTP packet; none where it is shorter than its header. The SACK word stands before the segment word (R55, R57).
[Marks: DESIGN CHOICE, log entry 24.] -/
def Pkt.parse (bs : List Byte) : Option Pkt :=
  if bs.length < 24 then none
  else
    let b0 := byteAt bs 0
    let f (o n : Nat) := ofBe ((bs.drop o).take n)
    let n := byteAt bs 15
    let ws := beWords (bs.drop 24) n
    let op := byteAt bs 1
    let resp := bit b0 0
    let at' := extOf op (byteAt bs 14 % 64) resp (retrySet op resp ws)
    some {
      ver := b0 / 16, chk := bit b0 2, ackValid := bit b0 1, resp := resp, op := op, dst := f 2 2, psn := f 4 4, ackPsn := f 8 4
      epoch := f 12 2, ord := byteAt bs 14 / 64, status := byteAt bs 14 % 64, extN := n, tid := f 16 4, plen := f 20 2
      sack := if bit b0 3 then some (ws.getD at' 0) else none
      words := if bit b0 3 then ws.eraseIdx at' else ws
      body := bs.drop (24 + 8 * n) }

/-- Extension words before the packet's segment word. -/
def Pkt.base (p : Pkt) : Nat := extOf p.op p.status p.resp (retrySet p.op p.resp p.words)

/-- A response that says that its request's packet was dropped (R83). -/
def Pkt.stale (p : Pkt) : Bool := p.resp && decide (p.status = stStale)

/-- The fewest extension words of the packet's opcode (R51, R58). -/
def Pkt.minExt (p : Pkt) : Nat := p.base + b2n (hasSeg p.op p.resp && !p.stale) + b2n p.sack.isSome

/-- The offset that a segment of a body carries (R57, R326); none in other packets. -/
def Pkt.seg (p : Pkt) : Option Nat :=
  if p.stale then none
  else if hasSeg p.op p.resp then some (p.words.getD p.base 0 / 2 ^ 32)
  else if p.op = 0x28 then some (p.words.getD 3 0 % 2 ^ 32)
  else none

/-- The payload. -/
def Pkt.payload (p : Pkt) : List Byte := p.body.take p.plen

/-- The request that a packet carries on a connection of a partition (R52 to R54); `old`: it is routed by the previous map (R81). -/
def Pkt.request (p : Pkt) (c part : Nat) (old : Bool) : Req :=
  let w (i : Nat) := p.words.getD i 0
  let mem := memOp p.op
  let q : Req := {
    src := .conn c, op := p.op, tid := p.tid, psn := p.psn, ord := p.ord, part := part
    addr := if mem then w 0 else 0, len := if mem then w 1 / 2 ^ 32 else 0, attr := if mem then w 1 % 2 ^ 32 else 0
    opA := if p.op = 0x12 ∨ p.op = 0x16 then ofLe (beBytes 8 (w 2)) else 0
    opB := if p.op = 0x12 ∨ p.op = 0x16 then ofLe (beBytes 8 (w 3)) else 0
    retryOf := if retrySet p.op false p.words then some (w (extBase p.op false true - 1) / 2 ^ 32) else none
    words := p.words, old := old }
  if bodyOp p.op then
    { q with want := q.bodyLen, rcv := p.plen, data := if p.op = 0x15 then [] else p.payload
             segs := if p.op = 0x15 then [(p.seg.getD 0, p.payload)] else [] }
  else { q with data := p.payload }

/-! ### The ends of a request -/

/-- The lines that a request waits for or holds. -/
def State.linesHeld (s : State) (r : Nat) : List Nat :=
  s.hitch.txns.filterMap (fun e => if s.inLine r e.1 then some e.1 else none)

/-- A request is ended from outside its own performance, and the lines it waited for or held go on. -/
def cut (r status cause obj : Nat) : Prog := .all [refuse r status cause obj, rd fun s => releaseLines r (s.linesHeld r)]

/-- A request that the switch has sent ends: those it stands for are answered, each load with the bytes it named (R92); a merged request brings its
reply to its entry (R189); a stage arrival answered KNOT_BROKEN breaks the member again (R354). -/
def outEnd (t status : Nat) (data : List Byte) : Prog := rd fun s =>
  match SMap.get none s.btp.outs t with
  | none => .skip
  | some o => .all [
      .eff (.out t none),
      Prog.each o.owners (fun r => rd fun u => match u.req r with
        | none => .skip
        | some q => respond r status (if status ≠ stOk then [] else if q.op = 0x10 ∨ q.op = 0x14 then (data.drop (q.addr - o.addr)).take q.len else data)),
      Prog.opt o.comb (fun e => rd fun u => match SMap.get none u.hitch.combs e with
        | none => .skip
        | some x => .eff (.comb e (some { x with closed := true, status := status, reply := some data }))),
      Prog.opt o.knot (fun n => rd fun u =>
        if status = stBroken ∧ (u.knot n).st = .active then .all [breakKnot n,
          log { src := srcFelt, cause := 0x515, sev := 2, status := stBroken, part := u.knotPart n, obj1 := n
                obj0 := swName (u.r F.FELT_STAGE.STAGE_ID []) (u.r F.KNOT.HOME_INDEX [n]) }]
        else .skip)]

/-- The numbers of the requests that the switch has open on a connection. -/
def State.outsOn (s : State) (c : Nat) : List Nat :=
  s.btp.outs.filterMap (fun e => match e.2 with | some o => if o.conn = c then some e.1 else none | none => none)

/-- A connection enters ERROR (R65, R84): its open requests end, and those the switch sent on it end with a status; the stage barriers that use it
break (R354).
[Marks: DESIGN CHOICE, log entry 24.] -/
def connError (c status : Nat) : Prog := rd fun s => .all [
  .eff (.conn c { s.conn c with st := .error, held := [], out := [], unacked := 0 }),
  Prog.each (s.openOn c) (fun e => cut e.1 (if status = stOk then stTimeout else status) 0 c),
  Prog.each (s.outsOn c) (fun t => outEnd t status []),
  Prog.opt (s.peerIdx c) breakStage]

/-! ### Acknowledgments and retransmission (R70 to R73) -/

/-- Whether a packet above ACK_PSN a counts as received after an acknowledgment (R55): a SACK word says so of the 64 packets above the first missing one, which
itself is missing; an ACK without one shows that nothing above ACK_PSN is held. -/
def OutPkt.gotBy (p : OutPkt) (a : Nat) (sack : Option Nat) (pure : Bool) : Bool :=
  let d := (p.psn + 2 ^ 32 - a) % 2 ^ 32
  match sack with
  | some w => if 2 ≤ d ∧ d < 66 then bit w (d - 2) else if d = 1 then false else p.sacked
  | none => p.sacked && !pure

/-- What a peer's ACK_PSN and SACK retire and show as missing (R55, R71 to R73): packets up to ACK_PSN are done; unacknowledged packets below the
highest one received are sent again at once, within RETRY_LIMIT. `pure`: the packet is an ACK.
[Marks: DESIGN CHOICE, log entry 24.] -/
def acked (c a : Nat) (sack : Option Nat) (pure : Bool) : Prog := rd fun s =>
  let x := s.conn c
  if newer32 a ((x.txNext + 2 ^ 32 - 1) % 2 ^ 32) then .skip
  else
    let rest := (x.out.filter (fun p => newer32 p.psn a)).map (fun p => { p with sacked := p.gotBy a sack pure })
    let top := (rest.filter (·.sacked)).foldl (fun m p => if newer32 p.psn m then p.psn else m) a
    .all [
      .eff (.conn c { x with out := rest }),
      Prog.each (rest.filter (fun p => !p.sacked && newer32 top p.psn)) (fun p => resend c p.psn none),
      closeCheck c]

/-- BTP_RETRANSMIT_TIMER (R73): the timer of an unacknowledged packet expires; the packet is sent again with a doubled timer, or the connection enters ERROR. -/
def execBtpRetransmitTimer (c psn : Nat) (s : State) : Host.Outcome State Fault Refusal := run s <|
  let x := s.conn c
  match x.out.find? (fun p => p.psn = psn) with
  | none => .skip
  | some p =>
    if p.sacked then .skip
    else if p.limit < p.sends then .all [
      log { src := srcBrim (connDie c), cause := 0x810, sev := 2, status := stTimeout, obj0 := c, part := some x.part },
      connError c stTimeout]
    else resend c psn (some (min (2 * p.rto)
      (max (s.r F.BRIM_BTP_TIMER.RTO_MAX_US [connDie c]) (s.r F.BRIM_BTP_TIMER.RTO_INIT_US [connDie c]))))

/-- BTP_ACK_TIMER (R72): 2 µs after a receipt that is not acknowledged an ACK is sent. -/
def execBtpAckTimer (c : Nat) (s : State) : Host.Outcome State Fault Refusal := run s <|
  if (s.conn c).unacked = 0 ∨ (s.conn c).st = .free ∨ (s.conn c).st = .error then .skip else sendAck c

/-! ### Receipt (R47 to R51, R56, R70, R81, R83, R410) -/

/-- Route epoch a is newer than b (R69, R81). -/
def newer16 (a b : Nat) : Bool := let d := (a + 2 ^ 16 - b % 2 ^ 16) % 2 ^ 16; decide (0 < d ∧ d < 2 ^ 15)

/-- A packet dropped with a record (R51, R65, R70).
[Marks: DESIGN CHOICE, log entry 11.] -/
def dropPkt (n cause c obj1 : Nat) (part : Option Nat) : Prog :=
  log { src := srcBrim n, cause := cause, sev := 1, obj0 := c, obj1 := obj1, part := part }

/-- A segment of a body arrives: the first makes the request, later ones are added to it; a segment in error ends the request (R57, R59, R96), and
those of a request that has ended are discarded.
[Marks: DESIGN CHOICE, log entry 24.] -/
def takeSegment (c : Nat) (p : Pkt) (old : Bool) : Prog := rd fun s =>
  let x := s.conn c
  let q := p.request c x.part old
  let o := p.seg.getD 0
  match s.reqsWith (fun e => decide (e.src = .conn c) && decide (e.tid = p.tid) && decide (e.op = p.op) && decide (e.rcv < e.want)) with
  | (r, e) :: _ =>
    if o ≠ e.rcv ∨ e.want < e.rcv + p.plen ∨ e.addr ≠ q.addr ∨ e.len ≠ q.len ∨ e.attr ≠ q.attr ∨ e.want ≠ q.want ∨
        (p.op = 0x15 ∧ o % 64 ≠ 0) then cut r stDenied 0x803 c
    else .eff (.req r (some { e with rcv := e.rcv + p.plen, segs := e.segs ++ q.segs, data := e.data ++ q.data }))
  | [] =>
    if x.ended.contains p.tid ∧ o ≠ 0 then .skip
    else .all [.eff (.conn c { x with ended := x.ended.erase p.tid }), admitConn c q (decide (o ≠ 0 ∨ q.want < p.plen))]

/-- Bodies that a packet of another TID or kind interrupts end with ACCESS_DENIED: their segments carry consecutive PSNs (R59, R96).
[Marks: DESIGN CHOICE, log entry 24.] -/
def cutBodies (c : Nat) (p : Pkt) : Prog := rd fun s =>
  Prog.each (s.reqsWith (fun e => decide (e.src = .conn c) && decide (e.rcv < e.want) && (p.resp || decide (e.tid ≠ p.tid ∨ e.op ≠ p.op))))
    (fun e => cut e.1 stDenied 0x803 c)

/-- A packet is delivered to request processing (R58, R70); `old`: it came under the previous route epoch. -/
def takePkt (c : Nat) (p : Pkt) (old : Bool) : Prog := .seq (cutBodies c p) <| rd fun s =>
  let x := s.conn c
  if p.resp then fresh fun r => .eff (.req r (some {
      src := .conn c, op := p.op, tid := p.tid, psn := p.psn, part := x.part, data := p.payload, resp := true, status := p.status
      naming := p.ackPsn, segOff := p.seg.getD 0, words := p.words }))
  else if bodyOp p.op then takeSegment c p old
  else admitConn c (p.request c x.part old) (decide (p.seg.getD 0 ≠ 0))

/-- The check of a packet's check value in PSN order, and the running value after it (R56, R410); none: the packet is dropped. A packet without a
payload needs none.
[Marks: DESIGN CHOICE, log entry 24.] -/
def State.checkPkt (s : State) (c : Nat) (p : Pkt) : Option Nat :=
  let x := s.conn c
  if x.chk = 0 then (if p.chk then none else some x.chkRx)
  else if ¬ p.chk then (if p.plen = 0 then some x.chkRx else none)
  else
    let k := s.chkOf (connDie c) x.chk p.seg x.chkRx p.payload
    if p.body.drop p.plen = k.1 then some k.2 else none

/-- Packets are delivered in PSN order as far as no gap stands before them (R70). -/
def deliver : Nat → Nat → Prog
  | 0, _ => .skip
  | fuel + 1, c => rd fun s =>
    let x := s.conn c
    match x.held.find? (fun h => h.psn = x.rxNext) with
    | none => .skip
    | some h =>
      let held := x.held.erase h
      match Pkt.parse h.bytes with
      | none => .skip
      | some p => match s.checkPkt c p with
        | none => .all [.eff (.conn c { x with held := held }), count F.BRIM_BTP_CHK_FAIL_COUNT.COUNT [connDie c],
            dropPkt (connDie c) 0x812 c 0 (some x.part)]
        | some k => .all [.eff (.conn c { x with held := held, rxNext := (x.rxNext + 1) % 2 ^ 32, chkRx := k }), takePkt c p h.old,
            rd fun t => if (t.conn c).st = .free ∨ (t.conn c).st = .error then .skip else deliver fuel c]

/-- A duplicate is acknowledged, and the response still held of its request is sent again, as a retransmission (R70, R73).
[Marks: DESIGN CHOICE, log entry 24.] -/
def duplicate (c : Nat) (p : Pkt) : Prog := .all [sendAck c, rd fun s =>
  if p.resp then .skip else Prog.each ((s.conn c).out.filter (fun o => o.resp && decide (o.tid = p.tid))) (fun o => resend c o.psn none)]

/-- A packet with a usable header and route on a connection: its PSN decides (R70). -/
def receivePsn (c : Nat) (p : Pkt) (bytes : List Byte) (old : Bool) : Prog := rd fun s =>
  let x := s.conn c
  if ¬ newer32 p.psn x.ackPsn ∨ x.held.any (fun h => h.psn = p.psn) then duplicate c p
  else if 512 < (p.psn + 2 ^ 32 - x.ackPsn) % 2 ^ 32 then dropPkt (connDie c) 0x811 c p.psn (some x.part)
  else .all [
    .eff (.conn c { x with held := x.held ++ [{ psn := p.psn, bytes := bytes, old := old }], unacked := x.unacked + 1 }),
    deliver (x.held.length + 1) c,
    rd fun t => if 16 ≤ (t.conn c).unacked ∧ (t.conn c).st ≠ .free ∧ (t.conn c).st ≠ .error then sendAck c else .skip]

/-- The route epoch of a received packet (R81, R83): current, previous while usable, newer and counted, or expired: dropped with all it carries and answered with
ROUTE_EPOCH_STALE, which names its PSN. `go` says whether the previous map routes it.
[Marks: DESIGN CHOICE, log entry 24.] -/
def receiveEpoch (c epoch op tid psn : Nat) (go : Bool → Prog) : Prog := rd fun s =>
  let cur := s.r F.FELT_ROUTE_EPOCH.CURRENT []
  let part := some (s.conn c).part
  if epoch = cur then go false
  else if (epoch + 1) % 2 ^ 16 = cur ∧ s.btp.prevMap then go true
  else if newer16 epoch cur then .all [count F.FELT_EPOCH_AHEAD_COUNT.COUNT [],
    log { src := srcFelt, cause := 0x821, sev := 0, obj0 := c, obj1 := epoch, part := part }, go false]
  else .all [log { src := srcFelt, cause := 0x820, sev := 2, status := stStale, obj0 := c, obj1 := epoch, part := part },
    sendPkt c { psn := 0, op := op, tid := tid, resp := true, status := stStale, data := [], naming := some psn, epoch := 0, rto := 0 }]

/-- BTP_ACK (R72): an ACK with its route epoch, its PSN, which it does not consume, ACK_PSN and, where its flag is set, a SACK word arrives on a connection. -/
def execBtpAck (c epoch psn ackPsn : Nat) (sack : Option Nat) (s : State) : Host.Outcome State Fault Refusal := run s <|
  let x := s.conn c
  if x.st = .free ∨ x.st = .error ∨ x.st = .created ∨ ¬ s.rb F.BRIM_BTP_CTRL.BTP_EN [connDie c] then .skip
  else receiveEpoch c epoch 0x00 0 psn (fun _ => acked c ackPsn sack true)

/-- BTP_PACKET_RECEIVE (R47 to R51, R63, R65): a UDP datagram with the BTP port arrives on a port of a die, with the outcome of its UDP checksum, its CE
mark and the outcome of the Cleat's verification of the lookup it makes. -/
def execBtpPacketReceive (die port udpPort : Nat) (csumOk ce : Bool) (verify : Verify) (bytes : List Byte) (s : State) :
    Host.Outcome State Fault Refusal := run s <|
  if s.portShut (64 * die + port) ∨ udpPort ≠ s.r F.BRIM_BTP_CTRL.UDP_PORT [die] ∨ ¬ s.rb F.BRIM_BTP_CTRL.BTP_EN [die] then .skip
  else if ¬ csumOk then count F.BRIM_BTP_DROP_COUNT.COUNT [die]
  else match Pkt.parse bytes with
    | none => dropPkt die 0x803 0 0 none
    | some p =>
      let c := p.dst
      let x := s.conn c
      let chkLen := if p.chk then (if x.chk = 0 then p.body.length - p.plen else (s.chkSet die x.chk).size) else 0
      if p.ver ≠ 2 then dropPkt die 0x802 c 0 none
      else if 16 < p.extN ∨ p.extN < p.minExt ∨ 8192 < p.plen ∨ p.words.length + b2n p.sack.isSome ≠ p.extN ∨
          bytes.length ≠ 24 + 8 * p.extN + p.plen + chkLen ∨ (p.sack.isSome ∧ ¬ p.ackValid) then dropPkt die 0x803 c 0 none
      else if x.st = .free ∨ connDie c ≠ die ∨ ¬ bit x.portSet port then dropPkt die 0x830 c port none
      else if x.st = .error then .skip
      else if x.st = .created ∧ (p.op ≠ 0x01 ∨ p.resp) then dropPkt die 0x830 c port (some x.part)
      else receiveEpoch c p.epoch p.op p.tid p.psn fun old => .all [
        Prog.when ce (.eff (.conn c { x with ce := true })),
        Prog.when p.ackValid (acked c p.ackPsn p.sack (decide (p.op = 0x00) && !p.resp)),
        if p.op = 0x00 ∧ ¬ p.resp then .skip
        else rd fun t => if (t.conn c).st = .free then .skip else .all [
          Prog.when (memOp p.op && !p.resp) (verifyLook verify x.tag (p.words.getD 0 0)),
          receivePsn c p bytes old]]

/-! ### Opening and closing (R65, R66) -/

/-- CONN_OPEN (R66): the request to open a connection is taken up.
[Marks: DESIGN CHOICE, log entry 24.] -/
def execConnOpen (r : Nat) (s : State) : Host.Outcome State Fault Refusal := run s <|
  match s.req r with
  | none => .skip
  | some q => match q.src with
    | .conn c =>
      let x := s.conn c
      if q.op ≠ 0x01 ∨ q.resp then .skip
      else if x.st = .open then respond r stOk []
      else if x.st ≠ .created then refuse r stDenied 0x830 c
      else if q.data.length = 16 ∧ ofLe q.data = x.token then .all [.eff (.conn c { x with st := .open }), respond r stOk []]
      else .all [.eff (.conn c { x with badOpens := x.badOpens + 1 }), refuse r stDenied 0x830 c,
        Prog.when (decide (16 ≤ x.badOpens + 1)) (connError c stTimeout)]
    | _ => .skip

/-- CONN_CLOSE (R65): the request to close a connection is taken up. -/
def execConnClose (r : Nat) (s : State) : Host.Outcome State Fault Refusal := run s <|
  match s.req r with
  | none => .skip
  | some q => match q.src with
    | .conn c =>
      let x := s.conn c
      if q.op ≠ 0x02 ∨ q.resp then .skip
      else .all [.eff (.conn c { x with st := if x.st = .open then .closing else x.st }), respond r stOk [], closeCheck c]
    | _ => .skip

/-- CONN_CLOSING_TIMEOUT (R65): 1 ms after CLOSING began the requests still open end with TIMEOUT and the connection becomes FREE. -/
def execConnClosingTimeout (c : Nat) (s : State) : Host.Outcome State Fault Refusal := run s <|
  if (s.conn c).st ≠ .closing then .skip
  else .all [Prog.each (s.openOn c) (fun e => cut e.1 stTimeout 0 c), Prog.each (s.outsOn c) (fun t => outEnd t stTimeout []), .eff (.conn c {})]

/-! ### Responses and timeouts of requests that the switch sent (R58, R74, R83) -/

/-- The request open on a connection under a TID. -/
def State.outOf (s : State) (c tid : Nat) : Option (Nat × OutReq) :=
  s.btp.outs.findSome? (fun e => match e.2 with
    | some o => if o.conn = c ∧ o.tid = tid then some (e.1, o) else none
    | none => none)

/-- A response is matched by its TID: ROUTE_EPOCH_STALE makes the switch send the named packet again, or ends the request when it holds no newer epoch;
data segments are put together; any other response ends the request, one with a reserved status with TIMEOUT, since none is returned (R11); and one without an open request is discarded (R58, R74, R83). -/
def responseTaken (c : Nat) (q : Req) : Prog := rd fun s =>
  let o := s.outOf c q.tid
  let status := if q.status < 0x10 then q.status else stTimeout
  if q.status = stStale then
    match (s.conn c).out.find? (fun p => p.psn = q.naming) with
    | some p =>
      if newer16 (s.r F.FELT_ROUTE_EPOCH.CURRENT []) p.epoch then resend c p.psn none
      else (match o with | some e => outEnd e.1 stStale [] | none => .skip)
    | none => .skip
  else match o with
    | none => .skip
    | some (t, e) =>
      if e.op = 0x14 ∧ q.status = stOk then
        (if q.segOff ≠ e.data.length ∨ e.len < e.data.length + q.data.length then
          .all [log { src := srcBrim (connDie c), cause := 0x803, sev := 2, status := stDenied, obj0 := c, part := some q.part }, outEnd t stDenied []]
        else if e.data.length + q.data.length < e.len then .eff (.out t (some { e with data := e.data ++ q.data }))
        else outEnd t stOk ((e.data ++ q.data).take e.len))
      else outEnd t status q.data

/-- BTP_RESPONSE_RECEIVE (R58): a response delivered on a connection is taken up. -/
def execBtpResponseReceive (r : Nat) (s : State) : Host.Outcome State Fault Refusal := run s <|
  match s.req r with
  | none => .skip
  | some q => match q.src with
    | .conn c => if q.resp then .all [.eff (.req r none), responseTaken c q] else .skip
    | _ => .skip

/-- BTP_REQUEST_TIMEOUT (R74): a request the switch has sent has no response within BRIM_BTP_REQ_TIMEOUT. -/
def execBtpRequestTimeout (t : Nat) (s : State) : Host.Outcome State Fault Refusal := run s (outEnd t stTimeout [])

/-! ### Rates and route epochs (R48, R81) -/

/-- A send rate after an interval in 64ths of port rate: halved with CE, down to 1, raised by 1/16 without (R48).
[Marks: DESIGN CHOICE, log entry 69.] -/
def rateAfter (rate : Nat) (ce : Bool) : Nat := if ce then max 1 (rate / 2) else min 64 (rate + 4)

/-- ECN_RATE_INTERVAL (R48, R89): a 10 µs interval of a connection, or of a queue pair, ends. -/
def execEcnRateInterval (qp : Bool) (n : Nat) (s : State) : Host.Outcome State Fault Refusal := run s <|
  if qp then
    let x := SMap.get {} s.btp.qps n
    if x.live then .eff (.qp n { x with rate := rateAfter x.rate false }) else .skip
  else
    let x := s.conn n
    if x.st = .free then .skip else .eff (.conn n { x with rate := rateAfter x.rate x.ce, ce := false })

/-- ROUTE_DRAIN_EXPIRY (R81): DRAIN_US has passed since the commit of the current epoch; the previous map stops being usable. -/
def execRouteDrainExpiry (s : State) : Host.Outcome State Fault Refusal := run s (.all [.eff (.prevMap false), .eff (.prevRoutes [])])

end Sys2Proof.Machine
end

