-- ==== Sys2Proof/Machine/Extent.lean ====
section
/-! DEFINITION. An extent that drains (R105, R106, R128): what every way into DRAINING does, and the end of a migration and of a prefetch. -/
namespace Sys2Proof.Machine
open Sys2Proof

/-- A migration is aborted: its destination is given up and the source stays current (R128). -/
def abortMig (p : Nat) : Prog := rd fun s =>
  match SMap.get none s.pool.migs p with
  | none => .skip
  | some _ => .all [.eff (.mig p none), .eff (.page p { s.page p with st := if (s.page p).st = .migrating then .valid else (s.page p).st }),
      count F.TIER_MIGRATE_ABORT_COUNT.COUNT []]

/-- Pages of an extent. -/
def Ext.hasPage (x : Ext) (p : Nat) : Bool := decide (x.base / 2 ^ 21 ≤ p ∧ p < (x.base + x.size) / 2 ^ 21)

/-- The migrations of an extent's pages are aborted. -/
def abortMigs (x : Ext) : Prog := rd fun s =>
  Prog.each ((SMap.keys s.pool.migs).filter x.hasPage) abortMig

/-- An extent enters DRAINING, or at once DRAINED where no request is open on it; its prefetches end and its migrations are aborted (R105, R106). -/
def enterDraining (e : Nat) : Prog := rd fun s =>
  let x := s.ext e
  if x.st ≠ .active then .skip
  else .all [
    .eff (.ext e { x with st := if x.openReq = 0 then .drained else .draining }), extChange e,
    endPrefetch (fun f => f.ext = e) stRevoked 0x301, abortMigs x]

end Sys2Proof.Machine
end

