-- ==== Sys2Proof/Machine/Flash.lean ====
section
/-! DEFINITION. What the switch holds of its flash trays (ch. 04): where the chunks of a page lie, zones, the journal and its commit, checkpoints, garbage
collection and the map cache. -/
namespace Sys2Proof.Machine
open Sys2Proof

/-! ### Where a page lies (R118, R140) -/

/-- The chunks of a row on a tray. -/
def SSet.rowChunks (y : SSet) (row : Nat) : List Nat := rangeFrom (row * (y.bytes / 65536)) (y.bytes / 65536)

/-- The units of the page in a slot: member and row. -/
def SSet.pageUnits (y : SSet) (slot : Nat) : List (Nat × Nat) :=
  (rangeFrom (slot * (2 ^ 21 / y.bytes)) (2 ^ 21 / y.bytes)).map (fun u => unitPlace u y.trays.length (decide (y.mode = 1)))

/-- The (tray, chunk) places of the page in a slot, parity included (R139, R140, R148). -/
def SSet.pageChunks (y : SSet) (slot : Nat) : List (Nat × Nat) :=
  let us := y.pageUnits slot
  let n := y.trays.length
  let par := if y.mode = 1 then ((us.map (·.2)).eraseDups).map (fun r => (n - 1 - r % n, r)) else []
  (us ++ par).flatMap (fun u => (y.rowChunks u.2).map (fun c => (y.tray u.1, c)))

/-- The (tray, chunk) that holds byte o of the page in a slot. -/
def SSet.chunkAt (y : SSet) (slot o : Nat) : Nat × Nat :=
  let u := unitPlace (slot * (2 ^ 21 / y.bytes) + o / y.bytes) y.trays.length (decide (y.mode = 1))
  (y.tray u.1, u.2 * (y.bytes / 65536) + o % y.bytes / 65536)

/-- The content of a chunk on a tray that the page in a slot occupies: the page read in pieces of a chunk, of `len` bytes each, or the XOR of a row's data
(R118, R139). -/
def SSet.chunkBytes (y : SSet) (slot len : Nat) (read : Nat → List Byte) (t c : Nat) : List Byte :=
  let per := y.bytes / 65536
  let us := (y.pageUnits slot).zipIdx
  let at64 (k : Nat) : List Byte := read (k * y.bytes + c % per * 65536)
  match us.find? (fun e => decide (y.tray e.1.1 = t ∧ e.1.2 = c / per)) with
  | some e => at64 e.2
  | none => (us.filter (fun e => decide (e.1.2 = c / per))).foldl
      (fun b e => (b.zip (at64 e.2)).map (fun q => q.1 ^^^ q.2)) (List.replicate len 0)

/-- The floor places of a page: its stripe sets with its slot in each (R102, R118). -/
def State.floorSlots (s : State) (x : Ext) (p : Nat) : List (SSet × Nat) :=
  let i := p - x.base / 2 ^ 21
  (match s.sset x.set1 with | some y => [(y, x.slot1 + i)] | none => []) ++
  (if x.prot = 1 then match s.sset x.set2 with | some y => [(y, x.slot2 + i)] | none => [] else [])

/-- The chunks of a page on its cold floor. -/
def State.coldChunks (s : State) (x : Ext) (p : Nat) : List (Nat × Nat) := (s.floorSlots x p).flatMap (fun y => y.1.pageChunks y.2)

/-- The pages of an extent. -/
def Ext.pages (x : Ext) : List Nat := rangeFrom (x.base / 2 ^ 21) (x.size / 2 ^ 21)

/-- The content of a chunk on a tray, of the page in whose floor slot it lies; `read` gives the `len` bytes of a chunk at a fabric address. -/
def State.chunkAs (s : State) (len : Nat) (read : Nat → List Byte) (t c : Nat) : List Byte := (s.pool.exts.findSome? (fun e =>
  if e.2.st = .free then none
  else e.2.pages.findSome? (fun p => ((s.floorSlots e.2 p).find? (fun y => (y.1.pageChunks y.2).contains (t, c))).map (fun y =>
      y.1.chunkBytes y.2 len (fun o => read (p * 2 ^ 21 + o)) t c)))).getD []

/-- The data of a chunk. -/
def State.chunkBytes (s : State) (t c : Nat) : List Byte := s.chunkAs 65536 (fun a => s.memBytes a 65536) t c

/-- A chunk as its tray stores it: 16 blocks of ciphertext, each with its MAC words (R475, R477). -/
def State.storedChunk (s : State) (t c : Nat) : List Byte := s.chunkAs 67584 (fun a => s.stored a 16) t c

/-- DATA_CRC of a record: CRC-64 over the data of its chunks (R144).
[Marks: DEDUCED, log entry 35.] -/
def State.dataCrc (s : State) (t : Nat) (r : JRec) : Nat := crc64 ((List.range r.n).flatMap (fun i => s.chunkBytes t (r.chunk + i)))

/-! ### Zones (R142, R143) -/

/-- A flash tray. -/
def State.flash (s : State) (t : Nat) : Flash := SMap.get {} s.pool.flash t
/-- A zone. -/
def Flash.zone (f : Flash) (z : Nat) : Zone := SMap.get {} f.zn z
/-- A zone set. -/
def Flash.setZone (f : Flash) (z : Nat) (x : Zone) : Flash := { f with zn := SMap.set {} f.zn z x }
/-- Chunks that a data or GC zone stores: all but its summary (R143). -/
def Flash.room (f : Flash) : Nat := f.cz - cdiv f.cz 16384
/-- Blocks of 4 KiB of a zone. -/
def Flash.blocksOf (f : Flash) : Nat := f.cz * 16
/-- Free zones. -/
def Flash.free (f : Flash) : Nat := f.zones - f.zn.length
/-- Retired zones. -/
def Flash.retired (f : Flash) : Nat := f.zn.countP (fun e => decide (e.2.role = .retired))

/-- The free zone of least number takes a role. -/
def Flash.take (f : Flash) (role : ZoneRole) : Option (Nat × Flash) :=
  let z := SMap.freshFrom 0 f.zn
  if z < f.zones then some (z, f.setZone z { role := role }) else none

/-- The valid chunks of a zone with their offsets: those whose summary entry names a chunk that the map places there (R149). -/
def Flash.valid (f : Flash) (z : Nat) : List (Nat × Nat) :=
  (f.zone z).sum.zipIdx.filterMap (fun e => if e.1 ≠ 0 ∧ SMap.get 0 f.map (e.1 - 1) = z * 65536 + e.2 + 1 then some (e.1 - 1, e.2) else none)

/-- Whether a committed map entry names a chunk in a zone (R151). -/
def Flash.named (f : Flash) (z : Nat) : Bool := f.map.any (fun e => decide ((e.2 - 1) / 65536 = z))

/-- The summary of a zone as its records give it (R155 step 7). -/
def Flash.summary (f : Flash) (z n : Nat) : List Nat :=
  (List.range n).map (fun o => match f.map.find? (fun e => decide (e.2 = z * 65536 + o + 1)) with | some e => e.1 + 1 | none => 0)

/-- A chunk appended to the open data zone, a full zone being finished and a new one opened (R143, R148): the placements (chunk, zone, offset) so far, and the
zones opened. -/
def Flash.put1 (a : Flash × List (Nat × Nat × Nat) × List Nat) (c : Nat) : Flash × List (Nat × Nat × Nat) × List Nat :=
  let f := a.1
  let opened : Option (Nat × Flash × List Nat) := match f.data with
    | some z => some (z, f, a.2.2)
    | none => (f.take .data).map (fun p => (p.1, { p.2 with data := some p.1 }, a.2.2 ++ [p.1]))
  match opened with
  | none => a
  | some (z, g, zs) =>
    let o := (g.zone z).wp
    let done := decide (g.room ≤ o + 1)
    let h := g.setZone z { g.zone z with wp := if done then g.cz else o + 1, full := done, sum := (g.zone z).sum ++ [c + 1] }
    (if done then { h with data := none } else h, a.2.1 ++ [(c, z, o)], zs)

/-- Chunks appended to data zones. -/
def Flash.put (f : Flash) (cs : List Nat) : Flash × List (Nat × Nat × Nat) × List Nat := cs.foldl Flash.put1 (f, [], [])

/-! ### The journal (R144 to R146) -/

/-- Tray commands: 0 read, 1 append, 2 reset of a zone, 3 copy between zones, 4 rebuild, 5 zero fill, 6 Report Zones, 7 key header. -/
def trayRead : Nat := 0
/-- Zone Append. -/
def trayAppend : Nat := 1
/-- Zone Reset. -/
def trayReset : Nat := 2
/-- Copy by the near-pool units. -/
def trayCopy : Nat := 3
/-- Rebuild onto a tray. -/
def trayRebuild : Nat := 4
/-- A zero fill by the near-pool units (R107): set, first slot and number of slots. -/
def trayZero : Nat := 5
/-- Report Zones (R155). -/
def trayReport : Nat := 6
/-- A partition's key epoch recorded in the tray's key header (R473). -/
def trayKey : Nat := 7

/-- A record without its check value as stored, least significant byte first (R144). -/
def JRec.head (r : JRec) : List Byte :=
  leBytes 1 r.typ ++ leBytes 1 (b2n r.last) ++ leBytes 2 r.n ++ leBytes 4 r.chunk ++ leBytes 8 r.jseq ++ leBytes 8 r.time ++ leBytes 4 (r.oldZone % 2 ^ 24) ++
  leBytes 2 r.oldOff ++ leBytes 2 r.newOff ++ leBytes 4 (r.newZone % 2 ^ 24) ++ leBytes 4 0 ++ leBytes 8 r.arg ++ leBytes 8 r.crc

/-- The 64 bytes of a record, with its REC_CRC.
[Marks: DEDUCED, log entry 35.] -/
def JRec.bytes (r : JRec) : List Byte := r.head ++ leBytes 8 (crc64 r.head)

/-- A record as replay reads it: none where its REC_CRC fails or its type is reserved (R144). -/
def JRec.parse (bs : List Byte) : Option JRec :=
  if leAt bs 56 8 ≠ crc64 (bs.take 56) ∨ leAt bs 0 1 = 0 ∨ 9 < leAt bs 0 1 then none
  else some { typ := leAt bs 0 1, last := bit (leAt bs 1 1) 0, n := leAt bs 2 2, chunk := leAt bs 4 4, jseq := leAt bs 8 8, time := leAt bs 16 8
              oldZone := leAt bs 24 3, oldOff := leAt bs 28 2, newOff := leAt bs 30 2, newZone := leAt bs 32 3, arg := leAt bs 40 8, crc := leAt bs 48 8 }

/-- A record joined to the run before it, newest first, where it continues it: at most 4,096 chunks (R144). -/
def joinRun (r : JRec) : List JRec → List JRec
  | [] => [r]
  | q :: rs =>
    if r.chunk = q.chunk + q.n ∧ r.newZone = q.newZone ∧ r.newOff = q.newOff + q.n ∧ q.n < 4096 ∧
        (r.typ = 1 ∨ (r.oldZone = q.oldZone ∧ r.oldOff = q.oldOff + q.n)) then { q with n := q.n + 1 } :: rs
    else r :: q :: rs

/-- Records joined into runs. -/
def runs (l : List JRec) : List JRec := (l.foldl (fun a r => joinRun r a) []).reverse

/-- ZONE_OPEN of a zone for a role: 0 data, 1 GC destination, 2 journal, 3 map, 4 checkpoint. -/
def recOpen (z role : Nat) : JRec := { typ := 3, newZone := z, arg := role }

/-- The records of a group numbered, stamped and ended with LAST. -/
def numberRecs (seq time : Nat) (l : List JRec) : List JRec :=
  l.zipIdx.map (fun e => { e.1 with jseq := (seq + e.2 + 1) % 2 ^ 64, time := time, last := decide (e.2 + 1 = l.length) })

/-- The next append of the journal goes out when none is in flight (R145): up to 64 records of the first group with appends left, after the recovery of the tray. -/
def journalIssue (t : Nat) : Prog := rd fun s =>
  if (s.flash t).recovering then .skip
  else match (s.flash t).groups.find? (fun g => decide (0 < g.left)), (s.flash t).jz with
  | some g, some z => send (.tray t trayAppend [z, g.recs.length]
      (s.sealMeta t z ((s.flash t).zone z).wp (((g.recs.drop (64 * (cdiv g.recs.length 64 - g.left))).take 64).flatMap JRec.bytes)))
  | _, _ => .skip

/-- A group is put at the end of the journal of a tray and sent to the partner (R145, R146); a journal zone that is full is followed by another.
[Marks: DEDUCED, log entry 35.] -/
def journal (t : Nat) (recs : List JRec) (act : JAct) : Prog := rd fun s =>
  let f := s.flash t
  let open? : Bool := match f.jz with | none => true | some z => decide (f.blocksOf ≤ (f.zone z).wp + (f.groups.map (·.left)).sum)
  let fr : Flash × List JRec :=
    if open? then
      match f.take .journal with
      | none => (f, recs)
      | some (z, g) => ({ g with jz := some z }, recOpen z 2 :: recs)
    else (f, recs)
  let g := fr.1
  let rs := numberRecs g.jseq (s.timeOf srcFelt) fr.2
  let idle := !g.groups.any (fun x => decide (0 < x.left))
  .all [
    .eff (.flash t { g with jseq := (g.jseq + rs.length) % 2 ^ 64, groups := g.groups ++ [{ recs := rs, left := cdiv rs.length 64, act := act }] }),
    flashChange t,
    Prog.when idle (journalIssue t)]

/-! ### The map and its cache (R140, R141) -/

/-- Map pages that the cache holds. -/
def State.mapPages (s : State) : Nat := s.r F.TIER_FLASH_CACHE.CACHE_MIB [] * 256

/-- A map page is used, or written: it becomes the most recent, and beyond the capacity the least recent clean page leaves (R141). -/
def mapTouch (t m : Nat) (dirty : Bool) : Prog := rd fun s =>
  let d := if dirty ∧ ¬ s.pool.mapDirty.contains (t, m) then (t, m) :: s.pool.mapDirty else s.pool.mapDirty
  let c := (t, m) :: s.pool.mapCache.filter (fun e => decide (e ≠ (t, m)))
  let c' := if s.mapPages < c.length then
      match c.reverse.find? (fun e => !d.contains e) with
      | some v => c.filter (fun e => decide (e ≠ v))
      | none => c
    else c
  .eff (.mapPages c' d)

/-- The map pages that reads of ranges on cold floors need (R141). -/
def State.mapNeeds (s : State) (rs : List (Ext × Nat × Nat)) : List (Nat × Nat) :=
  (rs.flatMap (fun r =>
    if s.coldFloor r.1 ∧ 0 < r.2.2 then
      (rangeFrom (r.2.1 / 65536) ((r.2.1 + r.2.2 - 1) / 65536 + 1 - r.2.1 / 65536)).filterMap (fun k =>
        let p := k * 65536 / 2 ^ 21
        if (s.page p).place = .floor then
          match s.floorSlots r.1 p with
          | (y, slot) :: _ =>
            let c := y.chunkAt slot (k * 65536 % 2 ^ 21)
            some (c.1, c.2 / 512)
          | [] => none
        else none)
    else [])).eraseDups

/-- Those that the cache does not hold. -/
def State.mapMisses (s : State) (rs : List (Ext × Nat × Nat)) : List (Nat × Nat) := (s.mapNeeds rs).filter (fun m => !s.pool.mapCache.contains m)

/-- Reads use the map pages that they need (R141). -/
def mapUse (rs : List (Ext × Nat × Nat)) : Prog := rd fun s => Prog.each (s.mapNeeds rs) (fun m => mapTouch m.1 m.2 false)

/-- Reads of map pages go out (R141).
[Marks: DEDUCED, log entry 35.] -/
def mapFetch (ms : List (Nat × Nat)) : Prog := Prog.each ms fun m => rd fun s =>
  let f := s.flash m.1
  if f.reads.contains m.2 then .skip else .all [.eff (.flash m.1 { f with reads := m.2 :: f.reads }), send (.tray m.1 trayRead [m.2])]

/-- The map entries that a record changes (R144). -/
def JRec.applyMap (r : JRec) (m : SMap Nat) : SMap Nat :=
  let new (i : Nat) : Nat := r.newZone * 65536 + (r.newOff + i) + 1
  let old (i : Nat) : Nat := r.oldZone * 65536 + (r.oldOff + i) + 1
  if r.typ = 1 then (List.range r.n).foldl (fun m i => SMap.set 0 m (r.chunk + i) (new i)) m
  else if r.typ = 2 then
    (List.range r.n).foldl (fun m i => if SMap.get 0 m (r.chunk + i) = old i then SMap.set 0 m (r.chunk + i) (new i) else m) m
  else m

/-- Map pages that records change. -/
def mapPagesOf (rs : List JRec) : List Nat :=
  (rs.flatMap (fun r => if r.typ = 1 ∨ r.typ = 2 then
    rangeFrom (r.chunk / 512) ((r.chunk + r.n - 1) / 512 + 1 - r.chunk / 512) else [])).eraseDups

/-- The locations of map pages that records give (MAPPAGE_LOC). -/
def JRec.applyLoc (r : JRec) (m : SMap Nat) : SMap Nat :=
  if r.typ = 8 then SMap.set 0 m (r.arg % 2 ^ 32) (r.newZone * 2 ^ 32 + r.arg / 2 ^ 32 + 1) else m

/-! ### Space and collection (R149, R150, R157, R159) -/

/-- A collection or an evacuation of a zone starts: a free zone becomes the destination (R150 step 1). Without a free zone it does not start, and an evacuation stays
due. -/
def gcStart (t z : Nat) (evac : Bool) (tries : Nat) : Prog := rd fun s =>
  match (s.flash t).take .gc with
  | none => .eff (.flash t { s.flash t with gc := none })
  | some (d, f) => .all [
      .eff (.flash t { f with gc := some { src := z, dst := d, evac := evac, tries := tries }, evac := f.evac.filter (fun y => decide (y ≠ z)) }),
      journal t [recOpen d 1] .none, send (.tray t trayCopy [z, d])]

/-- The zones of a tray to which chunks are appended whose map change is not yet committed: a collection would miss them (R151).
[Marks: DESIGN CHOICE, log entry 59.] -/
def State.zonesBusy (s : State) (t : Nat) : List Nat :=
  (s.flash t).groups.flatMap (fun g => (g.recs.filter (fun r => decide (r.typ = 1 ∨ r.typ = 2))).map (·.newZone)) ++
  s.pool.migs.flatMap (fun e => match e.2 with | none => [] | some m => (m.locs.filter (fun l => decide (l.1 = t))).map (fun l => l.2.2.1))

/-- The full data or GC zone with the fewest valid chunks (R149).
[Marks: DESIGN CHOICE, log entry 59.] -/
def Flash.victim (f : Flash) (busy : List Nat) : Option Nat :=
  f.zn.foldl (fun (b : Option Nat) e =>
    if (e.2.role = .data ∨ e.2.role = .gc) ∧ e.2.full ∧ ¬ f.gaveUp.contains e.1 ∧ ¬ busy.contains e.1 then
      (match b with
      | none => some e.1
      | some z => if (f.valid e.1).length < (f.valid z).length then some e.1 else b)
    else b) none

/-- Evacuation of a retired zone starts first; collection starts below FREE_LOW free zones and goes on until FREE_HIGH (R149, R157). -/
def gcCheck (t : Nat) : Prog := rd fun s =>
  let f := s.flash t
  let low := s.r F.TIER_FLASH_CTRL.FREE_LOW []
  let high := max low (s.r F.TIER_FLASH_CTRL.FREE_HIGH [])
  let on := decide (f.free < low) || (f.collecting && decide (f.free < high))
  if f.gc.isSome ∨ f.recovering then .skip
  else match f.evac.find? (fun z => !(f.valid z).isEmpty) with
    | some z => gcStart t z true 0
    | none => .all [.eff (.flash t { f with evac := [], collecting := on && s.rb F.TIER_FLASH_CTRL.GC_EN [] }),
        Prog.when (on && s.rb F.TIER_FLASH_CTRL.GC_EN []) (Prog.opt (f.victim (s.zonesBusy t)) (fun z => gcStart t z false 0))]

/-- Chunks of floor slots reserved on a tray.
[Marks: DEDUCED, log entry 35.] -/
def State.reservedChunks (s : State) (t : Nat) : Nat :=
  (s.pool.sets.map (fun e => match e.2 with
    | none => 0
    | some y => if y.trays.contains t then cdiv (s.setReserved e.1 * 32) (if y.mode = 1 then y.trays.length - 1 else y.trays.length) else 0)).sum

/-- Space of a tray in chunks: its free zones and the space of its data zones that holds no valid chunk (R159).
[Marks: DESIGN CHOICE, log entry 59.] -/
def Flash.space (f : Flash) : Nat :=
  f.free * f.room + (f.zn.map (fun e => if e.2.role = .data then f.room - (f.valid e.1).length else 0)).sum

/-- A tray whose free zones and reclaimable space fall below the chunks of the floor slots reserved on it is low on space (R159).
[Marks: DESIGN CHOICE, log entry 11; DESIGN CHOICE, log entry 59.] -/
def lowCheck (t : Nat) : Prog := rd fun s =>
  let f := s.flash t
  Prog.when (!f.low && decide (0 < f.zones) && decide (f.space < s.reservedChunks t)) (.all [
    .eff (.flash t { f with low := true }), log { src := srcFelt, cause := 0x374, sev := 1, obj0 := t }])

/-! ### Commit (R145, R146, R148, R150) -/

/-- The map groups of a demotion on a tray (R148 step 3). -/
def demotionGroup (p t : Nat) (locs : List (Nat × Nat × Nat × Nat)) : Prog := rd fun s =>
  let rs := runs ((locs.filter (fun e => decide (e.1 = t))).map (fun e =>
    { typ := 1, n := 1, chunk := e.2.1, newZone := e.2.2.1, newOff := e.2.2.2 }))
  journal t (rs.map (fun r => { r with crc := s.dataCrc t r })) (.page p)

/-- A demotion to the floor is complete: the descriptor names the floor slot and the source is free (R128 step 6, R148 steps 4 and 5). -/
def demoted (p : Nat) : Prog := rd fun s =>
  let y := s.page p
  .all [.eff (.mig p none), .eff (.page p { y with st := if y.st = .migrating then .valid else y.st, place := .floor, floorValid := false }),
    count F.TIER_DEMOTE_COUNT.COUNT [], pageChange p]

/-- A group of a demotion is committed on a tray: the last tray's group follows when every other's is, and then the demotion is complete (R148). -/
def demotionCommitted (p t : Nat) : Prog := rd fun s =>
  match SMap.get none s.pool.migs p with
  | none => .skip
  | some m =>
    let rest := m.trays.filter (fun u => decide (u ≠ t))
    if ¬ m.cold ∨ ¬ m.trays.contains t then .skip
    else match rest with
      | [] => demoted p
      | [u] => .all [.eff (.mig p (some { m with trays := rest })), demotionGroup p u m.locs]
      | _ => .eff (.mig p (some { m with trays := rest }))

/-- A zone that is free again: one that has retired meanwhile stays retired (R157). -/
def Flash.release (f : Flash) (z : Nat) : Flash := if (f.zone z).role = .retired then f else f.setZone z {}

/-- The role of a zone as its number in the zone table, in the order of R142. -/
def ZoneRole.num : ZoneRole → Nat
  | .root => 0 | .journal => 1 | .map => 2 | .ckpt => 3 | .data => 4 | .gc => 5 | .free => 6 | .retired => 7 | .dropped => 8

/-- The map-page location table and the zone table of a checkpoint (R147). -/
def Flash.tables (f : Flash) : List Nat :=
  f.loc.flatMap (fun e => [e.1, e.2]) ++ f.zn.flatMap (fun e => [e.1, e.2.role.num, b2n e.2.full + 2 * b2n e.2.offline, (f.valid e.1).length])

/-- What a committed group brings about: a zone is reset only where no committed map entry names a chunk in it (R151).
[Marks: DEDUCED, log entry 35.] -/
def groupDone (t : Nat) (act : JAct) : Prog := match act with
  | .none => .skip
  | .page p => demotionCommitted p t
  | .gc src dst => rd fun s => match (s.flash t).gc with
    | none => .skip
    | some g =>
      if g.src ≠ src ∨ g.dst ≠ dst ∨ g.stage ≠ .commit then .skip
      else if g.evac ∨ (s.flash t).named src then .all [.eff (.flash t { s.flash t with gc := none, gaveUp := [] }), gcCheck t]
      else .all [.eff (.flash t { s.flash t with gc := some { g with stage := .reset } }), send (.tray t trayReset [g.src])]
  | .free z => rd fun s =>
    let f := (s.flash t).release z
    match f.gc with
    | some g => if g.stage = .reset ∧ g.src = z then
        .all [.eff (.flash t { f with gc := none, gaveUp := [] }), count F.TIER_FLASH_GC_COUNT.COUNT [], gcCheck t]
      else .eff (.flash t f)
    | none => .eff (.flash t f)
  | .ckpt => rd fun s => Prog.opt (s.flash t).ckpt (fun c => .all [
      send (.tray t trayAppend (c.zone :: (s.flash t).tables)), journal t [{ typ := 9, newZone := c.zone, arg := c.start }] .ckptEnd])
  | .ckptEnd => rd fun s => Prog.opt (s.flash t).ckpt (fun c => .eff (.flash t { s.flash t with ckpt := some { c with ended := true } }))

/-- The map after a list of records. -/
def mapAfter (m : SMap Nat) (rs : List JRec) : SMap Nat := rs.foldl (fun m r => r.applyMap m) m

/-- Groups commit in order: each whose LAST record is durable, and that the partner has acknowledged or has had 100 µs for (R145, R146). The first argument
bounds the groups.
[Marks: DEDUCED, log entry 35.] -/
def journalCommit : Nat → Nat → Prog
  | 0, _ => .skip
  | k + 1, t => rd fun s =>
    let f := s.flash t
    match f.groups with
    | [] => .skip
    | g :: gs =>
      if g.left = 0 ∧ (g.acked ∨ g.alone) then .all [
        .eff (.flash t { f with
          groups := gs, owed := if g.acked then f.owed else f.owed ++ [g.recs]
          map := mapAfter f.map g.recs, loc := g.recs.foldl (fun m r => r.applyLoc m) f.loc }),
        Prog.each (mapPagesOf g.recs) (fun m => mapTouch t m true),
        groupDone t g.act, journalCommit k t]
      else .skip

/-- Groups await the partner's acknowledgment beyond their time (JOURNAL_UNMIRRORED, R146). -/
def Flash.unmirrored (f : Flash) : Bool := !f.owed.isEmpty || f.groups.any (fun g => g.alone && !g.acked)

/-! ### Checkpoints (R147) -/

/-- A dirty map page written back to the open map zone: the records so far. -/
def Flash.writeBack (a : Flash × List JRec) (m : Nat) : Flash × List JRec :=
  let f := a.1
  let z? : Option (Nat × Flash × List JRec) :=
    let fresh := (f.take .map).map (fun p => (p.1, { p.2 with mz := some p.1 }, a.2 ++ [recOpen p.1 3]))
    match f.mz with
    | some z => if (f.zone z).wp < f.blocksOf then some (z, f, a.2) else fresh
    | none => fresh
  match z? with
  | none => a
  | some (z, g, rs) =>
    let o := (g.zone z).wp
    (g.setZone z { g.zone z with wp := o + 1 }, rs ++ [{ typ := 8, newZone := z, arg := m % 2 ^ 32 + o * 2 ^ 32 }])

/-- A checkpoint starts: every dirty map page is written back, recorded with MAPPAGE_LOC (R147). -/
def ckptStart (t : Nat) : Prog := rd fun s =>
  let f := s.flash t
  let mine := (s.pool.mapDirty.filter (fun e => decide (e.1 = t))).map (·.2)
  match f.take .ckpt with
    | none => .skip
    | some (z, g) =>
      let w := mine.foldl Flash.writeBack (g, [])
      .all [.eff (.flash t { w.1 with ckpt := some { start := (f.jseq + 1) % 2 ^ 64, zone := z, blocks := f.blocks } }),
        .eff (.mapPages s.pool.mapCache (s.pool.mapDirty.filter (fun e => decide (e.1 ≠ t)))),
        journal t (recOpen z 4 :: w.2) .ckpt]

/-- A checkpoint starts when the journal since the last one reaches CKPT_MIB or dirty map pages reach DIRTY_FRAC of the cache (R147). -/
def ckptCheck (t : Nat) : Prog := rd fun s =>
  let f := s.flash t
  let due := decide (s.r F.TIER_FLASH_JOURNAL.CKPT_MIB [] * 2 ^ 20 ≤ f.blocks * 4096) ||
    (s.pool.mapDirty.any (fun e => decide (e.1 = t)) && decide (s.r F.TIER_FLASH_JOURNAL.DIRTY_FRAC [] * s.mapPages ≤ 256 * s.pool.mapDirty.length))
  if ¬ due ∨ f.ckpt.isSome ∨ f.recovering then .skip else ckptStart t

/-- Groups that can commit do, and a checkpoint that is due starts. -/
def journalSweep (t : Nat) : Prog := rd fun s =>
  if (s.flash t).recovering then .skip else .seq (journalCommit ((s.flash t).groups.length + 1) t) (ckptCheck t)

/-! ### Recovery (R154 to R156) -/

/-- A flash tray as a switch reset leaves it: what the tray itself holds. Groups whose LAST record is not on the tray are discarded, the zone of an unfinished checkpoint
waits for its reset, and zones that have retired are evacuated again. -/
def Flash.restart (f : Flash) : Flash :=
  let g := match f.ckpt with
    | none => f
    | some c => f.setZone c.zone { f.zone c.zone with role := .dropped }
  { g with
    groups := f.groups.takeWhile (fun x => decide (x.left = 0)), ckpt := none, reads := [], collecting := false, gaveUp := [], recovering := true
    evac := (f.zn.filter (fun e => decide (e.2.role = .retired) && !e.2.offline && !(f.valid e.1).isEmpty)).map (·.1) }

/-- Whether replay reads a group whole: each record's check value and type are good, and none is the one at which the read stops. -/
def JGroup.reads (g : JGroup) (bad : Option Nat) : Bool := g.recs.all (fun r => decide (some r.jseq ≠ bad) && (JRec.parse r.bytes).isSome)

/-- The groups that recovery applies: of the tray's journal up to the first that fails; where it fails before the committed end, or the partner's copy is taken, those the
partner has acknowledged (R155 step 4, R156). -/
def Flash.replayed (f : Flash) (src : MapSource) : List JGroup × Bool :=
  let durable := f.groups.takeWhile (fun g => decide (g.left = 0))
  let first := match f.groups.head?.bind (fun g => g.recs.head?) with | some r => r.jseq | none => f.jseq + 1
  let own (bad : Option Nat) : List JGroup × Bool := match bad with
    | some j => if j < first then (durable.filter (·.acked), true) else (durable.takeWhile (fun g => g.reads bad), false)
    | none => (durable.takeWhile (fun g => g.reads none), false)
  match src with
  | .tray bad => own bad
  | _ => (durable.filter (·.acked), true)

/-- The tray after replay and steps 5 to 7: the map of its journal, or of the partner's; the source of a committed collection or the destination of one that is not waits for
its reset; and the summaries of open data zones. -/
def Flash.recover (f : Flash) (src : MapSource) : Flash :=
  let p := f.replayed src
  let g : Flash := p.1.foldl (fun (g : Flash) x =>
    let h : Flash := { g with map := if p.2 then f.par else mapAfter g.map x.recs, loc := x.recs.foldl (fun m r => r.applyLoc m) g.loc }
    match x.act with
    | .free z => h.release z
    | _ => h) { f with map := if p.2 then f.par else f.map }
  let drop (g : Flash) (z : Nat) : Flash := if (g.zone z).role = .retired then g else g.setZone z { g.zone z with role := .dropped }
  let h : Flash := match f.gc with
    | none => g
    | some c =>
      if c.stage = .reset ∨ p.1.any (fun x => decide (x.act = .gc c.src c.dst)) then (if c.evac ∨ g.named c.src then g else drop g c.src) else drop g c.dst
  let k : Flash := { h with
    groups := f.groups.drop (f.groups.takeWhile (fun g => decide (g.left = 0))).length
    owed := if p.2 then [] else f.owed ++ (p.1.filter (fun g => !g.acked)).map (·.recs), gc := none, recovering := false }
  { k with zn := k.zn.map (fun e => if e.2.role = .data ∧ ¬ e.2.full then (e.1, { e.2 with sum := k.summary e.1 e.2.wp }) else e) }

/-- The recovery of a flash tray ends (R155): the map is replayed, zones that wait for their reset are reset, and a checkpoint is written.
[Marks: DESIGN CHOICE, log entry 59.] -/
def flashRecovered (t : Nat) (src : MapSource) : Prog := rd fun s =>
  let f := (s.flash t).recover src
  if ¬ (s.flash t).recovering then .skip
  else .all [
    .eff (.flash t f), Prog.each (f.zn.filter (fun e => decide (e.2.role = .dropped))) (fun e => send (.tray t trayReset [e.1])),
    ckptStart t, journalIssue t, gcCheck t]

end Sys2Proof.Machine
end

