-- ==== Sys2Proof/Machine/Mem.lean ====
section
/-! DEFINITION. The memory requests (R59 to R61, R76, R77, R130 to R132, R183 to R190): loads, stores, atomics, triggers, bulk transfers and near-pool
operations at the home, and the combine entries of the Fuller. -/
namespace Sys2Proof.Machine
open Sys2Proof

/-! ### The end of an access -/

/-- How an access at the home ended: status, the cause and objects of its record, and the data it returns. -/
structure Fin where
  status : Nat
  cause : Nat := 0
  obj0 : Nat := 0
  obj1 : Nat := 0
  data : List Byte := []
  deriving DecidableEq, Repr

/-- The request is answered as its access ended. -/
def finish (r : Nat) (f : Fin) : Prog := if f.status = stOk then respond r stOk f.data else refuse r f.status f.cause f.obj0 f.obj1

/-- A request waits. -/
def setWait (r : Nat) (w : Wait) : Prog := rd fun s =>
  match s.req r with
  | none => .skip
  | some q => .eff (.req r (some { q with wait := w }))

/-- A request waits for a page of its range.
[Marks: DESIGN CHOICE, log entry 37.] -/
def waitPage (r a : Nat) : Prog := setWait r (.page (a / 2 ^ 21))

/-! ### Reading -/

/-- The bytes read, with those of lines whose data the request took at its turn (R170). -/
def overlay (got : List (Nat × List Byte)) (a : Nat) (bs : List Byte) : List Byte :=
  bs.zipIdx.map (fun p => match got.find? (fun g => g.1 = (a + p.2) / 64) with
    | some g => g.2.getD ((a + p.2) % 64) p.1
    | none => p.1)

/-- The Brim die that sends the answer of a request: that of its connection or queue pair. -/
def Req.die (q : Req) : Option Nat := match q.src with | .conn c => some (connDie c) | .qp n => some (qpDie n) | _ => none

/-- The table tag of a CXL port, which lies in the rights class (R369).
[Marks: DESIGN CHOICE, log entry 8.] -/
def portTag (port : Nat) : Nat := Config.portTag port % 0xE000

/-- A queue pair. -/
def State.qp (s : State) (n : Nat) : Qp := SMap.get {} s.btp.qps n

/-- The tag under which a request is checked and the cause of a failed check; none for a request of another switch, which its home does not check by tag (R372). -/
def State.reqTag (s : State) (q : Req) : Option (Nat × Nat) :=
  let prog (c : Nat) : Nat × Nat := (s.r F.SPL_PART_ACCESS.CLEAT_TAG [ctxDie c, q.part], 0x505)
  match q.src with
  | .conn c => if (s.peerIdx c).isSome then none else some ((s.conn c).tag, 0x830)
  | .qp n => some ((s.qp n).tag, 0x840)
  | .ctx c _ => some (prog c)
  | .unit o => (match SMap.get none s.eng.ops o with
    | some p => if p.kind = .kernel then some (p.d, 0x830) else some (prog p.ctx)
    | none => none)
  | .agent n => some (portTag (s.agentPort n), 0x830)
  | .cxlPort p => some (portTag p, 0x830)
  | _ => none

/-- The base bytes of a logical range that decoding needs are read with the rights of the requester (R396): how the first read of them ends that is not served. -/
def State.baseEnd (s : State) (x : Ext) (q : Req) (o n : Nat) : Option (Nat × Nat) :=
  let h := s.codecHdr x
  if ¬ h.ok ∨ h.noBase then none
  else (rangeFrom (o / 65536) ((o + n - 1) / 65536 + 1 - o / 65536)).findSome? (fun b =>
    let lo := max o (65536 * b)
    let q' : Req := { q with op := 0x10, addr := h.base + lo, len := min (o + n) (65536 * b + 65536) - lo }
    if (s.codecEntry x b).1 ≠ 2 ∧ (s.codecEntry x b).1 ≠ 4 then none
    else match (match s.reqTag q with | some (t, c) => s.resolve q' t c | none => s.location q' 0) with
      | .refuse st c _ => some (st, c)
      | _ => none)

/-- The bytes of a read whose tier has answered: of memory, or decoded by a codec unit (R396, R404). -/
def readDone (e : Nat) (q : Req) (a n : Nat) (far : List Byte) (fin : Fin → Prog) : Prog := rd fun s =>
  let x := s.ext e
  if x.compressed then
    match s.codecDie q.die with
    | none => fin { status := stBusy }
    | some d =>
      let r := s.readBytes x a n far
      .all [codecCount d r, match r with
        | .ok bs => fin { status := stOk, data := bs }
        | .error k => fin { status := k.status, cause := k.cause, obj0 := e, obj1 := k.block * 64 + k.sub }]
  else fin { status := stOk, data := overlay q.got a (s.memBytes a n) }

/-- A read of n bytes at the home for a request, when its tier answers `t`; on a COHERENT extent the lines take their turn (R134, R135, R170). -/
def homeRead (r e a n : Nat) (t : TierRead) (far : List Byte) (fin : Fin → Prog) : Prog := rd fun s =>
  match s.req r with
  | none => .skip
  | some q =>
    let x := s.ext e
    let go := rd fun u =>
      let rs := u.readRanges x a n
      let ms := u.mapMisses rs
      if ¬ ms.isEmpty then .all [Prog.when (decide (q.wait = .none)) (count F.TIER_FLASH_MAP_MISS_COUNT.COUNT []), mapFetch ms, waitPage r a]
      else match (if x.compressed then u.baseEnd x q (a - x.base) n else none) with
      | some (st, c) => fin { status := st, cause := c, obj0 := e }
      | none => match u.readAccs t rs, u.req r with
      | .wait, _ => waitPage r a
      | .refuse st c o, _ => .all [tierNotes t rs, fin { status := st, cause := c, obj0 := o }]
      | .ok, some p => .all [tierNotes t rs, mapUse rs, Prog.each (rs.flatMap (fun y => pagesOf y.2.1 y.2.2)).eraseDups touchPage, readDone e p a n far fin]
      | .ok, none => .skip
    if x.coherent then loadLines r q (linesOf a n) go else go

/-! ### Writing -/

/-- The agent, or the port, whose data carried the poison indication. -/
def Req.poisoner (q : Req) : Nat := match q.src with | .agent n => n | .cxlPort p => p | _ => 0

/-- A write at the home for a request; on a COHERENT extent its lines are recalled first and held (R170, R172), and data with the poison indication poisons them (R181). -/
def homeStore (r e a : Nat) (bs : List Byte) (fin : Fin → Prog) : Prog := rd fun s =>
  match s.req r with
  | none => .skip
  | some q =>
    let x := s.ext e
    let go := rd fun u => match u.writeAcc x a bs.length false with
      | .wait => waitPage r a
      | .refuse st c o => fin { status := st, cause := c, obj0 := o }
      | .ok => .all [homeWrite x a bs, Prog.when q.poison (Prog.each (linesOf a bs.length) (fun l => poisonLine l 0x411 q.poisoner)), fin { status := stOk }]
    if x.coherent ∧ s.writeAcc x a bs.length false = .ok then storeLines r q (linesOf a bs.length) go else go

/-- A page that a float32 atomic needs in a hot frame first: one outside a COHERENT extent that lies elsewhere (R178). -/
def State.needsHot (s : State) (x : Ext) (p : Nat) : Bool :=
  !x.coherent && (match s.storedPage x p with
    | some y => (match y.place with | .hot _ _ => false | _ => true)
    | none => true)

/-- The page of a float32 atomic is promoted to a hot frame (R178). -/
def promoteNow (x : Ext) (p : Nat) : Prog := rd fun s =>
  match s.hotPlace (decide (x.prot ≠ 0)) with
  | none => .skip
  | some pl => .all [abortMig p, rd fun u => .eff (.page p { u.page p with place := pl, st := .valid, floorValid := false }), pageChange p]

/-- An atomic change of n bytes at the home, which returns their old value (R60, R178, R181: any poison of the line refuses it). -/
def homeModify (r e a n : Nat) (t : TierRead) (f : List Byte → List Byte) (fin : Fin → Prog) : Prog := rd fun s =>
  match s.req r with
  | none => .skip
  | some q =>
    let x := s.ext e
    let p := a / 2 ^ 21
    let hot (u : State) : Bool := decide (bits q.attr 24 2 = 2) && u.needsHot x p
    let acc (u : State) : Acc := match u.poisoned a n with
      | l :: _ => .refuse stPoison 0x413 l
      | [] => match (u.readAcc x a n t).asWrite with
        | .ok => if hot u then (if (u.hotPlace (decide (x.prot ≠ 0))).isNone then .wait else .ok) else u.writeAcc x a n false
        | y => y
    let go := rd fun u =>
      let ms := u.mapMisses [(x, a, n)]
      if ¬ ms.isEmpty then .all [Prog.when (decide (q.wait = .none)) (count F.TIER_FLASH_MAP_MISS_COUNT.COUNT []), mapFetch ms, waitPage r a]
      else match acc u with
      | .wait => waitPage r a
      | .refuse st c o => .all [tierNote x a n t, fin { status := st, cause := c, obj0 := o }]
      | .ok =>
        let old := u.memBytes a n
        .all [tierNote x a n t, mapUse [(x, a, n)], Prog.when (hot u) (promoteNow x p), homeWrite x a (f old), fin { status := stOk, data := old }]
    if x.coherent ∧ acc s = .ok then storeLines r q (linesOf a n) go else go

/-! ### Atomic operations (R60, R187) -/

/-- The value that an operation stores at a width: integer results modulo 2^(8 ASIZE), float32 by R60. `b` is the compare operand of CAS. -/
def atomApply (atop asize atype old a b : Nat) : Nat :=
  let w := 8 * asize
  let o := old % 2 ^ w
  let x := a % 2 ^ w
  match atop with
  | 0 => if atype = 2 then f32Add 0 o x else (o + x) % 2 ^ w
  | 1 =>
    if atype = 2 then fp32.enc 0 ((fp32.dec o).min (fp32.dec x))
    else if atype = 1 then (if sext w x < sext w o then x else o) else min o x
  | 2 =>
    if atype = 2 then fp32.enc 0 ((fp32.dec o).max (fp32.dec x))
    else if atype = 1 then (if sext w o < sext w x then x else o) else max o x
  | 3 => o &&& x
  | 4 => o ||| x
  | 5 => o ^^^ x
  | 6 => x
  | _ => if o = b % 2 ^ w then x else o

/-- The operation of an atomic request on an old value. -/
def Req.applyTo (q : Req) (old : Nat) : Nat := atomApply q.atop q.asize q.atype old q.opA q.opB

/-! ### The Fuller (R183 to R189) -/

/-- A combine entry. -/
def State.combAt (s : State) (e : Nat) : Option Comb := SMap.get none s.hitch.combs e

/-- A store of the request's own stream to its line is still open before it (R79). -/
def State.storeBefore (s : State) (r : Nat) (q : Req) : Bool :=
  match q.src.stream with
  | none => false
  | some st => (s.reqsWith (fun p => decide (p.src.stream = some st) && decide (p.op = 0x11 ∨ p.op = 0x15) &&
      decide (p.addr / 64 ≤ q.addr / 64) && decide (q.addr / 64 ≤ (p.addr + p.len - 1) / 64))).any (fun e => e.1 < r)

/-- A request is eligible for combining (R79, R184).
[Marks: DESIGN CHOICE, log entry 38.] -/
def State.combinable (s : State) (r : Nat) (q : Req) : Bool :=
  s.rb F.FULL_CTRL.FULL_EN [] && !q.noComb && decide (s.ordOf q ≠ 2) &&
  (if q.op = 0x10 then decide (q.addr / 64 = (q.addr + q.len - 1) / 64) && !(decide (q.ord = 1) && s.storeBefore r q)
   else decide (q.op = 0x12) && decide (q.atop ≤ 5) &&
     (decide (q.atype ≤ 1) || decide (q.atop = 1 ∨ q.atop = 2) || s.rb F.FULL_CTRL.FADD_COMB []))

/-- The line by which an entry is known: of fabric addresses at the home, of hall addresses at a forwarding switch. -/
def Req.combLine (q : Req) (fwd : Bool) : Nat := if fwd then q.addr / 64 else q.addr % 2 ^ 52 / 64

/-- Operation, width and type of an atomic request that its entry shares. -/
def Req.combOp (q : Req) : Option (Nat × Nat × Nat) := if q.op = 0x12 then some (q.atop, q.asize, q.atype) else none

/-- The entry that a request may join (R184, R185, R189). -/
def State.combFor (s : State) (q : Req) (fwd : Bool) : Option Nat :=
  (s.hitch.combs.find? (fun e => match e.2 with
    | none => false
    | some x =>
      decide (x.line = q.combLine fwd) && decide (x.part = q.part) && !x.closed && decide (x.forward = fwd) && decide (x.atomic = q.combOp) &&
      decide (x.parts.length < s.r F.FULL_CTRL.MAX_FANOUT []) && !(x.sent && (fwd || x.atomic.isSome)) &&
      (!(fwd && x.atomic.isSome) || (match x.parts.head?.bind s.req with | some p => decide (p.addr = q.addr) | none => false)))).map (·.1)

/-- An entry is free for a partition: within its quota and the 4,096 of the Fuller (R183, R186). -/
def State.combRoom (s : State) (p : Nat) : Bool :=
  decide (s.hitch.combs.countP (fun e => match e.2 with | some x => decide (x.part = p) | none => false) <
    min (s.r F.FULL_QUOTA.MAX_ENTRIES [p]) 4096) && decide (s.hitch.combs.length < 4096)

/-- The first participant of an entry whose request is still open; it stands for the merged request. -/
def State.leader (s : State) (x : Comb) : Option Nat := x.parts.find? (fun r => (s.req r).isSome)

/-- The entry without a reply that a request leads.
[Marks: DESIGN CHOICE, log entry 38.] -/
def State.leads (s : State) (r : Nat) : Option (Nat × Comb) :=
  s.hitch.combs.findSome? (fun e => match e.2 with
    | some x => if s.leader x = some r ∧ x.reply.isNone ∧ ¬ x.forward then some (e.1, x) else none
    | none => none)

/-- A request joins an entry (R185).
[Marks: DESIGN CHOICE, log entry 38.] -/
def combJoin (e r : Nat) : Prog := rd fun s =>
  match s.combAt e with
  | none => .skip
  | some x => .all [.eff (.comb e (some { x with parts := x.parts ++ [r] })), count F.FULL_MERGED_COUNT.COUNT [], setWait r (.merged e)]

/-- A request opens an entry; `k` goes on with its number.
[Marks: DESIGN CHOICE, log entry 38.] -/
def combOpen (r : Nat) (q : Req) (fwd sent : Bool) (k : Nat → Prog) : Prog := fresh fun e => .all [
  .eff (.comb e (some { line := q.combLine fwd, part := q.part, atomic := q.combOp, parts := [r], forward := fwd, sent := sent })),
  setWait r (.merged e), k e]

/-- The reply of the merged request of an entry. -/
def combReply (e : Nat) (f : Fin) : Prog := rd fun s =>
  match s.combAt e with
  | none => .skip
  | some x => .all [
      Prog.when (decide (f.status ≠ stOk) && decide (f.cause ≠ 0))
        (log { src := srcFelt, cause := f.cause, sev := 2, status := f.status, part := some x.part, obj0 := f.obj0, obj1 := f.obj1 }),
      .eff (.comb e (some { x with status := f.status, reply := some f.data }))]

/-- The merged load of an entry is performed at the home: the whole line (R185). -/
def combLoad (e r : Nat) (t : TierRead) (far : List Byte) : Prog := rd fun s =>
  match s.req r, s.combAt e with
  | some q, some x => Prog.opt q.ext (fun n => homeRead r n (x.line * 64) 64 t far (combReply e))
  | _, _ => .skip

/-- The participants of an entry, in order of arrival. -/
def State.combReqs (s : State) (x : Comb) : List (Nat × Req) := x.parts.filterMap (fun r => (s.req r).map (fun q => (r, q)))

/-- The combined operand of the participants on one word (R187). -/
def combOperand (qs : List Req) (word : Nat) : Option Nat :=
  match qs.filter (fun q => q.addr % 64 = word) with
  | [] => none
  | q :: rest => some (rest.foldl (fun c p => atomApply q.atop q.asize q.atype c p.opA 0) (q.opA % 2 ^ (8 * q.asize)))

/-- The line after the merged atomic of its participants (R187). -/
def combApply (qs : List Req) (line : List Byte) : List Byte :=
  ((qs.map (fun q => (q.addr % 64, q))).foldl (fun (acc : List Byte × List Nat) p =>
    if acc.2.contains p.1 then acc
    else match combOperand qs p.1 with
      | none => acc
      | some c =>
        let q := p.2
        let new := leBytes q.asize (atomApply q.atop q.asize q.atype (leAt line p.1 q.asize) c 0)
        (acc.1.take p.1 ++ new ++ acc.1.drop (p.1 + q.asize), p.1 :: acc.2)) (line, [])).1

/-- The merged atomic of an entry is performed at the home (R187). -/
def combAtomic (e r : Nat) (t : TierRead) : Prog := rd fun s =>
  match s.req r, s.combAt e with
  | some q, some x => Prog.opt q.ext (fun n => homeModify r n (x.line * 64) 64 t (combApply (x.ops.map (·.2))) (combReply e))
  | _, _ => .skip

/-- The values that the participants of an atomic entry would have seen one after another (R187): `word` reads the old value. -/
def serialValues (word : Req → Nat) (qs : List (Nat × Req)) : List (Nat × Nat) :=
  (qs.foldl (fun (acc : List (Nat × Nat) × List (Nat × Nat)) p =>
    let key := p.2.addr % 64
    let v := match acc.2.find? (fun k => k.1 = key) with | some k => k.2 | none => word p.2
    (acc.1 ++ [(p.1, v)], (key, atomApply p.2.atop p.2.asize p.2.atype v p.2.opA 0) :: acc.2)) ([], [])).1

/-- FULLER_MERGED_RESPONSE (R187, R188): the response of a merged request fans out: each participant still open gets its own bytes, or its serial value among all those
whose operands were sent.
[Marks: DESIGN CHOICE, log entry 38.] -/
def execFullerMergedResponse (e : Nat) (s : State) : Host.Outcome State Fault Refusal := run s <|
  match s.combAt e with
  | none => .skip
  | some x => match x.reply with
    | none => .skip
    | some d =>
      let ps := s.combReqs x
      .all [.eff (.comb e none),
        if x.status ≠ stOk then Prog.each ps (fun p => respond p.1 x.status [])
        else if x.atomic.isNone then Prog.each ps (fun p => respond p.1 stOk ((d.drop (p.2.addr % 64)).take p.2.len))
        else
          let vs := serialValues (fun q => if x.forward then ofLe d else leAt d (q.addr % 64) q.asize) x.ops
          Prog.each ps (fun p => respond p.1 stOk (leBytes p.2.asize ((vs.find? (fun v => v.1 = p.1)).getD (0, 0)).2))]

/-- FULLER_ATOMIC_HOLD_EXPIRY (R185): ATOM_HOLD_NS after its first participant an atomic entry sends its merged request; `t` is the answer of the tier
where it is performed. -/
def execFullerAtomicHoldExpiry (e : Nat) (t : TierRead) (s : State) : Host.Outcome State Fault Refusal := run s <|
  match s.combAt e with
  | none => .skip
  | some x =>
    if x.forward ∨ x.atomic.isNone ∨ x.sent then .skip
    else match s.leader x with
      | none => .eff (.comb e none)
      | some r => .all [.eff (.comb e (some { x with sent := true, closed := true, ops := s.combReqs x })), combAtomic e r t]

/-! ### Requests bound for another switch (R46, R89, R91, R189) -/

/-- OWN_EPOCH_LO that a forwarded request carries: the low 16 bits of OWNER_EPOCH of the route (R109). -/
def State.ownEpochLo (s : State) (old : Bool) (a : Nat) : Nat :=
  match s.lookRoute old a with
  | .hit e => if e.kind = 9 then bits e.result 4 16 else 0
  | _ => 0

/-- The body of a request that goes out whole. -/
def Req.body (q : Req) : List Byte := if q.op = 0x15 then (q.segs.flatMap (·.2)) else q.data

/-- Bytes cut into stores that each lie in one 256-byte block (R59). -/
def storeChunks : Nat → Nat → List Byte → List (Nat × List Byte)
  | 0, _, _ => []
  | k + 1, a, bs =>
    let n := 256 - a % 256
    if bs.length ≤ n then [(a, bs)] else (a, bs.take n) :: storeChunks k (a + n) (bs.drop n)

/-- The retry word of a request that goes on by a connection: the TID under which its first attempt went there, where it did (R75). -/
def State.retryWord (s : State) (q : Req) (c : Nat) : Option Nat :=
  match q.src, q.retryOf with
  | .conn d, some t => ((s.conn d).passed.find? (fun p => decide (p.1 = t ∧ p.2.1 = c))).map (fun p => p.2.2 * 2 ^ 32)
  | _, _ => none

/-- A fenced request of a connection goes on under a TID of its own, which is kept for a retry, the last 4,096 of each connection (R75). -/
def notePassed (q : Req) (c tid : Nat) : Prog := rd fun s =>
  match q.src with
  | .conn d => if fencedOp q.op then .eff (.conn d { s.conn d with passed := ((q.tid, c, tid) :: (s.conn d).passed).take 4096 }) else .skip
  | _ => .skip

/-- One request goes on to another switch, or to a gateway, on a connection (R46, R91). A transfer of a queue pair that does not meet rule R59 goes on as
stores, the last of them STRICT, or as a read of the lines that cover it.
[Marks: DESIGN CHOICE, log entry 26.] -/
def forwardReq (r c own : Nat) : Prog := rd fun s =>
  match s.req r with
  | none => .skip
  | some q =>
    let retry := s.retryWord q c
    let attr := setBits (setBits q.attr 22 1 (b2n retry.isSome)) 0 16 own
    let ops := if q.op = 0x12 ∨ q.op = 0x16 then [ofBe (leBytes 8 q.opA), ofBe (leBytes 8 q.opB)] else if q.op = 0x14 then [0] else []
    let odd := decide (q.addr % 64 ≠ 0 ∨ q.len % 64 ≠ 0)
    if q.op = 0x15 ∧ odd then
      let cs := storeChunks (q.len / 128 + 2) q.addr q.body
      .all [setWait r (.sent s.nextId), Prog.each cs.zipIdx (fun p => sendReq
        { conn := c, tid := 0, op := 0x11, addr := p.1.1, len := p.1.2.length, owners := if p.2 + 1 = cs.length then [r] else [] }
        (if p.2 + 1 = cs.length then 2 else 0) [p.1.1, lenAttr p.1.2.length own] p.1.2)]
    else if q.op = 0x14 ∧ odd then
      let lo := q.addr / 64 * 64
      let n := (q.addr + q.len + 63) / 64 * 64 - lo
      .all [setWait r (.sent s.nextId),
        sendReq { conn := c, tid := 0, op := 0x14, addr := lo, len := n, owners := [r] } 0 [lo, lenAttr n own, 0] []]
    else .all [setWait r (.sent s.nextId), notePassed q c (s.nextId % 2 ^ 32),
      sendReq { conn := c, tid := 0, op := q.op, addr := q.addr, len := q.len, owners := [r] } (s.ordOf q)
        ([q.addr, lenAttr q.len attr] ++ ops ++ retry.toList) q.body]

/-- The connection on which a request leaves the switch, where there is one. -/
def State.exitConn (s : State) (q : Req) : Option Nat :=
  match q.dest with
  | .route i | .knotHome i => s.connTo i
  | .gateway c => if (s.conn c).st = .open then some c else none
  | _ => none

/-- The requests of the source of a gathering that are open and not in it. -/
def State.gatherOthers (s : State) (g : Gather) : List Nat :=
  ((s.reqsWith (fun p => decide (p.src.stream = g.src.stream) && !p.collDone)).map (·.1)).filter (fun r => !g.reqs.contains r)

/-- Every request of the source before the last one of a gathering that is not in it has been performed (R92).
[Marks: DESIGN CHOICE, log entry 26.] -/
def State.gatherReady (s : State) (g : Gather) : Bool :=
  (s.gatherOthers g).all (fun r => decide (g.reqs.foldl max 0 ≤ r))

/-- A request may join a gathering: no open request of its source lies between it and the gathered ones, which would have to be performed between them (R92). -/
def State.joinable (s : State) (g : Gather) (r : Nat) : Bool :=
  let rs := r :: g.reqs
  (s.gatherOthers g).all (fun o => decide (o = r) || decide (o < rs.foldl min r) || decide (rs.foldl max 0 < o))

/-- A gathering is sent: gathered stores as one BULK_WRITE where they are at least two and a multiple of 64 bytes, gathered loads as one BULK_READ of
their lines where they are at least two, and otherwise one for one (R91); without an open gateway connection the requests end with TIMEOUT (R92). -/
def sendGather (g : Gather) : Prog := rd fun s =>
  let ps := g.reqs.filterMap (fun r => (s.req r).map (fun q => (r, q)))
  let total := (ps.map (fun p => p.2.len)).sum
  let lo := ps.foldl (fun m p => min m (p.2.addr / 64 * 64)) ((ps.map (fun p => p.2.addr / 64 * 64)).headD 0)
  let hi := ps.foldl (fun m p => max m ((p.2.addr + p.2.len + 63) / 64 * 64)) 0
  if (s.conn g.gate).st ≠ .open then Prog.each ps (fun p => refuse p.1 stTimeout 0x850 g.gate)
  else if g.store ∧ 2 ≤ ps.length ∧ total % 64 = 0 then .all [
    Prog.each ps (fun p => setWait p.1 (.sent s.nextId)),
    sendReq { conn := g.gate, tid := 0, op := 0x15, addr := (ps.map (·.2.addr)).headD 0, len := total, owners := ps.map (·.1) } 0
      [(ps.map (·.2.addr)).headD 0, lenAttr total 0] (ps.flatMap (·.2.data))]
  else if ¬ g.store ∧ 2 ≤ ps.length then .all [
    Prog.each ps (fun p => setWait p.1 (.sent s.nextId)),
    sendReq { conn := g.gate, tid := 0, op := 0x14, addr := lo, len := hi - lo, owners := ps.map (·.1) } 0 [lo, lenAttr (hi - lo) 0, 0] []]
  else Prog.each ps (fun p => forwardReq p.1 g.gate 0)

/-- A gathering stops: it is sent once every earlier request of its source has been performed.
[Marks: DESIGN CHOICE, log entry 26.] -/
def flushGather (g : Gather) : Prog := rd fun s =>
  let others := s.btp.gathers.erase g
  if s.gatherReady g then .all [.eff (.gathers others), sendGather g]
  else .eff (.gathers (others ++ [{ g with closed := true }]))

/-- The store gatherings of a source stop. -/
def flushStores (src : Src) : Prog := rd fun s =>
  Prog.each (s.btp.gathers.filter (fun g => g.store && decide (g.src.stream = src.stream))) flushGather

/-- The end of the bytes a store gathering holds. -/
def State.gatherEnd (s : State) (g : Gather) : Nat :=
  (g.reqs.filterMap s.req).foldl (fun m q => max m (q.addr + q.len)) 0

/-- A store or load bound for another stage reaches its gateway port (R91).
[Marks: DESIGN CHOICE, log entry 26.] -/
def gatewayTake (r c : Nat) : Prog := rd fun s =>
  match s.req r with
  | none => .skip
  | some q =>
    let mine (g : Gather) : Bool := decide (g.src.stream = q.src.stream) && decide (g.gate = c) && !g.closed && decide (g.block = q.addr / 4096) && s.joinable g r
    let add (g : Gather) : Prog := .all [
      .eff (.gathers (s.btp.gathers.map (fun h => if h = g then { g with reqs := g.reqs ++ [r] } else h))), setWait r .other,
      Prog.when (g.store && decide ((q.addr + q.len) % 4096 = 0)) (flushGather { g with reqs := g.reqs ++ [r] })]
    let start (st : Bool) : Prog := rd fun u =>
      let g : Gather := { src := q.src, gate := c, block := q.addr / 4096, store := st, reqs := [r] }
      .all [.eff (.gathers (u.btp.gathers ++ [g])), setWait r .other]
    if q.src.stream.isNone then forwardReq r c 0
    else if q.op = 0x11 ∧ s.ordOf q ≠ 2 then
      match s.btp.gathers.find? (fun g => g.store && mine g && decide (s.gatherEnd g = q.addr)) with
      | some g => add g
      | none => .seq (flushStores q.src) (if q.addr % 64 = 0 then start true else forwardReq r c 0)
    else if q.op = 0x10 then
      .seq (flushStores q.src) (rd fun u => match u.btp.gathers.find? (fun g => !g.store && mine g) with
        | some g => .all [.eff (.gathers (u.btp.gathers.map (fun h => if h = g then { g with reqs := g.reqs ++ [r] } else h))), setWait r .other]
        | none => start false)
    else .seq (flushStores q.src) (forwardReq r c 0)

/-- GATEWAY_GATHER_TIMEOUT (R91): 2 µs after it started, or once it has stopped, the gathering number i is sent. -/
def execGatewayGatherTimeout (i : Nat) (s : State) : Host.Outcome State Fault Refusal := run s (Prog.opt (s.btp.gathers[i]?) flushGather)

/-- One request leaves the switch; a request to a gateway is gathered or forwarded; with no connection to its home it waits. -/
def leave (r : Nat) : Prog := rd fun s =>
  match s.req r with
  | none => .skip
  | some q => match q.dest, s.exitConn q with
    | .gateway c, none => refuse r stTimeout 0x850 c
    | .gateway c, some _ => gatewayTake r c
    | _, none => setWait r .none
    | _, some c => forwardReq r c (s.ownEpochLo q.old q.addr)

/-- The merged request of a forwarding entry is sent (R189): one participant goes on as it is. -/
def sendForward (e : Nat) : Prog := rd fun s =>
  match s.combAt e with
  | none => .skip
  | some x => match s.combReqs x with
    | [] => .eff (.comb e none)
    | [p] => .all [.eff (.comb e none), leave p.1]
    | p :: ps => match s.exitConn p.2 with
      | none => (match p.2.dest with
        | .gateway c => combReply e { status := stTimeout, cause := 0x850, obj0 := c }
        | _ => .skip)
      | some c =>
        let own := match p.2.dest with | .gateway _ => 0 | _ => s.ownEpochLo p.2.old p.2.addr
        let a := if x.atomic.isSome then p.2.addr else x.line * 64
        let len := if x.atomic.isSome then p.2.len else 64
        let attr := setBits (setBits p.2.attr 22 1 0) 0 16 own
        let ops := if x.atomic.isSome then
          [ofBe (leBytes 8 ((combOperand ((p :: ps).map (·.2)) (p.2.addr % 64)).getD 0)), 0] else []
        .all [.eff (.comb e (some { x with sent := true, closed := true, ops := p :: ps })),
          sendReq { conn := c, tid := 0, op := p.2.op, addr := a, len := len, comb := some e } 1 ([a, lenAttr len attr] ++ ops) []]

/-- FULLER_FORWARD_HOLD_EXPIRY (R189): FWD_HOLD_NS after its first participant a forwarding entry sends its merged request. -/
def execFullerForwardHoldExpiry (e : Nat) (s : State) : Host.Outcome State Fault Refusal := run s <|
  match s.combAt e with
  | none => .skip
  | some x => if x.forward ∧ ¬ x.sent then sendForward e else .skip

/-- A request bound for another switch passes the Fuller (R189) and leaves. -/
def goOut (r : Nat) (q : Req) : Prog := rd fun s =>
  let toKnot : Bool := match q.dest with | .knotHome _ => true | _ => false
  if !s.combinable r q || toKnot then leave r
  else match s.combFor q true with
    | some e => .all [combJoin e r, rd fun u => match u.combAt e with
        | some x => if u.r F.FULL_CTRL.MAX_FANOUT [] ≤ x.parts.length then sendForward e else .skip
        | none => .skip]
    | none => if s.combRoom q.part then combOpen r q true false (fun _ => .skip)
      else .all [count F.FULL_NOENTRY_COUNT.COUNT [], leave r]

/-! ### The rows -/

/-- Whether a request of a source keeps its store gathering open: another store that leaves for a gateway and is not STRICT (R91). -/
def State.gathers (s : State) (q : Req) : Bool :=
  decide (q.op = 0x11) && decide (s.ordOf q ≠ 2) && (match q.dest with | .gateway _ => true | _ => false)

/-- The die-to-die link by which a request reaches the Felt (R30): that of its compute die or of its Brim die. -/
def State.dieLink (s : State) : Src → Option Nat
  | .ctx c _ => some (ctxDie c)
  | .conn c => some (8 + connDie c)
  | .qp n => some (8 + qpDie n)
  | .agent n => some (8 + s.agentPort n / 64)
  | .cxlPort p => some (8 + p / 64)
  | _ => none

/-- The link of a request carries traffic: it does not retrain (R33). -/
def State.linkRuns (s : State) (q : Req) : Bool := match s.dieLink q.src with | some n => !s.d2d.retraining.contains n | none => true

/-- A request that may be performed now: admitted, of the row's opcode, not yet sent or merged, in order (R76), and of a die whose link carries traffic
(R33). The first request of a source that its store
gathering does not take ends that gathering (R91). -/
def performReq (r op : Nat) (go : Req → Prog) : Prog := rd fun s =>
  match s.req r with
  | none => .skip
  | some q =>
    let waits : Bool := match q.wait with | .sent _ | .other | .launch => true | .merged _ => (s.leads r).isNone | _ => false
    if q.resp || decide (q.op ≠ op) || waits || !s.linkRuns q || !s.inOrder r q then .skip
    else .seq (Prog.when (!s.gathers q && q.src.stream.isSome) (flushStores q.src)) (afterRetry r q (go q))

/-- A request is performed where it goes: at the home, at a knot slot held here, or at another switch. -/
def atDest (r : Nat) (q : Req) (home : Nat → Prog) : Prog := rd fun s =>
  match q.dest, q.ext, s.slotOf (q.addr % 2 ^ 52) with
  | .home, some e, _ => home e
  | .knotWin, _, some p => if (s.knot p.1).held.contains (.req r) then .skip else slotAccess r p.1 p.2
  | .knotWin, _, none => refuse r stDenied 0x830 q.addr
  | .route _, _, _ | .knotHome _, _, _ | .gateway _, _, _ => goOut r q
  | _, _, _ => .skip

/-- What a LOAD does. -/
def doLoad (r : Nat) (t : TierRead) (far : List Byte) : Prog :=
  performReq r 0x10 fun q => atDest r q fun e => rd fun u =>
    match u.leads r with
    | some (n, _) => combLoad n r t far
    | none =>
      let alone := homeRead r e (q.addr % 2 ^ 52) q.len t far (finish r)
      if ¬ u.combinable r q then alone
      else match u.combFor q false with
        | some n => combJoin n r
        | none => if u.combRoom q.part then combOpen r q false true (fun n => combLoad n r t far)
          else .all [count F.FULL_NOENTRY_COUNT.COUNT [], alone]

/-- LOAD (R59): `t` is the answer of the page's tier, `far` the base bytes that another switch returned for a COMPRESSED extent. -/
def execLoad (r : Nat) (t : TierRead) (far : List Byte) (s : State) : Host.Outcome State Fault Refusal := run s (doLoad r t far)

/-- What a STORE does. -/
def doStore (r : Nat) : Prog :=
  performReq r 0x11 fun q => atDest r q fun e => rd fun s =>
    if s.storeFirst r q then homeStore r e (q.addr % 2 ^ 52) q.data (finish r) else .skip

/-- STORE (R59). -/
def execStore (r : Nat) (s : State) : Host.Outcome State Fault Refusal := run s (doStore r)

/-- ATOMIC (R60): combined where it is eligible, and otherwise performed at the home. -/
def execAtomic (r : Nat) (t : TierRead) (s : State) : Host.Outcome State Fault Refusal := run s <|
  performReq r 0x12 fun q => atDest r q fun e => rd fun u =>
    match u.leads r with
    | some (n, x) => if x.sent then combAtomic n r t else .skip
    | none =>
      let alone := homeModify r e (q.addr % 2 ^ 52) q.asize t (fun old => leBytes q.asize (q.applyTo (ofLe old))) (finish r)
      if ¬ u.combinable r q then alone
      else match u.combFor q false with
        | some n => combJoin n r
        | none => if u.combRoom q.part then combOpen r q false false (fun _ => .skip)
          else .all [count F.FULL_NOENTRY_COUNT.COUNT [], alone]

/-- TRIGGER (R61): a trigger to a knot slot held here; to any other address it is not allowed. -/
def execTrigger (r : Nat) (s : State) : Host.Outcome State Fault Refusal := run s <|
  performReq r 0x13 fun q => atDest r q fun _ => refuse r stDenied 0x517 q.addr

/-- What a BULK_READ does.
[Marks: DESIGN CHOICE, log entry 37.] -/
def doBulkRead (r : Nat) (t : TierRead) (far : List Byte) : Prog :=
  performReq r 0x14 fun q => atDest r q fun e => homeRead r e (q.addr % 2 ^ 52) q.len t far (finish r)

/-- BULK_READ (R59): the whole range is read, and answered in segments. -/
def execBulkRead (r : Nat) (t : TierRead) (far : List Byte) (s : State) : Host.Outcome State Fault Refusal := run s (doBulkRead r t far)

/-- The oldest segment of a BULK_WRITE that waits is placed by its offset; the last one ends the transfer (R57, R59). -/
def placeSegment (r e : Nat) : Prog := rd fun s =>
  match s.req r with
  | none => .skip
  | some q => match q.segs with
    | [] => .skip
    | (o, bs) :: rest =>
      let x := s.ext e
      let a := q.addr % 2 ^ 52 + o
      let go := rd fun u => match u.writeAcc x a bs.length false, u.req r with
        | .wait, _ => waitPage r a
        | .refuse st c b, _ => refuse r st c b
        | .ok, some p => .all [homeWrite x a bs,
            .eff (.req r (some { p with segs := rest, placed := p.placed + bs.length, wait := .none })),
            Prog.when (decide (p.placed + bs.length = p.want)) (respond r stOk [])]
        | .ok, none => .skip
      if x.coherent ∧ ¬ bs.isEmpty then recallLines r q (linesOf a bs.length) go else go

/-- What a BULK_WRITE segment does. -/
def doBulkWriteSegment (r : Nat) : Prog :=
  performReq r 0x15 fun q => match q.dest, q.ext with
    | .home, some e => placeSegment r e
    | .knotWin, _ => refuse r stDenied 0x517 q.addr
    | _, _ => if q.rcv = q.want then atDest r q (fun _ => .skip) else .skip

/-- BULK_WRITE_SEGMENT (R59): the next segment of the transfer is placed; a transfer for another switch goes on when its body is complete. -/
def execBulkWriteSegment (r : Nat) (s : State) : Host.Outcome State Fault Refusal := run s (doBulkWriteSegment r)

/-! ### Near-pool operations (R130 to R132) -/

/-- The units of a near-pool operation in ascending order: lines, and whole POISONED pages that a FILL or COPY covers (R131, R132). The first argument
bounds their number. -/
def State.nearUnits (s : State) (clears : Bool) (a n : Nat) : Nat → Nat → List (Nat × Nat)
  | 0, _ => []
  | k + 1, o =>
    if n ≤ o then []
    else
      let b := a + o
      if clears ∧ b % 2 ^ 21 = 0 ∧ o + 2 ^ 21 ≤ n ∧ (s.page (b / 2 ^ 21)).st = .poisoned then (o, 2 ^ 21) :: State.nearUnits s clears a n k (o + 2 ^ 21)
      else (o, 64) :: State.nearUnits s clears a n k (o + 64)

/-- A value of the source of a near-pool operation. -/
def State.nearSrc (s : State) (q : Req) (o n : Nat) (far : List Byte) : List Byte :=
  match q.ext2, s.extAt (q.opA % 2 ^ 52) with
  | none, none => (far.drop o).take n ++ List.replicate (n - ((far.drop o).take n).length) 0
  | _, _ => overlay q.got (q.opA % 2 ^ 52 + o) (s.memBytes (q.opA % 2 ^ 52 + o) n)

/-- Elements of a width in bytes. -/
def elems (w : Nat) (bs : List Byte) : List Nat := (List.range (bs.length / w)).map (fun i => leAt bs (w * i) w)

/-- A destination unit after the operation: FILL, COPY, or ACCUMULATE element by element (R130). -/
def Req.nearResult (q : Req) (old src : List Byte) : List Byte :=
  if q.nearFn = 1 then (List.range (old.length / 8)).flatMap (fun _ => leBytes 8 q.opA)
  else if q.nearFn = 2 then src
  else ((elems q.asize old).zip (elems q.asize src)).flatMap (fun p => leBytes q.asize (atomApply q.atop q.asize q.atype p.1 p.2 0))

/-- The reduction of the elements of a range: a fixed binary tree for float32 ADD (R131). -/
def Req.reduce (q : Req) (bs : List Byte) : Nat :=
  let xs := elems q.asize bs
  if q.atype = 2 ∧ q.atop = 0 then reduceAdd 0 xs
  else match xs with
    | [] => 0
    | x :: rest => rest.foldl (fun c y => atomApply q.atop q.asize q.atype c y 0) x

/-- The first offset at which two byte lists differ, or 2^64 - 1 (R130).
[Marks: DESIGN CHOICE, log entry 37.] -/
def firstDiff (a b : List Byte) : Nat :=
  match (a.zip b).findIdx? (fun p => p.1 ≠ p.2) with
  | some i => i
  | none => 2 ^ 64 - 1

/-- The extent here in which the source of a near-pool operation lies. -/
def State.nearFrom (s : State) (e : Nat) (q : Req) : Option Ext :=
  if ¬ q.nearSource then none
  else match q.ext2 with
    | some k => some (s.ext k)
    | none => if (s.extAt (q.opA % 2 ^ 52)).isSome then some (s.ext e) else none

/-- How the source of n bytes at offset o is read, where it is here. -/
def State.nearSrcAcc (s : State) (e : Nat) (q : Req) (o n : Nat) (t : TierRead) : Acc :=
  match s.nearFrom e q with
  | some y => s.readAcc y (q.opA % 2 ^ 52 + o) n t
  | none => .ok

/-- What the tier's answer at the source does beside the request. -/
def nearSrcNote (e : Nat) (q : Req) (o n : Nat) (t : TierRead) : Prog := rd fun s =>
  match s.nearFrom e q with
  | some y => tierNote y (q.opA % 2 ^ 52 + o) n t
  | none => .skip

/-- One unit of a writing near-pool operation: how it ends, or the next. `t` is what the tier answers at unit `tl`, at the source where `src` is set. A unit without a
frame for its page waits, and the operation goes on from there (R108).
[Marks: DESIGN CHOICE, log entry 37.] -/
def nearUnit (r e : Nat) (q : Req) (t : TierRead) (tl : Nat) (src : Bool) (far : List Byte) : List ((Nat × Nat) × Nat) → Prog
  | [] => respond r stOk []
  | ((o, n), i) :: us => rd fun s =>
    let x := s.ext e
    let a := q.addr % 2 ^ 52 + o
    let ts : TierRead := if i = tl ∧ src then t else .ok
    let td : TierRead := if i = tl ∧ ¬ src ∧ q.nearFn = 5 then t else .ok
    let dst : Acc := if q.nearFn = 5 then (s.readAcc x a n td).asWrite else .ok
    let note := .seq (nearSrcNote e q o n ts) (tierNote x a n td)
    let at' (o : Nat) : Prog := rd fun u => match u.req r with | some p => .eff (.req r (some { p with placed := o })) | none => .skip
    match s.nearSrcAcc e q o n ts, dst, s.writeAcc x a n (decide (n = 2 ^ 21)) with
    | .refuse st c b, _, _ | _, .refuse st c b, _ => .all [note, at' o, refuse r st c b]
    | _, _, .refuse st c b => .all [at' o, refuse r st c b]
    | .wait, _, _ | _, .wait, _ | _, _, .wait => .all [at' o, waitPage r a]
    | .ok, .ok, .ok => .all [note, homeWrite x a (q.nearResult (s.memBytes a n) (s.nearSrc q o n far)), nearUnit r e q t tl src far us]

/-- A reading near-pool operation over its whole range.
[Marks: DEDUCED, log entry 23.] -/
def nearRead (r e : Nat) (q : Req) (t : TierRead) (src : Bool) (far : List Byte) : Prog := rd fun s =>
  let x := s.ext e
  let a := q.addr % 2 ^ 52
  let done (u : State) : List Byte :=
    let d := overlay q.got a (u.memBytes a q.len)
    if q.nearFn = 3 then leBytes 8 (firstDiff d (u.nearSrc q 0 q.len far)) else leBytes q.asize (q.reduce d)
  let ts : TierRead := if src then t else .ok
  let td : TierRead := if src then .ok else t
  let note := .seq (tierNote x a q.len td) (nearSrcNote e q 0 q.len ts)
  match s.readAcc x a q.len td, s.nearSrcAcc e q 0 q.len ts with
  | .refuse st c b, _ | _, .refuse st c b => .all [note, refuse r st c b]
  | .wait, _ | _, .wait => waitPage r a
  | .ok, .ok => .all [note, rd fun u => respond r stOk (done u)]

/-- How a near-pool operation ends whose source is homed at another switch and not served there (R130). -/
def farRefusal : FarSource → Option (Nat × Nat)
  | .data _ => none
  | .revoked => some (stRevoked, 0x301)
  | .busy => some (stBusy, 0)
  | .lost => some (stLost, 0)
  | .crosses => some (stDenied, 0x341)
  | .denied => some (stDenied, 0x830)

/-- The bytes of a source homed at another switch. -/
def farBytes : FarSource → List Byte
  | .data bs => bs
  | _ => []

/-- The ranges that a near-pool operation reads here, destination and source. -/
def State.nearReads (s : State) (e : Nat) (q : Req) : List (Ext × Nat × Nat) :=
  (if 3 ≤ q.nearFn then [(s.ext e, q.addr % 2 ^ 52, q.len)] else []) ++
  (match s.nearFrom e q with | some y => [(y, q.opA % 2 ^ 52, q.len)] | none => [])

/-- NEAR_OP (R130): `t` is what a tier answers at unit `tl` of its range, of the source where `src` is set, and `far` what the home of a source at another switch
answers.
[Marks: DESIGN CHOICE, log entry 26.] -/
def execNearOp (r : Nat) (t : TierRead) (tl : Nat) (src : Bool) (far : FarSource) (s : State) : Host.Outcome State Fault Refusal := run s <|
  performReq r 0x16 fun q => atDest r q fun e => rd fun u =>
    let x := u.ext e
    let a := q.addr % 2 ^ 52
    let b := q.opA % 2 ^ 52
    let from? := u.nearFrom e q
    let srcLines := match from? with | some y => if y.coherent then linesOf b q.len else [] | none => []
    let held := (pagesOf a q.len).any u.pageHeld || (from?.isSome && (pagesOf b q.len).any u.pageHeld)
    let go := rd fun v =>
      let rs := v.nearReads e q
      let ms := v.mapMisses rs
      match v.req r with
      | none => .skip
      | some q' =>
        if ¬ ms.isEmpty then .all [Prog.when (decide (q.wait = .none)) (count F.TIER_FLASH_MAP_MISS_COUNT.COUNT []), mapFetch ms, waitPage r a]
        else .all [
          mapUse rs, Prog.each (rs.flatMap (fun y => pagesOf y.2.1 y.2.2)).eraseDups touchPage,
          if q.nearWrites then
            nearUnit r e q' t tl src (farBytes far)
              ((v.nearUnits (decide (q.nearFn = 1 ∨ q.nearFn = 2)) a q.len (q.len / 64 + 1) q'.placed).zipIdx)
          else nearRead r e q' t src (farBytes far)]
    match (if q.nearSource ∧ from?.isNone then farRefusal far else none) with
    | some (st, c) => refuse r st c q.addr
    | none =>
      if held then waitPage r a
      else loadLines r q (srcLines ++ (if x.coherent ∧ ¬ q.nearWrites then linesOf a q.len else []))
        (if x.coherent ∧ q.nearWrites then recallLines r q (linesOf a q.len) go else go)

/-! ### Forwarded requests (R109, R110) -/

/-- A forwarded request is dropped unanswered (R110), or answered STATE_LOST by a switch that has lost its domain (R516). -/
def dropForwarded (r : Nat) : Prog := rd fun s =>
  match s.req r with
  | none => .skip
  | some q => if s.mirror = mirLost then refuse r stLost 0x882 q.addr
    else .all [log { src := srcFelt, cause := 0x304, sev := 1, obj0 := q.addr, part := some q.part }, dropReq r]

/-- The switch to which a request goes on that met a lower-epoch home: that of a route entry of the same range, or the one that the sender implied (R110). -/
def State.impliedSwitch (s : State) (c base : Nat) (q : Req) : Nat :=
  match SMap.get none s.pool.routes base with
  | some rt => rt.home
  | none => Config.impliedRoute ((s.peerIdx c).getD 0) q.addr (q.attr % 2 ^ 16) % 16

/-- A forwarded request goes on to a third switch, if that is at most its second hop beyond its first switch (R110).
[Marks: DESIGN CHOICE, log entry 26.] -/
def forwardOn (r hops sw : Nat) : Prog := if 2 ≤ hops then dropForwarded r else .all [rd fun s =>
  match s.req r with
  | none => .skip
  | some q => .all [.eff (.req r (some { q with dest := .route sw, wait := .none, hops := hops + 1 })), leave r]]

/-- FORWARDED_REQUEST (R110): a request of a switch-to-switch connection that has made `hops` hops beyond its first switch is served, forwarded or dropped
by its ownership epoch. -/
def execForwardedRequest (r hops : Nat) (s : State) : Host.Outcome State Fault Refusal := run s <|
  match s.req r with
  | none => .skip
  | some q => match q.src with
    | .conn c =>
      if q.resp ∨ q.wait ≠ .other ∨ q.dest ≠ .home ∨ ¬ memOp q.op then .skip
      else if 3 ≤ hops then dropForwarded r
      else match s.look tagLocation q.addr with
        | .bad => refuse r stBusy 0x381 q.addr
        | .miss => if s.releasing none q.part q.addr q.span 0 then refuse r stRevoked 0x301 q.addr else dropForwarded r
        | .hit e =>
          if e.kind = 8 then
            let n := e.result % 2 ^ 20
            let x := s.ext n
            if x.st = .active ∧ x.epoch % 2 ^ 16 ≠ q.attr % 2 ^ 16 ∧ ¬ newer16 (x.epoch % 2 ^ 16) (q.attr % 2 ^ 16) then
              .all [log { src := srcFelt, cause := 0x303, sev := 0, obj0 := n, part := some x.part }, enterDraining n,
                forwardOn r hops (s.impliedSwitch c x.base q)]
            else if bits e.result 20 4 ≠ q.part ∨ x.part ≠ q.part ∨ e.hi < q.addr + q.span - 1 then refuse r stDenied 0x830 q.addr
            else match s.homeVerdict q none n with
              | .refuse st k o => refuse r st k o
              | .serve d a b => .all [.eff (.req r (some { q with dest := d, ext := a, ext2 := b, wait := .none, hops := hops })), openExt a, openExt b]
          else if e.kind = 9 ∨ e.kind = 11 then
            (if some (e.result % 16) = s.peerIdx c then dropForwarded r else forwardOn r hops (e.result % 16))
          else dropForwarded r
    | _ => .skip

end Sys2Proof.Machine
end

