-- ==== Sys2Proof/Machine/IsaAsync.lean ====
section
/-! DEFINITION. The asynchronous instructions (ch. 07, 08, 12) and what ends them: fabric operations, tensor DMA, gather and filter, knots, Cleat
lookups, check values and codec requests. -/
namespace Sys2Proof.Machine
open Sys2Proof

/-! ### Issue (R256, R259, R260, R305) -/

/-- A context issues an instruction of a kind of which it may hold so many in flight; one more waits at issue (R305). -/
def issueA (op c : Nat) (ks : List AKind) (limit : Nat) (body : Ctx → Ins → Prog) : Prog := rd fun s =>
  let mine : Bool := match s.fetch c with | some i => decide (i.op = op) | none => false
  if mine ∧ limit ≤ s.inFlight c ks then .skip else issue op c body

/-- The kinds that count against MAX_INFLIGHT (R246, R305). -/
def fabKinds : List AKind := [.fabLd, .fabSt, .fabAtom, .fabTrig, .fabBld, .fabBst, .fabNear, .redAdd]

/-- A context issues a fabric operation (R246). -/
def issueFab (op c : Nat) (body : Ctx → Ins → Prog) : Prog := rd fun s =>
  issueA op c fabKinds (s.r F.SPL_FAB_CTRL.MAX_INFLIGHT [ctxDie c]) body

/-- The first of the causes of one instruction in the order of R260. -/
def firstCause (fs : List (Option Nat)) : Option Nat := [0x506, 0x504, 0x502].find? (fun k => fs.contains (some k))

/-- Address of the completion record (R259). -/
def Ins.recAddr (i : Ins) (x : Ctx) : Option Nat := if i.crec then some (x.sr i.sb) else none

/-- An instruction with a completion knot and perhaps a record: an unbound handle or a bad record or block address faults it (R225, R259, R260);
otherwise `go` is done with the operation begun. -/
def withKnot (c : Nat) (x : Ctx) (i : Ins) (kind : AKind) (fs : List (Option Nat)) (go : AOp → Prog) : Prog :=
  let rec' := (i.recAddr x).bind (fun a => x.scratchFault c a 32 32)
  match firstCause ([if (x.compKnot i).isSome then none else some 0x506, rec'] ++ fs) with
  | some k => syncFault c k stDenied
  | none => go { ctx := c, pc := x.pc, kind := kind, knot := x.compKnot i, crec := i.recAddr x }

/-- A block of n bytes in scratch is read at issue (R242, R243, R195).
[Marks: DESIGN CHOICE, log entry 18; DEDUCED, log entry 40.] -/
def withBlock (c : Nat) (x : Ctx) (i : Ins) (kind : AKind) (n : Nat) (e : Ecc) (go : AOp → List Byte → Prog) : Prog :=
  withKnot c x i kind [x.scratchFault c (x.sr i.sa) n n] fun o =>
    withEcc e c (rd fun s => go o ((s.readLocal c (x.sr i.sa) n).getD []))

/-! ### Partition checks (R261) -/

/-- The checks of a fabric access of a program: stage ID, the operation's bit in SPL_PART_ACCESS, and rights under the partition's tag, with the cache of its cluster
(R374).
[Marks: DEDUCED, log entry 23.] -/
def State.progVerdict (s : State) (c : Nat) (q : Req) (f : Fld) : Verdict :=
  let n := ctxDie c
  if q.addr / 2 ^ 52 = 0xFFF ∨ s.r F.FELT_STAGE.STAGE_ID [] = 0xFFF then .refuse stDenied 0x831 q.addr
  else if ¬ s.rb F.SPL_PART_ACCESS.VALID [n, q.part] ∨ ¬ s.rb f [n, q.part] then s.deny 0x505 q.addr
  else (s.atCluster (ctxClu c)).resolve q (s.r F.SPL_PART_ACCESS.CLEAT_TAG [n, q.part]) 0x505

/-- The first byte of a range that a tag gives a partition no such access to: the byte after the entry that covers the start, where that one allows it (R259).
[Marks: DEDUCED, log entry 63.] -/
def State.rightsEnd (s : State) (tag part a n need : Nat) : Nat :=
  match s.look tag a with
  | .hit e =>
    if (e.kind = 1 ∨ e.kind = 2 ∨ e.kind = 3) ∧ bits e.result 24 4 = part ∧ e.access &&& need = need ∧ e.hi < a + n - 1 then e.hi + 1 else a
  | _ => a

/-- The first failing byte of a request that its checks refuse: of its own range, or of the source of a near-pool operation whose destination stands (R259, R261).
[Marks: DEDUCED, log entry 63.] -/
def State.refusedByte (s₀ : State) (c : Nat) (q : Req) : Nat :=
  let s := s₀.atCluster (ctxClu c)
  let tag := s.r F.SPL_PART_ACCESS.CLEAT_TAG [ctxDie c, q.part]
  let homed : Option Nat := match s.look tagLocation q.addr with
    | .hit e => if e.kind = 8 then some (e.result % 2 ^ 20) else none
    | _ => none
  if s.rights tag q.part q.addr q.span q.need (decide (q.op = 0x13)) ≠ .ok then s.rightsEnd tag q.part q.addr q.span q.need
  else if q.nearSource && (match homed with | some e => (s.extGate q e).isNone | none => true) && (s.nearSourceGate q (some tag)).toOption.isNone then
    s.rightsEnd tag q.part q.opA q.len 1
  else q.addr

/-- ATTR of a request (R52). -/
def mkAttr (atop asize atype : Nat) (nocomb : Bool) (nearFn : Nat) : Nat :=
  atop % 16 * 2 ^ 28 + asize * 2 ^ 26 + atype * 2 ^ 24 + b2n nocomb * 2 ^ 23 + nearFn * 2 ^ 16

/-- A fabric operation is issued (R261, R289): it ends by its route where it breaks a limit or fails a check; otherwise its request enters the context's
stream under the number of the operation. `fin` is what a non-OK end leaves at the destination. -/
def fabIssue (c : Nat) (i : Ins) (x : Ctx) (o : AOp) (q : Req) (f : Fld) (note : Bool) (fin : Prog) : Prog := rd fun s =>
  let q := { q with part := x.part, ord := i.ord }
  match q.badForm with
  | some _ => endAtIssue c i x o stDenied 0x509 note (some q.addr) fin
  | none => match s.progVerdict c q f with
    | .refuse st cause _ => endAtIssue c i x o st cause note (some (s.refusedByte c q)) fin
    | .serve d e e2 => launchOp c i x o fun n => .all [
        rd fun t => Prog.opt (SMap.get none t.eng.ops n) (fun p => .eff (.op n (some { p with req := some n }))),
        admitReq n { q with src := .ctx c n } (.serve d e e2) false]

/-! ### Fabric instructions (R289 to R294) -/

/-- Bytes of fab.ld and fab.st by FN: a scalar, or the 256 bytes of a vector (R290). -/
def fabBytes (fn : Nat) : Nat := if fn = 4 then 256 else 2 ^ fn

/-- A register destination is written with zeros. -/
def Dest.zero (d : Dest) (c : Nat) : Prog := rd fun s =>
  match d with
  | .s r => .eff (.ctx c ((s.ctx c).setS r 0))
  | .v r => .eff (.ctx c ((s.ctx c).setV r (List.replicate 64 0)))
  | _ => .skip

/-- I_FAB_LD (R290). -/
def execIFabLd (c : Nat) (s : State) : Host.Outcome State Fault Refusal := run s <|
  issueFab 0x90 c fun x i =>
    let n := fabBytes i.fn
    let a := x.sr i.sa
    let d : Dest := if i.fn = 4 then .v i.dst else .s i.dst
    let o : AOp := { ctx := c, pc := x.pc, kind := .fabLd, dst := d }
    if a % n ≠ 0 then endAtIssue c i x o stDenied 0x509 true (some a) (d.zero c)
    else fabIssue c i x o { src := .tier, op := 0x10, addr := a, len := n, attr := mkAttr 0 0 0 i.nocomb 0 } F.SPL_PART_ACCESS.MEM true (d.zero c)

/-- The bytes of a vector register, lane 0 first. -/
def vecBytes (x : Ctx) (r : Nat) : List Byte := (x.vr r).flatMap (leBytes 4)

/-- I_FAB_ST (R290). -/
def execIFabSt (c : Nat) (s : State) : Host.Outcome State Fault Refusal := run s <|
  issueFab 0x91 c fun x i => withKnot c x i .fabSt [] fun o =>
    let n := fabBytes i.fn
    let a := x.sr i.sa
    let bs := if i.fn = 4 then vecBytes x i.sb else leBytes n (x.sr i.sb)
    if a % n ≠ 0 then endAtIssue c i x o stDenied 0x509 false (some a)
    else fabIssue c i x o { src := .tier, op := 0x11, addr := a, len := n, data := bs } F.SPL_PART_ACCESS.MEM false .skip

/-- ASIZE and ATYPE of an atomic instruction (R291): `u` for fab.atomu. -/
def atomForm (u : Bool) (fmt : Nat) : Nat × Nat :=
  (if fmt = 0xC then 1 else 0, if u ∨ fmt = 1 then 0 else if fmt = 2 then 2 else 1)

/-- A fabric atomic of a program (R291): the old value comes back to s[DST]; for CAS its value at issue is compared. -/
def fabAtomic (u : Bool) (c : Nat) (x : Ctx) (i : Ins) : Prog :=
  let f := atomForm u i.fmt
  let n := 4 * 2 ^ f.1
  let m := 2 ^ (8 * n)
  let o : AOp := { ctx := c, pc := x.pc, kind := .fabAtom, dst := .s i.dst, a := f.2, len := n }
  fabIssue c i x o { src := .tier, op := 0x12, addr := x.sr i.sa, attr := mkAttr i.fn f.1 f.2 i.nocomb 0, opA := x.sr i.sb % m
                     opB := x.sr i.dst % m } F.SPL_PART_ACCESS.MEM true ((Dest.s i.dst).zero c)

/-- I_FAB_ATOM (R291). -/
def execIFabAtom (c : Nat) (s : State) : Host.Outcome State Fault Refusal := run s <| issueFab 0x92 c (fabAtomic false c)

/-- I_FAB_ATOMU (R291). -/
def execIFabAtomu (c : Nat) (s : State) : Host.Outcome State Fault Refusal := run s <| issueFab 0x93 c (fabAtomic true c)

/-- I_FAB_TRIG (R292): the first 8 × FN bytes of v[SB] are the arguments. -/
def execIFabTrig (c : Nat) (s : State) : Host.Outcome State Fault Refusal := run s <|
  issueFab 0x94 c fun x i => withKnot c x i .fabTrig [] fun o =>
    let bs := (vecBytes x i.sb).take (8 * i.fn)
    fabIssue c i x o { src := .tier, op := 0x13, addr := x.sr i.sa, len := bs.length, data := bs } F.SPL_PART_ACCESS.TRIGGER false .skip

/-- A bulk transfer of a program (R293): limits of address and length, then the local range in one window, then the checks of R261. `e` is what the read of the local
bytes of a write finds. -/
def fabBulk (write : Bool) (c : Nat) (e : Ecc) (x : Ctx) (i : Ins) : Prog :=
  withKnot c x i (if write then .fabBst else .fabBld) [] fun o =>
    let a := x.sr i.sa
    let l := x.sr i.sb % 2 ^ 32
    let n := x.sr i.sb / 2 ^ 32
    if a % 64 ≠ 0 ∨ l % 64 ≠ 0 ∨ n % 64 ≠ 0 ∨ n < 64 ∨ 2 ^ 24 < n then endAtIssue c i x o stDenied 0x509 false (some a)
    else match x.locate c l n with
      | none => endAtIssue c i x o stDenied 0x502 false (some (x.firstOutside c l))
      | some p => withEcc e c <| rd fun s =>
        let bs := if write then s.localBytes p n else []
        fabIssue c i x { o with dst := .win p.1 p.2, len := n }
          { src := .tier, op := if write then 0x15 else 0x14, addr := a, len := n, want := bs.length, rcv := bs.length
            segs := if write then [(0, bs)] else [] } F.SPL_PART_ACCESS.BULK false .skip

/-- I_FAB_BLD (R293). -/
def execIFabBld (c : Nat) (s : State) : Host.Outcome State Fault Refusal := run s <| issueFab 0x95 c (fabBulk false c .ok)

/-- I_FAB_BST (R293): the local bytes are read at issue; `e` is what that read finds. -/
def execIFabBst (c : Nat) (e : Ecc) (s : State) : Host.Outcome State Fault Refusal := run s <| issueFab 0x96 c (fabBulk true c e)

/-- I_FAB_NEAR (R294): `e` is what the read of the near-pool block finds.
[Marks: DESIGN CHOICE, log entry 37.] -/
def execIFabNear (c : Nat) (e : Ecc) (s : State) : Host.Outcome State Fault Refusal := run s <|
  issueFab 0x97 c fun x i => withBlock c x i .fabNear 32 e fun o b =>
    let f := if i.fn ≤ 3 then (0, 0) else atomForm false i.fmt
    let res := x.locate c (x.sr i.sa + 24) 8
    let o := { o with dst := match res with | some p => .win p.1 p.2 | none => .none, len := leAt b 16 4 }
    let zero := Prog.opt res (fun p => putLocal p (leBytes 8 0))
    if 15 < byteAt b 20 ∨ leAt b 21 3 ≠ 0 then endAtIssue c i x o stDenied 0x509 false (some (leAt b 0 8)) zero
    else fabIssue c i x o { src := .tier, op := 0x16, addr := leAt b 0 8, len := leAt b 16 4, opA := leAt b 8 8
                            attr := mkAttr (byteAt b 20) f.1 f.2 false i.fn } F.SPL_PART_ACCESS.NEAR false zero

/-- I_RED_ADD (R282): the contribution is read at issue and goes to its group in the context's stream. ATTR tells the group that a `red.add` sent it, with FMT
and FN. `e` is what the read of the contribution finds.
[Marks: DEDUCED, log entry 40.] -/
def execIRedAdd (c : Nat) (e : Ecc) (s : State) : Host.Outcome State Fault Refusal := run s <|
  issueFab 0x58 c fun x i => withKnot c x i .redAdd [] fun o =>
    let l := x.sr i.sb % 2 ^ 32
    let n := x.sr i.sb / 2 ^ 32
    if l % 64 ≠ 0 ∨ n % 64 ≠ 0 ∨ n < 64 ∨ 8192 < n then endAtIssue c i x o stDenied 0x509 false
    else match x.locate c l n with
      | none => endAtIssue c i x o stDenied 0x502 false (some (x.firstOutside c l))
      | some p => withEcc e c <| rd fun s => launchOp c i x o fun k => .all [
          rd fun t => Prog.opt (SMap.get none t.eng.ops k) (fun y => .eff (.op k (some { y with req := some k }))),
          admitReq k { src := .ctx c k, op := 0x20, ord := i.ord, part := x.part, attr := 256 + 16 * i.fn + i.fmt, words := [x.sr i.sa, 0]
                       data := s.localBytes p n } (.serve .service none none) false]

/-- The value that a scalar load or an atomic leaves in its register (R290, R291). -/
def AOp.value (p : AOp) (bs : List Byte) : Nat :=
  if p.kind = .fabAtom ∧ p.a = 1 then wrap 64 (sext (8 * p.len) (ofLe bs)) else ofLe bs

/-- What a response leaves at the destination of its operation (R256, R290 to R294). -/
def deliverReply (p : AOp) (status : Nat) (bs : List Byte) : Prog := rd fun s =>
  let x := s.ctx p.ctx
  let ok := decide (status = stOk)
  match p.kind, p.dst with
  | .fabLd, .s r | .fabAtom, .s r => .eff (.ctx p.ctx (x.setS r (if ok then p.value bs else 0)))
  | .fabLd, .v r => .eff (.ctx p.ctx (x.setV r (if ok then elems 4 bs else List.replicate 64 0)))
  | .fabBld, .win cl off => Prog.when ok (putLocal (cl, off) (bs.take p.len))
  | .fabNear, .win cl off => putLocal (cl, off) (leBytes 8 (if ok then ofLe (bs.take 8) else 0))
  | _, _ => .skip

/-- A fabric operation ends with a status and data, by its route (R256).
[Marks: DESIGN CHOICE, log entry 54.] -/
def fabEnd (o : Nat) (p : AOp) (status : Nat) (bs : List Byte) : Prog :=
  let note := decide (p.kind = .fabLd ∨ p.kind = .fabAtom)
  .all [Prog.when (!p.dead) (deliverReply p status bs),
    if status = stOk then asyncEnd o stOk p.len 0 note
    else match p.fail with
      | some f => asyncFail o status f.1 (some f.2) note
      | none => if p.crec.isSome then drawn (fun v => asyncFail o status v none note) else asyncFail o status 0 none note]

/-- FAB_OP_COMPLETE (R256): the response that has come for a fabric operation is delivered. -/
def execFabOpComplete (o : Nat) (s : State) : Host.Outcome State Fault Refusal := run s <|
  match SMap.get none s.eng.ops o with
  | none => .skip
  | some p => match p.reply with
    | none => .skip
    | some (st, bs) => if fabKinds.contains p.kind then fabEnd o p st bs else .skip

/-- FAB_OP_TIMEOUT (R246): a fabric operation without a response ends with TIMEOUT under cause 0x508; a later response is discarded. -/
def execFabOpTimeout (o : Nat) (s : State) : Host.Outcome State Fault Refusal := run s <|
  match SMap.get none s.eng.ops o with
  | none => .skip
  | some p =>
    if ¬ fabKinds.contains p.kind ∨ p.reply.isSome then .skip
    else .all [Prog.when (!p.dead) (logOp p.ctx p.pc p.part stTimeout 0x508), fabEnd o p stTimeout []]

/-! ### Gather and filter (R205, R283, R284) -/

/-- Bytes of an element of a gather or filter format (R283). -/
def gfBytes (fmt : Nat) : Nat := if fmt ≤ 2 then 4 else if fmt ≤ 4 then 2 else 1

/-- I_GF_GATHER (R283): every address is checked at issue. -/
def execIGfGather (c : Nat) (s : State) : Host.Outcome State Fault Refusal := run s <|
  issueA 0x60 c [.gather, .filter] 8 fun x i => withKnot c x i .gather [] fun o =>
    let e := gfBytes i.fmt
    let a := x.sr i.sa % 2 ^ 32
    let d := x.sr i.dst % 2 ^ 32
    let act := (List.range 64).filter (fun l => bit (x.pr i.pg) l)
    let src (l : Nat) : Nat := a % 2 ^ 31 + (x.vr i.sb).getD l 0
    let ok := bit a 31 && !bit d 31 && act.all (fun l =>
      decide (src l + e ≤ x.cluSize * 65536) && decide (src l % e = 0) && decide (d + l * e + e ≤ x.scrSize * 65536) && decide ((d + l * e) % e = 0))
    let lane (l : Nat) : Option Nat :=
      if src l % e ≠ 0 then some (2 ^ 31 + src l)
      else if x.cluSize * 65536 < src l + e then some (2 ^ 31 + max (src l) (x.cluSize * 65536))
      else if (d + l * e) % e ≠ 0 then some (d + l * e)
      else if x.scrSize * 65536 < d + l * e + e then some (max (d + l * e) (x.scrSize * 65536)) else none
    if ok then launchOp c i x { o with a := d, len := e, mask := x.pr i.pg, words := (List.range 64).map src } (fun _ => .skip)
    else endAtIssue c i x o stDenied 0x502 false (if ¬ bit a 31 then some a else if bit d 31 then some d else act.findSome? lane)

/-- Whether two ranges of local addresses meet. -/
def rangesMeet (a n b m : Nat) : Bool := decide (a < b + m) && decide (b < a + n)

/-- A filter block is within its limits (R284). -/
def filterOk (fmt fn : Nat) (b : List Byte) : Bool :=
  let e := gfBytes fmt
  let n := leAt b 8 4
  let src := leAt b 0 4
  let dst := leAt b 4 4
  let idx := leAt b 16 4
  decide (1 ≤ n ∧ n ≤ 2 ^ 24) && decide (leAt b 28 4 = 0) && decide (src % e = 0 ∧ dst % e = 0) && decide (leAt b 24 4 % 4 = 0) &&
  !rangesMeet src (n * e) dst (n * e) &&
  (decide (idx = 0xFFFFFFFF) || (decide (idx % 4 = 0) && !rangesMeet src (n * e) idx (n * 4))) && decide (fn ≤ 4)

/-- The first byte of the ranges that a filter block names which does not lie in the windows of the context: the results in scratch (R205, R284).
[Marks: DEDUCED, log entry 40.] -/
def filterOut (c : Nat) (x : Ctx) (fmt fn : Nat) (b : List Byte) : Option Nat :=
  let e := gfBytes fmt
  let n := leAt b 8 4
  let idx := leAt b 16 4
  [x.rangeBad false c (leAt b 0 4) (n * e), if fn = 4 then x.rangeBad false c (leAt b 20 4) ((n + 7) / 8) else none, x.rangeBad true c (leAt b 4 4) (n * e),
    if idx = 0xFFFFFFFF then none else x.rangeBad true c idx (n * 4), x.rangeBad true c (leAt b 24 4) 4].findSome? id

/-- I_GF_FILTER (R284): the block is read at issue. -/
def execIGfFilter (c : Nat) (e : Ecc) (s : State) : Host.Outcome State Fault Refusal := run s <|
  issueA 0x61 c [.gather, .filter] 8 fun x i => withBlock c x i .filter 32 e fun o b =>
    if ¬ filterOk i.fmt i.fn b then endAtIssue c i x o stDenied 0x509 false
    else match filterOut c x i.fmt i.fn b with
      | some a => endAtIssue c i x o stDenied 0x502 false (some a)
      | none => launchOp c i x { o with data := b, fn := i.fn, c := i.fmt } (fun _ => .skip)

/-- An element is kept (R284); `m` is its mask bit. -/
def filterKeeps (fmt fn x th : Nat) (m : Bool) : Bool :=
  if fn = 4 then m
  else if fmt = 0 ∨ fmt = 1 then
    let v (y : Nat) : Int := if fmt = 0 then sext 32 y else y
    match fn with
    | 0 => decide (v th < v x)
    | 1 => decide (v th ≤ v x)
    | 2 => decide (v th < (v x).natAbs)
    | _ => decide (v x ≠ 0)
  else
    let f := fmtOf fmt
    let v := f.dec x
    let t := f.dec th
    match fn with
    | 0 => t.lt v
    | 1 => t.lt v || t.eq v
    | 2 => t.lt v.abs
    | _ => !v.eq (.fin false 0 0)

/-- A gather or filter request is performed.
[Marks: DESIGN CHOICE, log entry 18; DESIGN CHOICE, log entry 54.] -/
def gfPerform (p : AOp) : Prog := rd fun s =>
  let x := s.ctx p.ctx
  let c := p.ctx
  if p.kind = .gather then
    Prog.each ((List.range 64).filter (bit p.mask)) fun l =>
      Prog.opt (x.locate c (p.a + l * p.len) p.len) (fun q => putLocal q ((s.readLocal c (2 ^ 31 + p.words.getD l 0) p.len).getD []))
  else
    let e := gfBytes p.c
    let n := leAt p.data 8 4
    let th := leAt p.data 12 4 % 2 ^ (8 * e)
    let bs := (s.readLocal c (leAt p.data 0 4) (n * e)).getD []
    let ms := if p.fn = 4 then (s.readLocal c (leAt p.data 20 4) ((n + 7) / 8)).getD [] else []
    let kept := ((elems e bs).zipIdx).filter (fun y => filterKeeps p.c p.fn y.1 th (bit (byteAt ms (y.2 / 8)) (y.2 % 8)))
    let put (a : Nat) (r : List Byte) : Prog := Prog.opt (x.locate c a r.length) (fun q => putLocal q r)
    .all [put (leAt p.data 4 4) (kept.flatMap (fun y => leBytes e y.1)),
      Prog.when (decide (leAt p.data 16 4 ≠ 0xFFFFFFFF)) (put (leAt p.data 16 4) (kept.flatMap (fun y => leBytes 4 y.2))),
      put (leAt p.data 24 4) (leBytes 4 kept.length)]

/-- GATHER_FILTER_COMPLETE (R283, R284): the request is performed, OUT_COUNT is written and its knot signalled; `e` is what its reads of engine memory find. -/
def execGatherFilterComplete (o : Nat) (e : Ecc) (s : State) : Host.Outcome State Fault Refusal := run s <|
  match SMap.get none s.eng.ops o with
  | none => .skip
  | some p =>
    if p.kind ≠ .gather ∧ p.kind ≠ .filter then .skip
    else
      let n := if p.kind = .gather then popcount 64 p.mask * p.len else leAt p.data 8 4 * gfBytes p.c
      if p.dead then asyncEnd o stOk n 0 false else unitEcc o p e 0 (.all [gfPerform p, asyncEnd o stOk n 0 false])

end Sys2Proof.Machine
end

