-- ==== Sys2Proof/Machine/IsaUnit.lean ====
section
/-! DEFINITION. The instructions whose work a unit does beside the context (ch. 08, 11, 12): tensor DMA, prefetch, knots, Cleat lookups, check values
and codec requests, and what ends them. -/
namespace Sys2Proof.Machine
open Sys2Proof

/-! ### Requests of a unit -/

/-- An operation in flight. -/
def State.aop (s : State) (o : Nat) : Option AOp := SMap.get none s.eng.ops o

/-- A unit sends a fabric request for an operation, with the checks of R261 under the BULK bit, or for a kernel with those of the requesting connection's tag (R325); one
that fails them has its end at once. -/
def unitReq (o : Nat) (p : AOp) (q : Req) : Prog := rd fun s =>
  let q := { q with part := p.part, src := .unit o }
  match (if p.kind = .kernel then s.resolve q p.d 0x830 else s.progVerdict p.ctx q F.SPL_PART_ACCESS.BULK) with
  | .refuse st cause _ => .all [logOp p.ctx p.pc p.part st cause, setReply o st [] (some (0, s.refusedByte p.ctx q))]
  | .serve d e e2 => fresh fun r => .all [.eff (.op o (some { p with req := some r })), admitReq r q (.serve d e e2) false]

/-- A unit's request is performed, as far as it can be now.
[Marks: DESIGN CHOICE, log entry 18.] -/
def unitPerform (r : Nat) (t : TierRead) (far : List Byte) : Prog := rd fun s =>
  match s.req r with
  | none => .skip
  | some q =>
    match q.op with
    | 0x10 => doLoad r t far
    | 0x11 => doStore r
    | 0x14 => doBulkRead r t far
    | _ => doBulkWriteSegment r

/-- A unit needs the end of a request: it is sent, performed, or its end taken up; `again` goes on, and a request that must wait leaves the operation as it
is. -/
def unitWait (o : Nat) (p : AOp) (q : Req) (t : TierRead) (far : List Byte) (got : AOp → Nat → List Byte → Prog) (again : Prog) : Prog :=
  match p.req, p.reply with
  | none, none => .seq (unitReq o p q) again
  | some r, none => .seq (unitPerform r t far) (rd fun s => match s.aop o with
      | some y => if y.reply.isSome then again else .skip
      | none => .skip)
  | _, some (st, bs) => got { p with req := none, reply := none } st bs

/-- The request by which a unit reads n bytes of fabric memory: a LOAD within one 256-byte block, else a BULK_READ (R287).
[Marks: DESIGN CHOICE, log entry 38.] -/
def readReq (a n : Nat) : Req :=
  { src := .tier, op := if a % 256 + n ≤ 256 then 0x10 else 0x14, addr := a, len := n, attr := mkAttr 0 0 0 true 0 }

/-- The request by which a unit writes bytes to fabric memory. -/
def writeReq (a : Nat) (bs : List Byte) : Req :=
  if a % 256 + bs.length ≤ 256 then { src := .tier, op := 0x11, addr := a, len := bs.length, data := bs }
  else { src := .tier, op := 0x15, addr := a, len := bs.length, want := bs.length, rcv := bs.length, segs := [(0, bs)] }

/-! ### Tensor DMA (R204, R286, R287) -/

/-- ROW_BYTES, ROWS and PLANES of a descriptor. -/
def dmaRows (d : List Byte) : Nat × Nat × Nat := (leAt d 20 4, leAt d 24 4, leAt d 28 4)

/-- The start of row n of the source, or of the destination, of a descriptor; the rows of a plane follow one another. -/
def dmaAddr (d : List Byte) (dst : Bool) (n : Nat) : Int :=
  let fab := bit (byteAt d 16) (b2n dst)
  let a := leAt d (if dst then 8 else 0) 8
  let rows := (dmaRows d).2.1
  (if fab then a else a % 2 ^ 32 : Nat) + sext 64 (leAt d (if dst then 56 else 40) 8) * (n / rows : Nat) +
    sext 64 (leAt d (if dst then 48 else 32) 8) * (n % rows : Nat)

/-- The lowest row start and the highest row end of a side: the corners of the two strides decide. -/
def dmaBounds (d : List Byte) (dst : Bool) : Int × Int :=
  let (b, r, p) := dmaRows d
  let cs := [0, r - 1, (p - 1) * r, p * r - 1].map (dmaAddr d dst)
  (cs.foldl min (cs.headD 0), cs.foldl max (cs.headD 0) + b)

/-- A descriptor within its limits (R286, R287). -/
def dmaOk (d : List Byte) : Bool :=
  let (b, r, p) := dmaRows d
  let n := r * p
  let sf := bit (byteAt d 16) 0
  let df := bit (byteAt d 16) 1
  let rowOk (fab : Bool) (a : Int) : Bool :=
    if fab then decide (0 ≤ a ∧ a % 256 + b ≤ 256) || decide (0 ≤ a ∧ a % 64 = 0 ∧ b % 64 = 0) else decide (a % 4 = 0 ∧ b % 4 = 0)
  let sb := dmaBounds d false
  let db := dmaBounds d true
  decide (byteAt d 16 < 4) && decide (leAt d 17 3 = 0) && decide (1 ≤ b ∧ b ≤ 2 ^ 24) && decide (1 ≤ r ∧ r ≤ 65536) &&
  decide (1 ≤ p ∧ p ≤ 65536) && decide (b * n ≤ 2 ^ 28) && !(!sf && !df && decide (sb.1 < db.2) && decide (db.1 < sb.2)) &&
  (List.range n).all (fun k => rowOk sf (dmaAddr d false k) && rowOk df (dmaAddr d true k))

/-- Descriptors in flight in the tensor DMA unit of a cluster (R194, R204). -/
def State.dmaSlots (s : State) (cl : Nat) : Nat :=
  s.eng.ops.countP (fun e => match e.2 with | some p => decide (p.kind = .dma ∧ ctxClu p.ctx = cl) | none => false)

/-- I_DMA (R286, R287): the descriptor is read at issue; one outside its limits ends there and moves nothing. It waits while the 64 descriptor slots of the cluster are
taken (R194, R198). -/
def execIDma (c : Nat) (e : Ecc) (s : State) : Host.Outcome State Fault Refusal := run s <|
  if 64 ≤ s.dmaSlots (ctxClu c) then .skip
  else issueA 0x80 c [.dma] 8 fun x i => withBlock c x i .dma 64 e fun o d =>
    if dmaOk d then launchOp c i x { o with data := d } (fun _ => .skip) else endAtIssue c i x o stDenied 0x509 false

/-- A local range of a unit's operation, by an address that may lie outside 32 bits. -/
def Ctx.unitRange (x : Ctx) (c : Nat) (a : Int) (n : Nat) : Option (Bool × Nat) := if 0 ≤ a then x.locate c a.toNat n else none

/-- What the reads of engine memory by a unit find, by row or block. -/
def eccAt (es : List (Nat × Ecc)) (n : Nat) : Ecc := ((es.find? (fun e => e.1 = n)).map (·.2)).getD .ok

/-- The rows of a descriptor are moved one after another; a row that fails ends the descriptor (R287). `t` is what a tier answers at row `tl`, `es` what the read of
engine memory finds at a row. The first argument bounds the steps.
[Marks: DESIGN CHOICE, log entry 18; DEDUCED, log entry 40; DESIGN CHOICE, log entry 54.] -/
def dmaRun (o : Nat) (t : TierRead) (tl : Nat) (es : List (Nat × Ecc)) (far : List Byte) : Nat → Prog
  | 0 => .skip
  | k + 1 => rd fun s =>
    match s.aop o with
    | none => .skip
    | some p =>
      let d := p.data
      let (b, r, pl) := dmaRows d
      let dst := decide (p.c = 1)
      let a := dmaAddr d dst p.a
      let fab := bit (byteAt d 16) (b2n dst)
      let tt : TierRead := if p.a = tl then t else .ok
      let again := dmaRun o t tl es far k
      let next (y : AOp) (bs : List Byte) : AOp := if dst then { y with a := y.a + 1, c := 0, buf := [] } else { y with c := 1, buf := bs }
      if r * pl ≤ p.a then asyncEnd o stOk (p.a * b) 0 false
      else if fab then
        unitWait o p (if dst then writeReq a.toNat p.buf else readReq a.toNat b) tt far (fun y st bs =>
          if st = stOk then .seq (.eff (.op o (some (next y bs)))) again 
            else asyncFail o st (p.a * b + (if dst then (y.fail.map (·.1)).getD 0 else 0)) (y.fail.map (·.2)) false) again
      else match (s.ctx p.ctx).unitRange p.ctx a b with
        | none => opFail o stDenied 0x502 (p.a * b) (if 0 ≤ a then some ((s.ctx p.ctx).firstOutside p.ctx a.toNat) else none)
        | some q =>
          if dst then .all [putLocal q p.buf, .eff (.op o (some (next p []))), again]
          else unitEcc o p (eccAt es p.a) (p.a * b) (.seq (.eff (.op o (some (next p (s.localBytes q b))))) again)

/-- DMA_COMPLETE (R287): the descriptor moves its rows as far as it can; when the last is moved, or one fails, it ends, its record is written and its knot
signalled. -/
def execDmaComplete (o : Nat) (t : TierRead) (tl : Nat) (es : List (Nat × Ecc)) (far : List Byte) (s : State) : Host.Outcome State Fault Refusal := run s <|
  match s.aop o with
  | none => .skip
  | some p =>
    let (_, r, pl) := dmaRows p.data
    if p.kind ≠ .dma then .skip else if p.dead then asyncEnd o stOk 0 0 false else dmaRun o t tl es far (8 * (r * pl - p.a) + 8)

/-! ### Prefetch (R288) -/

/-- The stored pages that a prefetch of a range places (R288, R397). -/
def State.prefetchPages (s : State) (x : Ext) (a n : Nat) : List Nat :=
  if x.compressed then
    let h := s.codecHdr x
    let bs := (rangeFrom ((a - x.base) / 65536) (n / 65536)).filter (fun b => h.ok && decide (b < h.nb))
    ((x.base / 2 ^ 21) :: bs.flatMap (fun b =>
      let e := s.codecEntry x b
      if e.1 = 2 ∨ e.1 = 3 then pagesOf (x.base + 64 * e.2.2) (64 * e.2.1) else [])).eraseDups
  else pagesOf a n

/-- I_PF_PAGE (R288).
[Marks: DEDUCED, log entry 40.] -/
def execIPfPage (c : Nat) (s : State) : Host.Outcome State Fault Refusal := run s <|
  issueA 0x81 c [.pfPage] 16 fun x i => withKnot c x i .pfPage [] fun o => rd fun s =>
    let a := x.sr i.sa
    let w := x.sr i.sb
    let n := bits w 0 16 * 2 ^ 21
    let us := bits w 32 16
    let past : Bool := match s.extAt (a % 2 ^ 52) with
      | some e => decide ((s.ext e).part = x.part) && decide (a / 2 ^ 52 = s.r F.FELT_STAGE.STAGE_ID []) &&
          decide ((s.ext e).base + (s.ext e).size < a % 2 ^ 52 + n)
      | none => false
    let bad := decide (a % 2 ^ 21 ≠ 0) || decide (n = 0) || decide (512 < bits w 0 16) || decide (bits w 16 16 ≠ 0) || decide (us = 0) ||
      decide (1 < bits w 48 2) || decide (bits w 50 14 ≠ 0)
    if bad || past then endAtIssue c i x o stDenied 0x509 false (if bad then none else s.extAt (a % 2 ^ 52) |>.map (fun e => a / 2 ^ 52 * 2 ^ 52 + (s.ext e).base + (s.ext e).size))
    else match s.progVerdict c { src := .tier, op := 0x14, addr := a, len := n, part := x.part } F.SPL_PART_ACCESS.BULK with
      | .refuse st cause _ => endAtIssue c i x o st cause false (some (s.refusedByte c { src := .tier, op := 0x14, addr := a, len := n, part := x.part }))
      | .serve .home (some e) _ =>
        let y := s.ext e
        let staging := decide (bits w 48 2 = 1) && y.stagingOk && s.coldFloor y
        launchOp c i x o fun k => .all [
          .eff (.prefetch (s.pool.prefetch ++ [{ op := k, ext := e, staging := staging, deadline := s.timeOf (srcEng (ctxDie c)) + 1000 * us
                                                 pages := s.prefetchPages y (a % 2 ^ 52) n }])),
          prefetchSweep]
      | .serve _ _ _ => endAtIssue c i x o stDenied 0x509 false

/-! ### Knots (R295 to R298) -/

/-- I_KNOT_BIND (R225, R295): the handle is bound to the knot that IMM16 names; a new binding has no arrival. -/
def execIKnotBind (c : Nat) (s : State) : Host.Outcome State Fault Refusal := run s <|
  issue 0xA0 c fun x i => rd fun s => retire c i { x with k := SMap.set {} x.k i.dst { bound := true, knot := i.imm, id := s.eng.order } }

/-- An instruction of the knot group names a bound handle, or faults under 0x506 (R296). -/
def withHandle (c : Nat) (x : Ctx) (i : Ins) (go : Handle → Prog) : Prog :=
  if (x.handle i.sa).bound then go (x.handle i.sa) else syncFault c 0x506 stDenied

/-- I_KNOT_SIG (R296): the signal is on its way, and is applied after the context's earlier stores. -/
def execIKnotSig (c : Nat) (s : State) : Host.Outcome State Fault Refusal := run s <|
  issue 0xA1 c fun x i => withHandle c x i fun h =>
    launchOp c i x { ctx := c, pc := x.pc, kind := .knotSig, a := h.knot, b := x.sr i.sb } (fun _ => .skip)

/-- I_KNOT_ARR (R296, R347). -/
def execIKnotArr (c : Nat) (s : State) : Host.Outcome State Fault Refusal := run s <|
  issue 0xA2 c fun x i => withHandle c x i fun h =>
    launchOp c i x { ctx := c, pc := x.pc, kind := .knotArr, a := h.knot, b := h.id, fn := i.sa } (fun _ => .skip)

/-- I_KNOT_WAIT (R297, R298): s[SB] is the deadline in ns after issue, 0 for none. -/
def execIKnotWait (c : Nat) (s : State) : Host.Outcome State Fault Refusal := run s <|
  issueA 0xA3 c [.knotWait] 8 fun x i => withHandle c x i fun h => rd fun s =>
    let b := x.sr i.sb
    launchOp c i x { ctx := c, pc := x.pc, kind := .knotWait, dst := .s i.dst, a := h.knot, b := h.id, fn := i.sa, gen := h.arrGen
                     deadline := if b = 0 then none else some (s.timeOf (srcEng (ctxDie c)) + b) } (fun _ => .skip)

/-- I_KNOT_TEST (R297): READY where a wait issued now would return OK; a test behind an arrival that is not yet acknowledged waits for it (R347).
[Marks: DEDUCED, log entry 40.] -/
def execIKnotTest (c : Nat) (s : State) : Host.Outcome State Fault Refusal := run s <|
  let pending : Bool := match s.fetch c with
    | some i => decide (i.op = 0xA4) && !(s.handleOps { ctx := c, pc := 0, kind := .knotWait, fn := i.sa, b := ((s.ctx c).handle i.sa).id } .knotArr (fun _ => true)).isEmpty
    | none => false
  if pending then .skip
  else issueA 0xA4 c [.knotWait] 8 fun x i => withHandle c x i fun h => rd fun s =>
    let r := s.waitNow h.knot h.arrGen
    let w := match r with
      | none => waitWord stOk false (s.knotShown h.knot)
      | some (st, ready) => waitWord st ready (s.knotShown h.knot)
    retire c i (x.setS i.dst w)

/-! ### Cleat lookup (R299) -/

/-- The key of a lane (R299). -/
def lookKey (fmt lo hi : Nat) : Nat :=
  if fmt = 0 then lo ^^^ 0x80000000
  else if fmt = 2 then (if bit lo 31 then 0xFFFFFFFF - lo else lo ||| 0x80000000)
  else lo + 2 ^ 32 * hi

/-- I_CLEAT_LOOK (R299, R380, R381): every active lane is looked up in one state of the table. `v` is what the verification finds at lane `l`.
[Marks: DEDUCED, log entry 28.] -/
def execICleatLook (c : Nat) (v : Verify) (l : Nat) (s : State) : Host.Outcome State Fault Refusal := run s <|
  issueA 0xB0 c [.cleatLook] 8 fun x i => rd fun s =>
    let w := x.sr i.sb
    let tag := bits w 0 16
    let miss := bits w 32 32
    let lo := x.vr i.sa
    let hi := if bit i.fn 0 then x.vr (i.sa + 1) else List.replicate 64 0
    let key (k : Nat) : Nat := lookKey i.fmt (lo.getD k 0) (hi.getD k 0)
    let act := (List.range 64).filter (fun k => bit (x.pr i.pg) k)
    let put2 (y : Ctx) (f g : Nat → Nat) : Ctx :=
      let z := putV y i i.dst ((List.range 64).map f)
      if bit i.fn 1 then putV z i (i.dst + 1) ((List.range 64).map g) else z
    let o : AOp := { ctx := c, pc := x.pc, kind := .cleatLook }
    let fail (st cause : Nat) : Prog := endAtIssue c i x o st cause true none (rd fun t => .eff (.ctx c (put2 (t.ctx c) (fun _ => 0) (fun _ => 0))))
    if bits w 16 16 ≠ 0 then fail stDenied 0x509
    else if ¬ s.lent x.part tag then fail stDenied 0x50A
    else .all [Prog.when (act.contains l) (verifyLook v tag (key l)), rd fun t =>
      let res (k : Nat) : Option Nat := match t.look tag (key k) with
        | .hit e => some e.result
        | _ => none
      if act.any (fun k => t.look tag (key k) = .bad) then fail stBusy 0x381
      else retire c i (put2 x (fun k => ((res k).map (· % 2 ^ 32)).getD miss) (fun k => ((res k).map (· / 2 ^ 32 % 2 ^ 32)).getD miss))]

/-! ### Check values (R300, R405, R406) -/

/-- A check-value instruction is issued: with no slot it ends with ACCESS_DENIED, its destination 0; otherwise its unit has it (R206, R300). -/
def chkIssue (op c : Nat) (block : Option Ecc) (f : Ctx → Ins → AOp → Except Unit AOp) : Prog :=
  issueA op c [.check] 8 fun x i =>
    let d : Dest := if op = 0xC3 ∨ op = 0xC4 then .s i.dst else .none
    let go (o : AOp) (b : List Byte) : Prog :=
      let o := { o with fn := op % 16, dst := d, data := b }
      if ¬ x.chkSlot then endAtIssue c i x o stDenied 0x50C false none (d.zero c)
      else match f x i o with
        | .error _ => endAtIssue c i x o stDenied 0x509 false
        | .ok o => launchOp c i x o (fun _ => .skip)
    match block with
    | some e => withBlock c x i .check 32 e go
    | none => withKnot c x i .check [] (fun o => go o [])

/-- I_CHK_CFG (R300, R405). -/
def execIChkCfg (c : Nat) (e : Ecc) (s : State) : Host.Outcome State Fault Refusal := run s <|
  chkIssue 0xC0 c (some e) fun _ _ o => .ok o

/-- Address and length of chk.upd and chk.app: 1 to 16,777,216 bytes (R300). -/
def chkSpan (x : Ctx) (i : Ins) (o : AOp) : Except Unit AOp :=
  if x.sr i.sb = 0 ∨ 2 ^ 24 < x.sr i.sb then .error () else .ok { o with a := x.sr i.sa, len := x.sr i.sb }

/-- I_CHK_UPD (R300). -/
def execIChkUpd (c : Nat) (s : State) : Host.Outcome State Fault Refusal := run s <| chkIssue 0xC1 c none chkSpan

/-- I_CHK_APP (R300). -/
def execIChkApp (c : Nat) (s : State) : Host.Outcome State Fault Refusal := run s <| chkIssue 0xC2 c none chkSpan

/-- I_CHK_FIN (R300). -/
def execIChkFin (c : Nat) (s : State) : Host.Outcome State Fault Refusal := run s <| chkIssue 0xC3 c none fun _ _ o => .ok o

/-- I_CHK_RD (R300). -/
def execIChkRd (c : Nat) (s : State) : Host.Outcome State Fault Refusal := run s <| chkIssue 0xC4 c none fun _ _ o => .ok o

/-- I_CHK_WR (R300). -/
def execIChkWr (c : Nat) (s : State) : Host.Outcome State Fault Refusal := run s <| chkIssue 0xC5 c none fun x i o => .ok { o with a := x.sr i.sa }

/-- A check-value operation is performed on the slot of its context: the slot after it, its scalar result, the bytes it stores, or the status and cause of
its failure with the first failing address (R300, R405, R406).
[Marks: DESIGN CHOICE, log entry 18; DESIGN CHOICE, log entry 54.] -/
def chkPerform (s : State) (p : AOp) : Except (Nat × Option Nat) (ChkSlot × Nat × Option ((Bool × Nat) × List Byte)) :=
  let x := s.ctx p.ctx
  let k := x.chk
  if p.fn = 0 then
    match ChkSlot.ofBlock p.data with
    | none => .error (0x509, none)
    | some y => .ok (y, 0, none)
  else if k.width = 0 then .error (0x509, none)
  else if p.fn = 1 ∨ p.fn = 2 then
    let n := p.len + (if p.fn = 2 then k.size else 0)
    match x.locate p.ctx p.a n with
    | none => .error (0x502, some (x.firstOutside p.ctx p.a))
    | some q =>
      let r := k.feed k.run (s.localBytes q p.len)
      if p.fn = 1 then .ok ({ k with run := r }, 0, none)
      else .ok ({ k with run := k.init }, 0, some ((q.1, q.2 + p.len), leBytes k.size (k.final r)))
  else if p.fn = 3 then .ok ({ k with run := k.init }, k.final k.run, none)
  else if p.fn = 4 then .ok (k, k.run, none)
  else .ok ({ k with run := p.a % 2 ^ k.width }, 0, none)

/-- CHECK_VALUE_COMPLETE (R300, R408): the operation is performed once those of its context issued before it have been; `e` is what the read of the bytes of chk.upd
or chk.app finds. -/
def execCheckValueComplete (o : Nat) (e : Ecc) (s : State) : Host.Outcome State Fault Refusal := run s <|
  match s.aop o with
  | none => .skip
  | some p =>
    if p.kind ≠ .check ∨ (s.opsOf p.ctx).any (fun e => decide (e.2.kind = .check) && decide (e.1 < o)) then .skip
    else if p.dead then asyncEnd o stOk 0 0 false
    else
      let done (v : Nat) : Prog := rd fun t => match p.dst with
        | .s r => .eff (.ctx p.ctx ((t.ctx p.ctx).setS r v))
        | _ => .skip
      match chkPerform s p with
      | .error (cause, a) => .all [done 0, opFail o stDenied cause 0 a]
      | .ok (k, v, st) => unitEcc o p (if p.fn = 1 ∨ p.fn = 2 then e else .ok) 0 (.all [rd fun t => .eff (.ctx p.ctx { t.ctx p.ctx with chk := k }),
          Prog.opt st (fun y => putLocal y.1 y.2), done v, asyncEnd o stOk p.len 0 false])

/-! ### Codec requests (R399 to R404) -/

/-- Which codec request an operation is. -/
def cdCard : Nat := 0
/-- ENCODE. -/
def cdEncode : Nat := 1
/-- FORMAT. -/
def cdFormat : Nat := 2
/-- Decode. -/
def cdDec : Nat := 3

/-- BLOCK0 of a request block. -/
def cdBlock0 (b : List Byte) : Nat := leAt b 32 4
/-- NBLK. -/
def cdNblk (b : List Byte) : Nat := leAt b 36 4
/-- SRC_FAB. -/
def cdSrcFab (b : List Byte) : Bool := bit (byteAt b 40) 0
/-- DST_FAB. -/
def cdDstFab (b : List Byte) : Bool := bit (byteAt b 40) 1
/-- NO_BASE. -/
def cdNoBase (b : List Byte) : Bool := bit (byteAt b 43) 0

/-- A request block within the limits of R399, local ranges included.
[Marks: DEDUCED, log entry 40.] -/
def codecOk (c : Nat) (x : Ctx) (which : Nat) (b : List Byte) : Bool :=
  let n := cdNblk b
  let loc (o m : Nat) : Bool := (x.locate c (leAt b o 8 % 2 ^ 32) m).isSome
  decide (byteAt b 40 < 4) && decide (leAt b 60 4 = 0) && decide (byteAt b 43 < 2) && decide (byteAt b 41 ≤ 1) &&
  (decide (which = cdEncode ∨ which = cdFormat) || decide (byteAt b 41 = 0)) &&
  (decide (which = cdEncode ∨ which = cdDec) || decide (byteAt b 42 ≤ 3)) &&
  (decide (which = cdFormat) || (decide (1 ≤ n ∧ cdBlock0 b + n ≤ 16381))) &&
  (decide (which = cdFormat ∨ which = cdDec) || cdSrcFab b || loc 8 (65536 * n)) &&
  (decide (which = cdFormat ∨ which = cdEncode) || cdDstFab b || loc 24 (if which = cdDec then 65536 * n else 16 * n))

/-- The rights of a unit over a fabric range (R261, R399): none where they hold, else status, cause and the first failing byte. -/
def State.unitRights (s₀ : State) (c part a n need : Nat) : Option (Nat × Nat × Nat) :=
  let s := s₀.atCluster (ctxClu c)
  let d := ctxDie c
  if a / 2 ^ 52 = 0xFFF ∨ s.r F.FELT_STAGE.STAGE_ID [] = 0xFFF then some (stDenied, 0x831, a)
  else if ¬ s.rb F.SPL_PART_ACCESS.VALID [d, part] ∨ ¬ s.rb F.SPL_PART_ACCESS.BULK [d, part] then some (stDenied, 0x505, a)
  else
    let tag := s.r F.SPL_PART_ACCESS.CLEAT_TAG [d, part]
    match s.rights tag part a n need false with
    | .ok => none
    | .bad => some (stBusy, 0x381, s.rightsEnd tag part a n need)
    | .no => some (stDenied, 0x505, s.rightsEnd tag part a n need)

/-- The fabric ranges that a request names outside its source and destination, with the access each needs (R399): the extent, and the base of cdc.card and
FORMAT. -/
def codecNeeds (which : Nat) (b : List Byte) : List (Nat × Nat × Nat) :=
  let ext := leAt b 0 8
  let base := leAt b 16 8
  if which = cdCard then (if cdNoBase b then [] else [(base, 65536 * cdNblk b, 1)])
  else if which = cdEncode then [(ext, 64, 3)]
  else if which = cdFormat then (ext, 64, 3) :: (if cdNoBase b ∨ leAt b 44 4 = 0 then [] else [(base, 65536 * leAt b 44 4, 1)])
  else [(ext, 64, 1)]

/-- A codec request is issued: its block is read, checked, and sent to a codec unit of a die whose CODEC_EN is 1; with none it ends with BUSY (R301, R399,
R404).
[Marks: DEDUCED, log entry 40.] -/
def codecIssue (op c : Nat) (e : Ecc) (mode : Option Nat) (which : Nat) : Prog := rd fun s =>
  let mine : Bool := match mode, s.fetch c with
    | some m, some i => (match s.readLocal c ((s.ctx c).sr i.sa) 64 with | some b => decide (byteAt b 41 = 1) == decide (m = 1) | none => decide (m = 0))
    | _, _ => true
  if ¬ mine then .skip
  else issueA op c [.codec] 4 fun x i => withBlock c x i .codec 64 e fun o b => rd fun s =>
    let res := x.locate c (x.sr i.sa + 48) 16
    let o := { o with data := b, fn := which, dst := match res with | some p => .win p.1 p.2 | none => .none }
    if ¬ codecOk c x which b then endAtIssue c i x o stDenied 0x509 false
    else match (codecNeeds which b).findSome? (fun n => s.unitRights c x.part n.1 n.2.1 n.2.2) with
      | some (st, cause, a) => endAtIssue c i x o st cause false (some a)
      | none => match s.codecDie none with
        | none => endAtIssue c i x o stBusy 0 false none (Prog.opt res (fun p => putLocal p (leBytes 8 0 ++ leBytes 4 (cdBlock0 b))))
        | some d => launchOp c i x { o with mask := d } (fun _ => .skip)

/-- I_CDC_CARD (R402). -/
def execICdcCard (c : Nat) (e : Ecc) (s : State) : Host.Outcome State Fault Refusal := run s (codecIssue 0xD0 c e none cdCard)

/-- I_CDC_ENC_ENCODE (R401): cdc.enc whose block has MODE ENCODE, or a reserved one. -/
def execICdcEncEncode (c : Nat) (e : Ecc) (s : State) : Host.Outcome State Fault Refusal := run s (codecIssue 0xD1 c e (some 0) cdEncode)

/-- I_CDC_ENC_FORMAT (R400): cdc.enc whose block has MODE FORMAT. -/
def execICdcEncFormat (c : Nat) (e : Ecc) (s : State) : Host.Outcome State Fault Refusal := run s (codecIssue 0xD1 c e (some 1) cdFormat)

/-- I_CDC_DEC (R403). -/
def execICdcDec (c : Nat) (e : Ecc) (s : State) : Host.Outcome State Fault Refusal := run s (codecIssue 0xD2 c e none cdDec)

/-- STORED and FAIL_BLOCK are written in the request block (R399). -/
def codecResult (p : AOp) (fail : Nat) : Prog :=
  match p.dst with
  | .win cl off => putLocal (cl, off) (leBytes 8 p.b ++ leBytes 4 fail)
  | _ => .skip

/-- A codec request fails at its next block, at a byte where one failed.
[Marks: DEDUCED, log entry 40.] -/
def codecFail (o : Nat) (p : AOp) (status cause : Nat) (at' : Option Nat := none) : Prog :=
  .all [codecResult p (cdBlock0 p.data + p.a), opFail o status cause (65536 * p.a) at']

/-- The COMPRESSED extent that a request names by its BASE, in the partition of the requester. -/
def State.codecExt (s : State) (p : AOp) : Option Nat :=
  let a := leAt p.data 0 8
  if a / 2 ^ 52 ≠ s.r F.FELT_STAGE.STAGE_ID [] then none
  else match s.extAt (a % 2 ^ 52) with
    | some e => if (s.ext e).base = a % 2 ^ 52 ∧ (s.ext e).compressed ∧ (s.ext e).part = p.part then some e else none
    | none => none

/-- The base of FORMAT (R400): every page of its range lies in a non-COMPRESSED extent of the partition, here or at another switch of the stage. -/
def State.baseOk (s : State) (part a n : Nat) : Bool :=
  decide (a / 2 ^ 52 = s.r F.FELT_STAGE.STAGE_ID []) && (pagesOf (a % 2 ^ 52) n).all (fun p =>
    match s.look tagLocation (a / 2 ^ 52 * 2 ^ 52 + max (a % 2 ^ 52) (p * 2 ^ 21)) with
    | .hit e => decide (e.kind = 9) || (decide (e.kind = 8) && decide ((s.ext (e.result % 2 ^ 20)).part = part) &&
        !(s.ext (e.result % 2 ^ 20)).compressed)
    | _ => false)

/-- Writes of a codec unit to the stored space of an extent: `go` where every page takes them, the end of the request where one refuses; a page without a
place leaves it waiting. -/
def codecWrites (o : Nat) (p : AOp) (x : Ext) (ws : List (Nat × List Byte)) (go : Prog) : Prog := rd fun s =>
  let accs := (ws.filter (fun w => !w.2.isEmpty)).map (fun w => (w.1, s.writeAcc x w.1 w.2.length false))
  if accs.any (fun y => decide (y.2 = .wait)) then .skip
  else match accs.findSome? (fun y => match y.2 with | .refuse st c b => some (st, c, failFrom (leAt p.data 0 8 / 2 ^ 52 * 2 ^ 52 + y.1) c b) | _ => none) with
    | some (st, c, a) => codecFail o p st c (some a)
    | none => .all [Prog.each ws (fun w => homeWrite x w.1 w.2), go]

/-- FORMAT (R400): header and EMPTY index; the index lies in pages that were never written, or reads as it stands where it is cleared. -/
def codecFormat (o : Nat) (p : AOp) : Prog := rd fun s =>
  match s.codecExt p with
  | none => codecFail o p stDenied 0x393
  | some e =>
    let x := s.ext e
    let d := p.data
    let nb := leAt d 44 4
    let base := leAt d 16 8
    match x.gate with
    | some (st, c) => codecFail o p st c (some (leAt d 0 8))
    | none =>
      if (s.codecHdr x).ok ∨ nb = 0 ∨ nbMax x.log2 < nb ∨ (¬ cdNoBase d ∧ (base % 64 ≠ 0 ∨ ¬ s.baseOk p.part base (65536 * nb))) then
        codecFail o p stDenied 0x393
      else
        let hdr := leBytes 4 0x44425846 ++ leBytes 1 (byteAt d 42) ++ leBytes 1 (b2n (cdNoBase d)) ++ leBytes 2 0 ++ leBytes 4 nb ++ leBytes 4 0 ++
          leBytes 8 (if cdNoBase d then 0 else base) ++ leBytes 8 (65536 * indexBlocks x.log2) ++ List.replicate 32 0
        codecWrites o p x [(x.base, hdr), (x.base + 64, List.replicate (8 * nb) 0)]
          (.all [codecResult p 0xFFFFFFFF, asyncEnd o stOk 64 0 false])

/-- The base bytes of block b against which a request cards or encodes (R401, R402): `far` where the base is homed elsewhere. -/
def State.cardBase (s : State) (noBase : Bool) (base k : Nat) (far : List Byte) : List Byte :=
  s.baseBytes { ok := true, wcode := 0, noBase := noBase, nb := 0, base := base, fill := 0 } (65536 * k) 65536 far

/-- How a read of the base bytes of a block goes on, where the base is homed here (R396). -/
def State.baseAcc (s : State) (noBase : Bool) (base k : Nat) : Acc :=
  let a := (base + 65536 * k) % 2 ^ 52
  if noBase then .ok else match s.extAt a with
    | some e => s.readAcc (s.ext e) a 65536 .ok
    | none => .ok

/-- The source bytes of the next block of a request: from a window, whose read finds `e`, or by a unit's request. -/
def codecSource (o : Nat) (p : AOp) (t : TierRead) (e : Ecc) (far : List Byte) (go : AOp → List Byte → Prog) (again : Prog) : Prog := rd fun s =>
  let a := leAt p.data 8 8
  if cdSrcFab p.data then
    unitWait o p (readReq (a + 65536 * p.a) 65536) t far (fun y st bs => if st = stOk then go y bs else codecFail o y st 0 (y.fail.map (·.2))) again
  else match (s.ctx p.ctx).locate p.ctx (a % 2 ^ 32 + 65536 * p.a) 65536 with
    | none => codecFail o p stDenied 0x509
    | some q => .all [Prog.when (decide (e = .uncorrectable)) (codecResult p (cdBlock0 p.data + p.a)),
        unitEcc o p e (65536 * p.a) (go p (s.localBytes q 65536))]

/-- The address of the index entry of the next block of a request. -/
def AOp.entryAt (p : AOp) (x : Ext) : Nat := x.base + 64 + 8 * (cdBlock0 p.data + p.a)

/-- An index entry: STATE, stored bytes and stored offset (R390). -/
def codecEnt (state size off : Nat) : List Byte :=
  leBytes 8 (state + (if state = 3 then 1024 else size / 64) * 2 ^ 16 + (if size = 0 then 0 else off / 64) * 2 ^ 32)

/-- The block that an ENCODE holds PENDING returns to EMPTY; the space reserved for it stays used (R411). -/
def pendingClear (p : AOp) : Prog := rd fun s =>
  if p.kind = .codec ∧ p.fn = cdEncode ∧ p.c ≠ 0 then Prog.opt (s.codecExt p) (fun e => homeWrite (s.ext e) (p.entryAt (s.ext e)) (leBytes 8 0)) else .skip

/-- The bytes of a block that the home has reserved are written, and then its entry: the point of effect (R401 steps 3 and 4). While a page has no place for them
the entry stays PENDING. -/
def codecStore (o e : Nat) : Prog := rd fun s =>
  match s.aop o with
  | none => .skip
  | some p =>
    let x := s.ext e
    let go : Prog := .all [homeWrite x (p.entryAt x) (codecEnt p.c p.d p.len), tally F.CODEC_ENC_BYTES.BYTES [p.mask] 65536,
      .eff (.op o (some { p with a := p.a + 1, b := p.b + p.d, c := 0, buf := [] }))]
    if p.buf.isEmpty then go
    else match s.writeAcc x (x.base + p.len) p.buf.length false with
      | .wait => .skip
      | .refuse st c b => .all [pendingClear p, codecFail o p st c (some (failFrom (leAt p.data 0 8 / 2 ^ 52 * 2 ^ 52 + x.base + p.len) c b))]
      | .ok => .all [homeWrite x (x.base + p.len) p.buf, go]

/-- The home takes an encoded block: its entry is PENDING and its stored offset reserved (R401 step 2), and its bytes and its entry follow. -/
def codecPlace (o e : Nat) (p : AOp) (k : Carded) : Prog := rd fun s =>
  let x := s.ext e
  let h := s.codecHdr x
  let b := cdBlock0 p.data + p.a
  if ¬ h.ok ∨ (s.codecEntry x b).1 ≠ 0 then codecFail o p stDenied 0x393
  else if x.size < h.fill + k.size then codecFail o p stDenied 0x394
  else codecWrites o p x [(x.base + 24, leBytes 8 (h.fill + k.size)), (p.entryAt x, codecEnt 1 k.size h.fill)]
    (.seq (.eff (.op o (some { p with c := k.state, d := k.size, len := h.fill, buf := k.bytes }))) (codecStore o e))

/-- A block of ENCODE is encoded and placed, once its source has been read; the first argument bounds the steps.
[Marks: DEDUCED, log entry 40.] -/
def encodeStep (o : Nat) (t : TierRead) (ec : Ecc) (far : List Byte) : Nat → Prog
  | 0 => .skip
  | k + 1 => rd fun s =>
    match s.aop o with
    | none => .skip
    | some p => match s.codecExt p with
      | none => codecFail o p stDenied 0x393
      | some e =>
        let x := s.ext e
        let h := s.codecHdr x
        let b := cdBlock0 p.data + p.a
        match x.gate with
        | some (st, c) => codecFail o p st c (some (leAt p.data 0 8))
        | none =>
          if ¬ h.ok then codecFail o p stDenied 0x393
          else if p.c ≠ 0 then codecStore o e
          else if p.a = 0 ∧ h.nb < cdBlock0 p.data + cdNblk p.data then codecFail o p stDenied 0x509
          else match (if h.noBase then none else s.unitRights p.ctx p.part (h.base + 65536 * b) 65536 1) with
          | some (st, c, a) => codecFail o p st c (some a)
          | none => match s.baseAcc h.noBase h.base b with
            | .wait => .skip
            | .refuse st c b' => codecFail o p st c (some (failFrom (h.base + 65536 * b) c b'))
            | .ok => codecSource o p t ec far (fun y v => codecPlace o e y (encodeBlock h.wcode b v (s.cardBase h.noBase h.base b far)))
                (encodeStep o t ec far k)

/-- CODEC_BLOCK_ENCODED (R401): a codec unit has encoded the next block of an ENCODE; `t` is what the tier of its source answers, `e` what the read of a local
source finds, and `far` the base bytes that another switch returned. -/
def execCodecBlockEncoded (o : Nat) (t : TierRead) (e : Ecc) (far : List Byte) (s : State) : Host.Outcome State Fault Refusal := run s <|
  match s.aop o with
  | none => .skip
  | some p => if p.kind ≠ .codec ∨ p.fn ≠ cdEncode ∨ p.dead ∨ cdNblk p.data ≤ p.a then .skip else encodeStep o t e far 4

/-- The card record of a block (R402). -/
def cardRecord (b : Nat) (k : Carded) : List Byte := leBytes 4 b ++ leBytes 4 k.size ++ leBytes 1 k.state ++ List.replicate 7 0

/-- The next output of a request goes to its destination (R402, R403). -/
def codecOut (o : Nat) (p : AOp) (step : Nat) (t : TierRead) (far : List Byte) (again : Prog) : Prog := rd fun s =>
  let a := leAt p.data 24 8
  let next (y : AOp) : Prog := .seq (.eff (.op o (some { y with a := y.a + 1, c := 0, b := y.b + y.d, buf := [] }))) again
  if cdDstFab p.data then
    unitWait o p (writeReq (a + step * p.a) p.buf) t far (fun y st _ => if st = stOk then next y else codecFail o y st 0 (y.fail.map (·.2))) again
  else match (s.ctx p.ctx).locate p.ctx (a % 2 ^ 32 + step * p.a) p.buf.length with
    | none => codecFail o p stDenied 0x509
    | some q => .seq (putLocal q p.buf) (next p)

/-- The blocks of cdc.card and cdc.dec one after another (R402, R403); `t` is what a tier answers at block `tl`, `es` what the read of a local source finds at a block.
The first argument bounds the steps.
[Marks: DESIGN CHOICE, log entry 54.] -/
def codecRun (o : Nat) (t : TierRead) (tl : Nat) (es : List (Nat × Ecc)) (far : List Byte) : Nat → Prog
  | 0 => .skip
  | k + 1 => rd fun s =>
    match s.aop o with
    | none => .skip
    | some p =>
      let d := p.data
      let b := cdBlock0 d + p.a
      let tt : TierRead := if p.a = tl then t else .ok
      let again := codecRun o t tl es far k
      let have' (y : AOp) (bs : List Byte) (size : Nat) : Prog := .seq (.eff (.op o (some { y with c := 1, d := size, buf := bs }))) again
      if cdNblk d ≤ p.a then .all [codecResult p 0xFFFFFFFF, asyncEnd o stOk (65536 * p.a) 0 false]
      else if p.c = 1 then codecOut o p (if p.fn = cdCard then 16 else 65536) tt far again
      else if p.fn = cdCard then
        (match s.baseAcc (cdNoBase d) (leAt d 16 8) p.a with
        | .wait => .skip
        | .refuse st c b' => codecFail o p st c (some (failFrom (leAt d 16 8 + 65536 * p.a) c b'))
        | .ok => codecSource o p tt (eccAt es p.a) far (fun y v =>
            let r := encodeBlock (byteAt d 42) b v (s.cardBase (cdNoBase d) (leAt d 16 8) p.a (far.drop (65536 * p.a)))
            have' y (cardRecord b r) r.size) again)
      else match s.codecExt p with
        | none => codecFail o p stDenied 0x392
        | some e =>
          let h := s.codecHdr (s.ext e)
          if p.a = 0 ∧ h.ok ∧ h.nb < cdBlock0 d + cdNblk d then codecFail o p stDenied 0x509
          else
            let q := readReq (leAt d 0 8 + 65536 * b) 65536
            let en := s.codecEntry (s.ext e) b
            unitWait o p q tt (far.drop (65536 * p.a)) (fun y st bs =>
              if st = stOk then have' y bs (if en.1 = 4 then 0 else 64 * en.2.1) else codecFail o y st 0 (y.fail.map (·.2))) again

/-- CODEC_REQUEST_COMPLETE (R399): a codec request does its blocks, or has done them, and ends: STORED and FAIL_BLOCK are written and its knot signalled. -/
def execCodecRequestComplete (o : Nat) (t : TierRead) (tl : Nat) (es : List (Nat × Ecc)) (far : List Byte) (s : State) : Host.Outcome State Fault Refusal := run s <|
  match s.aop o with
  | none => .skip
  | some p =>
    if p.kind ≠ .codec then .skip
    else if p.dead then asyncEnd o stOk 0 0 false
    else if p.fn = cdFormat then codecFormat o p
    else if p.fn = cdEncode then
      (if cdNblk p.data ≤ p.a then .all [codecResult p 0xFFFFFFFF, asyncEnd o stOk (65536 * p.a) 0 false] else .skip)
    else codecRun o t tl es far (8 * (cdNblk p.data - p.a) + 8)

end Sys2Proof.Machine
end

