-- ==== Sys2Proof/Machine/Log.lean ====
section
/-! DEFINITION. The Logline of the Crown die: arrival, suppression, rings, export and the sample store (R490 to R497, R504). -/
namespace Sys2Proof.Machine
open Sys2Proof

/-- The interval in ns at which a rate-limited cause is written at most once for one object (R494): 1 s for 0x103 per port, 0x720 and 0x753;
1 ms for 0x120 per port, 0x201 per queue, 0x605 per partition and 0x812 per connection.
[Marks: DESIGN CHOICE, log entry 17.] -/
def limitNs (cause : Nat) : Nat :=
  if cause = 0x103 ∨ cause = 0x720 ∨ cause = 0x753 then 1000000000 else 1000000

/-- The key under which a cause and an object are limited. -/
def limitKey (cause obj0 : Nat) : Nat := cause * 2 ^ 64 + obj0 % 2 ^ 64

/-- Whether the limit holds a record back: its cause and object were written less than an interval before (R494).
[Marks: DESIGN CHOICE, log entry 17.] -/
def State.heldBack (s : State) (r : LogRec) : Bool :=
  rateLimited r.cause && decide (r.sev ≤ 1) &&
  match (SMap.get {} s.log.limits (limitKey r.cause r.obj0)).last with
  | none => false
  | some t => decide (r.time < t + limitNs r.cause)

/-- The HBM ring can be written: its bit of READY_BLOCKS is set (R495, R530). -/
def State.hbmUp (s : State) : Bool := bit (s.r F.CROWN_BOOT_STATUS.READY_BLOCKS []) 10

/-- A record that arrives gets its SEQ and enters the rings; its class and its partition's interrupt are raised and it is queued for export
(R495 to R497, R529).
[Marks: DESIGN CHOICE, log entry 17.] -/
def logArrive (r : LogRec) : Prog := rd fun s =>
  let r := { r with seq := s.log.seq }
  let c := r.cause / 256
  .all [
    Prog.when (decide (crownCap ≤ s.log.crown.length) && !s.hbmUp) (count F.LOG_DROP_COUNT.COUNT []),
    .eff (.logPush r s.hbmUp),
    Prog.when (decide (1 ≤ c)) (rd fun t => wr F.LOG_INT_STATUS.CLASS [] (setBits (t.r F.LOG_INT_STATUS.CLASS []) (c - 1) 1 1)),
    Prog.when (decide (1 ≤ c) && bit (s.r F.LOG_INT_EN.CLASS_EN []) (c - 1)) (msix 0),
    Prog.opt r.part (fun p => .all [.eff (.logPart p r), msix (8 + p)]),
    Prog.when (s.rb F.LOG_CTRL.EXPORT_EN [] && (decide (s.r F.LOG_CTRL.MIN_SEV [] ≤ r.sev) || decide (r.sev = 3)))
      (rd fun t => .eff (.toExport (t.log.toExport ++ [r])))]

/-- A record that the wire delivers: held back and counted, or numbered where it is rate-limited and let in (R494, R495).
[Marks: DESIGN CHOICE, log entry 17.] -/
def logDeliver (r : LogRec) : Prog := rd fun s =>
  let k := limitKey r.cause r.obj0
  let l := SMap.get {} s.log.limits k
  if s.heldBack r then .eff (.limit k { l with held := min 0xffff (l.held + 1) })
  else if rateLimited r.cause then
    .all [.eff (.num r.src (SMap.get 0 s.log.nums r.src + 1)),
      .eff (.limit k { last := some r.time, held := 0 }),
      logArrive { r with rid := s.nextRid r.src, supp := l.held }]
  else logArrive r

/-- The first record of a source on the wire, and the wire without it. -/
def takeWire (src : Nat) : List LogRec → Option (LogRec × List LogRec)
  | [] => none
  | r :: rs =>
    if r.src = src then some (r, rs)
    else (takeWire src rs).map (fun p => (p.1, r :: p.2))

/-- LOGLINE_RECORD (R495): the oldest record that a SOURCE has under way arrives at the Crown die. -/
def execLoglineRecord (src : Nat) (s : State) : Host.Outcome State Fault Refusal := run s <|
  match takeWire src s.log.wire with
  | none => .skip
  | some (r, rest) => .all [.eff (.wire rest), logDeliver r]

/-- LOG_EXPORT_DST, an IPv6 address, most significant word first (R524). -/
def State.exportDst (s : State) : Nat := (List.range 4).foldl (fun a i => a * 2 ^ 32 + s.r F.LOG_EXPORT_DST.WORD [i]) 0

/-- The 16-byte header of a datagram of n records from SEQ `first` on (R496). -/
def State.exportHdr (s : State) (first n : Nat) : List Byte :=
  beBytes 2 0x4C47 ++ beBytes 2 (swName (s.r F.FELT_STAGE.STAGE_ID []) (s.r F.FELT_STAGE.SWITCH_INDEX [])) ++ beBytes 8 first ++ beBytes 2 n ++ beBytes 2 0

/-- Export of the first 1 to 16 waiting records in one datagram; one that cannot be sent is counted (R496).
[Marks: DESIGN CHOICE, log entry 17.] -/
def exportRecords (n : Nat) (sent : Bool) : Prog := rd fun s =>
  let n := min 16 (max 1 n)
  match s.log.toExport.take n with
  | [] => .skip
  | r :: rs => .all [
      if sent then send (.logExport s.exportDst (s.r F.LOG_EXPORT_PORT.UDP_PORT []) (s.exportHdr r.seq (r :: rs).length) (r :: rs))
      else count F.LOG_EXPORT_DROP_COUNT.COUNT [],
      .eff (.toExport (s.log.toExport.drop n))]

/-- LOG_EXPORT_DATAGRAM (R496): a datagram of n records is sent to LOG_EXPORT_DST, or cannot be sent. -/
def execLogExportDatagram (n : Nat) (sent : Bool) (s : State) : Host.Outcome State Fault Refusal :=
  run s (exportRecords n sent)

/-- A sample enters the store (R504): the oldest of a full Crown part moves to the HBM part, whose oldest is overwritten and counted when it is
full. -/
def samplePut (m : Sample) : Prog := rd fun s =>
  let st := m :: s.log.store
  .all [
    Prog.when (decide (256 ≤ s.log.store.length ∧ 1024 ≤ s.log.ovf.length)) (count F.LOG_SAMPLE_LOST_COUNT.COUNT []),
    .eff (.samples (st.take 256) ((st.drop 256 ++ s.log.ovf).take 1024) ((s.log.nextSample + 1) % 65536))]

/-- LOG_SAMPLE_FREE (R504): the sample with an ID is freed; no effect where it is not held. -/
def execLogSampleFree (id : Nat) (s : State) : Host.Outcome State Fault Refusal := run s <|
  .eff (.samples (s.log.store.filter (fun m => decide (m.id ≠ id % 65536)))
    (s.log.ovf.filter (fun m => decide (m.id ≠ id % 65536))) s.log.nextSample)

end Sys2Proof.Machine
end

