-- ==== Sys2Proof/Machine/Engine.lean ====
section
/-! DEFINITION. Engines and contexts from outside (ch. 06, 16): the end of a context's operations, zeroing, samples, context and engine resets, engines
offline, and the context and engine watchdogs. -/
namespace Sys2Proof.Machine
open Sys2Proof

/-! ### Placement of engines (R194, R200, R213) -/

/-- A context holds tiles, windows and code: it is placed, or its windows are still being zeroed (R202). -/
def Ctx.placed (x : Ctx) : Bool := decide (x.st ≠ .free) || x.zero.isSome

/-- The contexts of an engine. -/
def engCtxs (e : Nat) : List Nat := rangeFrom (8 * e) 8

/-- The placed contexts of an engine. -/
def State.placedOn (s : State) (e : Nat) : List Nat := (engCtxs e).filter (fun c => (s.ctx c).placed)

/-- The placed contexts of a cluster. -/
def State.placedIn (s : State) (cl : Nat) : List Nat := (rangeFrom (32 * cl) 32).filter (fun c => (s.ctx c).placed)

/-- An engine may receive placements and launches (R220). -/
def State.engAvail (s : State) (e : Nat) : Bool := bit (s.r F.SPL_ENG_AVAIL.AVAIL [e / 64]) (e % 64)

/-- SPL_ENG_AVAIL of an engine. -/
def setAvail (e : Nat) (b : Bool) : Prog := rd fun s =>
  wr F.SPL_ENG_AVAIL.AVAIL [e / 64] (setBits (s.r F.SPL_ENG_AVAIL.AVAIL [e / 64]) (e % 64) 1 (b2n b))

/-- An engine is offline: by itself, or with its die (R33, R500). -/
def State.engOff (s : State) (e : Nat) : Bool :=
  decide (SMap.get 0 s.eng.engs e = 2) || !bit (s.r F.CROWN_DIE_STATUS.COMPUTE_ONLINE []) (e / 64)

/-! ### The end of a context's operations (R219) -/

/-- The requests that a unit has open for an operation are given up. -/
def dropUnit (o : Nat) : Prog := rd fun s =>
  Prog.each (s.reqsWith (fun q => decide (q.src = .unit o))) fun e => rd fun t =>
    .all [releaseLines e.1 (t.linesHeld e.1), dropReq e.1]

/-- An operation of a context that is reset or freed: its response is discarded when it returns, a wait leaves its knot, and the work of a unit ends.
A work item ends with TIMEOUT (R334). -/
def killOp (o : Nat) (p : AOp) : Prog :=
  match p.kind with
  | .codec => .all [pendingClear p, .eff (.op o none), dropUnit o]
  | .dma | .check | .gather | .filter | .cleatLook => .all [.eff (.op o none), dropUnit o]
  | .knotWait => rd fun s =>
    let k := s.knot p.a
    .all [.eff (.knot p.a { k with waits := k.waits.filter (fun w => decide (w.op ≠ o)) }), .eff (.op o none)]
  | .kernel => rd fun s => .all [.eff (.op o none), dropUnit o,
      match SMap.get none s.fab.items p.a with
      | some i => if i.op = some o ∧ i.st.isNone then .eff (.item p.a (some { i with op := none, st := some stTimeout })) else .skip
      | none => .skip]
  | .pfPage => rd fun s => .all [.eff (.prefetch (s.pool.prefetch.filter (fun f => decide (f.op ≠ o)))), .eff (.op o none)]
  | .knotSig | .knotArr => .eff (.op o (some { p with dead := true }))
  | _ => .eff (.op o (if p.reply.isSome then none else some { p with dead := true }))

/-- Every operation of a context. -/
def killOps (c : Nat) : Prog := rd fun s => Prog.each (s.opsOf c) fun e => killOp e.1 e.2

/-! ### Kernel contexts (R324) -/

/-- The program of the attention kernels among those of code regions. -/
def kernAttn : Nat := 4096
/-- The program of the retrieval kernels. -/
def kernRetr : Nat := 4097

/-- The kernel contexts of a partition. -/
def State.kernels (s : State) (p : Nat) (attn : Bool) : List Nat :=
  (SMap.keys s.eng.ctxs).filter (fun c => (s.ctx c).xsvc && (s.ctx c).placed && decide ((s.ctx c).part = p) &&
    decide ((s.ctx c).prog = if attn then kernAttn else kernRetr))

/-- Kernel contexts configured for a partition (R342). -/
def State.kernelCount (s : State) (p : Nat) (attn : Bool) : Nat := if attn then s.r F.CROWN_XSVC.ATTN_CTX [p] else s.r F.CROWN_XSVC.RETR_CTX [p]

/-- A context runs a kernel of which more are placed than its partition has configured (R324). -/
def State.excess (s : State) (x : Ctx) : Bool :=
  x.xsvc && decide (s.kernelCount x.part (decide (x.prog = kernAttn)) < (s.kernels x.part (decide (x.prog = kernAttn))).length)

/-! ### Zeroing (R202, R203) -/

/-- Code regions of a cluster that no context runs any more are freed (R203).
[Marks: DEDUCED, log entry 41.] -/
def freeCode (cl : Nat) : Prog := rd fun s =>
  Prog.each ((SMap.keys s.eng.code).filter (fun k => decide (k / 8192 = cl) &&
    !(s.placedIn cl).any (fun c => decide ((s.ctx c).prog = k % 8192))))
    fun k => .eff (.code k none)

/-- The end of an engine reset: none of its contexts is still being reset (R500). -/
def engResetCheck (e : Nat) : Prog := rd fun s =>
  if SMap.get 0 s.eng.engs e = 1 ∧ (engCtxs e).all (fun c => !(s.ctx c).resetting) then .eff (.engSt e 0) else .skip

/-- What a context whose zeroing has ended becomes; one that was stopped or fenced in the meantime stays so. A context of a fenced engine that reaches PARKED is freed
(R521), and an excess kernel context is freed as it becomes idle (R324). -/
def zeroEnd (c : Nat) : Prog := rd fun s =>
  let x := s.ctx c
  let y := { x with zero := none, resetting := false }
  let held := decide (x.st = .stopped) || decide (x.st = .fenced)
  let free : Prog := .all [freeOwned c, .eff (.ctx c {}), freeCode (ctxClu c), sweepLaunches]
  .all [
    match x.zero with
    | none => .skip
    | some .free => free
    | some .fault => .eff (.ctx c y)
    | some .start => .eff (.ctx c { y with st := if held then x.st else .ready, issuedAt := s.eng.order, monAt := s.time.now })
    | some .park =>
      if held then .eff (.ctx c y)
      else if s.rb F.CROWN_HEALTH.FENCED [ctxEng c] then .all [.eff (.ctx c y), startZero c .free .free]
      else if s.excess x then free
      else .all [.eff (.order (s.eng.order + 1)), .eff (.ctx c { y with st := .parked, parkedAt := s.eng.order + 1 })],
    engResetCheck (ctxEng c)]

/-- WINDOW_ZEROING_COMPLETE (R202): the windows, registers and tiles of a context are zeroed. -/
def execWindowZeroingComplete (c : Nat) (s : State) : Host.Outcome State Fault Refusal := run s (zeroEnd c)

/-- A context is returned to FREE: its operations end, its knots break and its windows are zeroed; launches queued for a program that has lost its last
instance are discarded (R202, R215, R357, R358). -/
def freeCtx (c : Nat) : Prog := .all [killOps c, freeOwned c, startZero c .free .free, sweepLaunches]

/-! ### Samples (R502 to R504) -/

/-- The sample of an engine that names a context.
[Marks: DESIGN CHOICE, log entry 43.] -/
def State.sampleOf (s : State) (e c level : Nat) : Sample :=
  let x := s.ctx c
  let b := e * 2 ^ 21 + x.scrBase * 65536
  { id := s.log.nextSample, rid := s.nextRid srcHang, time := s.time.now, ctx := c, level := level, part := x.part, eng := e
    states := (engCtxs e).map (fun i => (s.ctx i).st)
    ctxs := (engCtxs e).map (fun i => if (s.ctx i).part = x.part then { s.ctx i with a := [] } else {})
    scratch := (s.eng.scratch.filter (fun p => decide (b ≤ p.1) && decide (p.1 < b + min 44800 (x.scrSize * 65536)))).map (fun p => (p.1 - b, p.2)) }

/-- The context among some that was longest without issuing. -/
def State.longest (s : State) (cs : List Nat) : Option Nat :=
  cs.foldl (fun b c => match b with
    | none => some c
    | some d => if (s.ctx c).issuedAt < (s.ctx d).issuedAt then some c else some d) none

/-- The context that the sample of an engine reset names: of the READY ones, of the placed ones where none is READY, or its first. -/
def State.engNamed (s : State) (e : Nat) : Nat :=
  match s.longest ((engCtxs e).filter (fun c => decide ((s.ctx c).st = .ready))) with
  | some c => c
  | none => (s.longest (s.placedOn e)).getD (8 * e)

/-! ### Resets (R500, R501) -/

/-- The service contexts of a partition. -/
def State.svcCtxs (s : State) (p : Nat) : List Nat :=
  (SMap.keys s.eng.ctxs).filter (fun c => (s.ctx c).svc && decide ((s.ctx c).part = p) && decide ((s.ctx c).st ≠ .free))

/-- The open service requests that a service context holds: which of its partition's contexts, if any, holds a request is a free value (R218).
[Marks: DESIGN CHOICE, log entry 42.] -/
def State.svcHeld (s : State) (c : Nat) : List (Nat × Req) :=
  let cs := s.svcCtxs (s.ctx c).part
  s.reqsWith (fun q => decide (q.part = (s.ctx c).part) && decide (0x30 ≤ q.op)) |>.filter (fun e => decide (cs[Config.svcHolder e.1 % (cs.length + 1)]? = some c))

/-- A context is reset by the ladder: its operations are discarded, its knots break, and it is zeroed and becomes FAULTED, or PARKED with AUTO_REARM, with
LAST_STATUS TIMEOUT (R219, R501). A service context is started again, and the requests it held are not answered (R218).
[Marks: DESIGN CHOICE, log entry 43.] -/
def resetCtx (c link : Nat) : Prog := rd fun s =>
  let x := s.ctx c
  if x.st = .free then .skip
  else .all [killOps c, breakOwned c link,
    rd fun t => .eff (.ctx c { t.ctx c with last := stTimeout, halting := false, resetting := true }),
    if x.st = .fenced then startZero c .fenced .fault
    else if x.svc then .all [Prog.each (s.svcHeld c) (fun e => dropReq e.1), startZero c .ready .start]
    else if x.autoRearm then startZero c .parked .park
    else startZero c .faulted .fault]

/-- The times of a list that lie within an interval in µs before now, with now in front. -/
def State.recent (s : State) (l : List Nat) (us : Nat) : List Nat :=
  s.time.now :: l.filter (fun t => decide (s.time.now < t + us * 1000))

/-- An engine goes offline: it takes no placement until switch reset, and its contexts end without a sample as for a lost die (R33, R500).
[Marks: DESIGN CHOICE, log entry 43.] -/
def engineOffline (e link : Nat) : Prog := rd fun s =>
  let rid := s.nextRid srcHang
  .all [
    log { src := srcHang, cause := 0x534, sev := 2, obj0 := e, link := link },
    setAvail e false, .eff (.engSt e 2),
    Prog.each (engCtxs e) (fun c => resetCtx c rid)]

/-- An engine is reset (R501): sampled, its 8 contexts reset whatever their partitions; more resets within the partition watchdog than RESET_LIMIT take it
offline (R500).
[Marks: DESIGN CHOICE, log entry 43.] -/
def engineReset (e link : Nat) : Prog := rd fun s =>
  let rid := s.nextRid srcHang
  let c := s.engNamed e
  let ts := s.recent (SMap.get [] s.log.engResets e) (s.r F.CROWN_WDT_PART.US [])
  if SMap.get 0 s.eng.engs e = 2 then .skip
  else .all [
    log { src := srcHang, cause := 0x531, sev := 2, status := stTimeout, obj0 := e, link := link, sample := some s.log.nextSample },
    samplePut (s.sampleOf e c 1),
    .eff (.engSt e 1), health (objEngine e) 9,
    Prog.each (engCtxs e) (fun i => resetCtx i rid),
    .eff (.engResets e ts),
    engResetCheck e,
    Prog.when (decide (s.r F.CROWN_WDT_CTRL.RESET_LIMIT [] < ts.length)) (engineOffline e rid)]

/-- The owner of a knot as OBJ1 of a watchdog record names it (R501). -/
def State.ownerWord (s : State) (n : Nat) : Nat :=
  if s.rb F.KNOT.OWNER_CTX_EN [n] then 2 ^ 31 + s.r F.KNOT.OWNER_CTX [n] else (s.knotPart n).getD 0

/-- The knots of a context's pending waits. -/
def State.waitsOf (s : State) (c : Nat) : List Nat := (s.opsOf c).filterMap (fun e => if e.2.kind = .knotWait then some e.2.a else none)

/-- A knot is a tier-fetch knot whose fetch deadline has not passed (R349). -/
def State.tierFetch (s : State) (n : Nat) : Bool :=
  s.pool.prefetch.any (fun f => decide (s.time.now < f.deadline) &&
    (match s.aop f.op with | none => false | some p => decide (p.knot = some n) && !p.dead))

/-- CTX_WATCHDOG_EXPIRY (R498 to R501): a READY context has issued nothing for the context watchdog. It is recorded with the knot it waits on and that
knot's owner, sampled and reset; more resets on its engine than RESET_LIMIT reset the engine. While each of its waits is on a tier-fetch knot whose
deadline has not passed, the monitor does not count (R349). Once a switch reset has begun, no lower level acts.
[Marks: DESIGN CHOICE, log entry 12; DESIGN CHOICE, log entry 43.] -/
def execCtxWatchdogExpiry (c : Nat) (s : State) : Host.Outcome State Fault Refusal := run s <|
  let x := s.ctx c
  let ws := s.waitsOf c
  let act := s.rb F.CROWN_WDT_CTRL.CTX_EN []
  let rid := s.nextRid srcHang
  let e := ctxEng c
  let ts := s.recent (SMap.get [] s.log.ctxResets e) (s.r F.CROWN_WDT_ENG.US [])
  let link := match ws with
    | n :: _ => if s.rb F.KNOT.OWNER_CTX_EN [n] then s.lastSev2 (s.r F.KNOT.OWNER_CTX [n]) else 0
    | [] => 0
  if x.st ≠ .ready ∨ (!ws.isEmpty && ws.all s.tierFetch) ∨ s.boot.pend.isSome then .skip
  else .all [
    log { src := srcHang, cause := 0x530, sev := if act then 2 else 0, status := if act then stTimeout else 0, ctx := some c, part := some x.part, pc := x.pc, link := link
          obj0 := ws.headD (2 ^ 64 - 1), obj1 := match ws with | n :: _ => s.ownerWord n | [] => 0
          sample := if act then some s.log.nextSample else none },
    Prog.when act (.all [
      samplePut (s.sampleOf e c 0),
      .eff (.ctxResets e ts),
      resetCtx c rid,
      Prog.when (decide (s.r F.CROWN_WDT_CTRL.RESET_LIMIT [] < ts.length)) (engineReset e rid)])]

/-- ENGINE_WATCHDOG_EXPIRY (R498): an engine with a READY context or an instruction in flight has completed nothing for the engine watchdog. -/
def execEngineWatchdogExpiry (e : Nat) (s : State) : Host.Outcome State Fault Refusal := run s <|
  if (engCtxs e).all (fun c => decide ((s.ctx c).st ≠ .ready) && (s.opsOf c).isEmpty) ∨ s.boot.pend.isSome then .skip
  else if s.rb F.CROWN_WDT_CTRL.ENG_EN [] then engineReset e 0
  else log { src := srcHang, cause := 0x531, sev := 0, obj0 := e }

/-- CONTEXT_RESET_TIMEOUT (R500): a context reset that has not completed within 1 ms resets the engine. -/
def execContextResetTimeout (c : Nat) (s : State) : Host.Outcome State Fault Refusal := run s <|
  if (s.ctx c).resetting ∧ SMap.get 0 s.eng.engs (ctxEng c) = 0 ∧ s.boot.pend.isNone then engineReset (ctxEng c) 0 else .skip

/-- ENGINE_RESET_TIMEOUT (R500): an engine reset that has not completed within 1 ms takes the engine offline. -/
def execEngineResetTimeout (e : Nat) (s : State) : Host.Outcome State Fault Refusal := run s <|
  if SMap.get 0 s.eng.engs e = 1 ∧ s.boot.pend.isNone then engineOffline e 0 else .skip

/-! ### Issue credit (R216) -/

/-- ISSUE_CREDIT_REFILL (R216): the matrix and vector credits of every engine gain D, up to 128. -/
def execIssueCreditRefill (s : State) : Host.Outcome State Fault Refusal := run s <|
  let d := s.r F.PWR_STATUS.DUTY []
  .all [
    Prog.each s.eng.mcred (fun e => .eff (.mcred e.1 (min 128 (e.2 + d)))),
    Prog.each s.eng.vcred (fun e => .eff (.vcred e.1 (min 128 (e.2 + d))))]

/-! ### Fencing of engines (R521) -/

/-- ENG_FENCE_COMMAND (R521): CROWN_ENG_FENCE GO. FENCE = 1 clears an engine from SPL_ENG_AVAIL and marks it; its contexts that are PARKED, DONE or
FAULTED are freed, the others when they next reach such a state. FENCE = 0 returns it. On an engine that is offline it completes WRONG_STATE.
[Marks: DESIGN CHOICE, log entry 43.] -/
def execEngFenceCommand (s : State) : Host.Outcome State Fault Refusal := run s <|
  let e := s.r F.CROWN_ENG_FENCE.ENGINE []
  let f := s.rb F.CROWN_ENG_FENCE.FENCE []
  let off := s.engOff e
  if s.rb F.CROWN_ENG_FENCE.GO [] then .skip
  else .all [
    Prog.when (!off) (.all [
      setAvail e (!f), wr F.CROWN_HEALTH.FENCED [objEngine e] (b2n f),
      log { src := srcCrown, cause := 0x902, sev := 0, obj0 := e, obj1 := b2n f },
      Prog.when f (Prog.each (engCtxs e) (fun c =>
        if (s.ctx c).st = .parked ∨ (s.ctx c).st = .done ∨ (s.ctx c).st = .faulted then freeCtx c else .skip))]),
    wr F.CROWN_ENG_FENCE.RESULT [] (if off then 4 else 0), wr F.CROWN_ENG_FENCE.DONE [] 1]

end Sys2Proof.Machine
end

