-- ==== Sys2Proof/Machine/Place.lean ====
section
/-! DEFINITION. Placement of contexts on engines (R200 to R203, R213): which engine an instance fits on, and all COUNT instances or none. -/
namespace Sys2Proof.Machine
open Sys2Proof

/-- What one instance needs: tiles, a check-value slot, scratch and cluster granules, code granules, whether its cluster window is shared, and the program whose
code region it uses. -/
structure Need where
  atiles : Nat
  chk : Bool
  scr : Nat
  clu : Nat
  code : Nat
  shared : Bool
  prog : Nat
  deriving DecidableEq, Repr

/-- Where an instance lies: context, scratch and cluster granules, and the code region that is made for it. -/
structure Spot where
  ctx : Nat
  scr : Nat
  clu : Nat
  code : Option Nat
  deriving DecidableEq, Repr

/-- Service program. -/
def kernSvc : Nat := 4098

/-- The first run of n free granules among a number of them.
[Marks: DEDUCED, log entry 41.] -/
def freeRun (total : Nat) (used : List Region) (n : Nat) : Option Nat :=
  if n = 0 then some 0
  else (List.range (total + 1 - n)).find? (fun b => used.all (fun u => decide (b + n ≤ u.base) || decide (u.base + u.size ≤ b)))

/-- Key of a code region. -/
def codeKey (cl prog : Nat) : Nat := cl * 8192 + prog

/-- Cluster granules in use: windows and code regions. -/
def State.cluUsed (s : State) (cl : Nat) : List Region :=
  (s.placedIn cl).map (fun c => { base := (s.ctx c).cluBase, size := (s.ctx c).cluSize }) ++
  s.eng.code.filterMap (fun e => if e.1 / 8192 = cl then e.2 else none)

/-- Where an instance fits in the FREE context c of its engine; `win` is the window that instances of the same placement share on the cluster (R213). -/
def State.fitAt (s : State) (n : Need) (win : Option Nat) (c : Nat) : Option Spot :=
  let e := c / 8
  let cl := e / 4
  let on := s.placedOn e
  if 16 < (on.map (fun d => (s.ctx d).atiles)).sum + n.atiles then none
  else if n.chk ∧ 8 ≤ (s.placedIn cl).countP (fun d => (s.ctx d).chkSlot) then none
  else match freeRun 32 (on.map (fun d => { base := (s.ctx d).scrBase, size := (s.ctx d).scrSize })) n.scr with
    | none => none
    | some a =>
      let used := s.cluUsed cl
      match (match win with | some w => some w | none => freeRun 128 used n.clu) with
      | none => none
      | some w =>
        if (SMap.get none s.eng.code (codeKey cl n.prog)).isSome then some { ctx := c, scr := a, clu := w, code := none }
        else (freeRun 128 ({ base := w, size := n.clu } :: used) n.code).map (fun g => { ctx := c, scr := a, clu := w, code := some g })

/-- The FREE contexts of an engine. -/
def State.freeCtxs (s : State) (e : Nat) : List Nat := (engCtxs e).filter (fun c => !(s.ctx c).placed)

/-- The fitting engine with the most FREE contexts, the lowest number among equals (R213). -/
def State.bestSpot (s : State) (n : Need) (wins : SMap (Option Nat)) (mask : Nat) : Option Spot :=
  ((List.range 512).foldl (fun best e =>
    let f := s.freeCtxs e
    let more := match best with | none => true | some b => decide (b.1 < f.length)
    if !(bit mask (e / 64) && s.engAvail e && more) then best
    else match f with
      | [] => best
      | c :: _ => match s.fitAt n (if n.shared then SMap.get none wins (e / 4) else none) c with
        | some p => some (f.length, p)
        | none => best) (none : Option (Nat × Spot))).map (·.2)

/-- The updates that place an instance at a spot: its code region, its window filled with zeros, and the context, still FREE until its zeroing ends (R202,
R203). -/
def Need.effects (n : Need) (x : Ctx) (p : Spot) : List Eff :=
  let cl := ctxClu p.ctx
  let lo := cl * 2 ^ 23 + p.clu * 65536
  (match p.code with | some g => [Eff.code (codeKey cl n.prog) (some { base := g, size := n.code })] | none => []) ++
  [.cluZero lo (lo + n.clu * 65536),
   .ctx p.ctx { x with prog := n.prog, atiles := n.atiles, chkSlot := n.chk, scrBase := p.scr, scrSize := n.scr, cluBase := p.clu, cluSize := n.clu
                       zero := some (if x.mode then .park else .start) }]

/-- The state after a list of updates. -/
def State.after (s : State) (es : List Eff) : State := es.foldl (fun t e => e.apply t) s

/-- All instances placed one after another, each at the spot that `pick` finds: the updates and the contexts, or none. The list gives the contexts as they are to
start.
[Marks: DEDUCED, log entry 41.] -/
def placeAll (pick : State → SMap (Option Nat) → Option Spot) (n : Need) : List Ctx → SMap (Option Nat) → State → Option (List Eff × List Nat)
  | [], _, _ => some ([], [])
  | x :: xs, wins, s =>
    match pick s wins with
    | none => none
    | some p =>
      let es := n.effects x p
      match placeAll pick n xs (if n.shared ∧ 0 < n.clu then SMap.set none wins (ctxClu p.ctx) (some p.clu) else wins) (s.after es) with
      | none => none
      | some r => some (es ++ r.1, p.ctx :: r.2)

/-- The updates of a placement are made, and the zeroing of every placed context starts, its registers at their placement values (R202, R213, R222). -/
def doPlace (r : List Eff × List Nat) : Prog := .all [
  Prog.each r.1 (fun e => .eff e),
  Prog.each r.2 (fun c => .seq (rd fun s => startZero c .free (if (s.ctx c).mode then .park else .start))
    (rd fun s => .eff (.ctx c ((s.ctx c).fresh (s.entryOf (s.ctx c))))))]

end Sys2Proof.Machine
end

