-- ==== Sys2Proof/Machine/Programs.lean ====
section
/-! DEFINITION. Program commands (R209 to R215, R217, R218, R221): the command slots, finalization of an image, placement, and the commands on contexts. -/
namespace Sys2Proof.Machine
open Sys2Proof

/-! ### Command slots (R211, R212, R221) -/

/-- BAD_OPCODE and the other results of R212. -/
def pgDone : Nat := 0x00
/-- Reserved opcode. -/
def pgBadOpcode : Nat := 0x01
/-- A field is out of range. -/
def pgBadArg : Nat := 0x02
/-- Not every instance fits, or the program table is full. -/
def pgNoResource : Nat := 0x03
/-- The context or program is in a state that does not allow the command. -/
def pgWrongState : Nat := 0x04
/-- A switch reset ended the command. -/
def pgAborted : Nat := 0x07
/-- The image failed a check of R210. -/
def pgBadImage : Nat := 0x10
/-- The image needs a higher QPC level. -/
def pgLevel : Nat := 0x11
/-- Not allowed from this slot or on this object. -/
def pgDenied : Nat := 0x12

/-- Command word w of a slot, of the Crown block or of a partition view. -/
def State.slotWord (s : State) (view : Option Nat) (slot w : Nat) : Nat :=
  match view with
  | none => s.r F.CROWN_PROG.CMD [slot, w]
  | some p => s.r F.VIEW_PROG.CMD [p, slot, w]

/-- Two command words as one 64-bit value. -/
def State.slotPair (s : State) (view : Option Nat) (slot w : Nat) : Nat := s.slotWord view slot w + s.slotWord view slot (w + 1) * 2 ^ 32

/-- A field of a slot's control register written. -/
def slotWr (view : Option Nat) (slot : Nat) (h v : Fld) (x : Nat) : Prog :=
  match view with
  | none => wr h [slot] x
  | some p => wr v [p, slot] x

/-- A command completes: response words, RESULT and DONE, the interrupt, and a record of a result other than DONE (R113, R212, R529). -/
def slotDone (view : Option Nat) (slot res : Nat) (rsp : Option Nat) (part : Option Nat) : Prog := rd fun s =>
  let w0 := s.slotWord view slot 0
  let word (i v : Nat) : Prog := match view with
    | none => wr F.CROWN_PROG.RSP [slot, i] v
    | some p => wr F.VIEW_PROG.RSP [p, slot, i] v
  .all [
    word 0 (w0 / 2 ^ 16 * 2 ^ 16), Prog.opt rsp (word 1),
    slotWr view slot F.CROWN_PROG.RESULT F.VIEW_PROG.RESULT res,
    slotWr view slot F.CROWN_PROG.DONE F.VIEW_PROG.DONE 1,
    slotWr view slot F.CROWN_PROG.GO F.VIEW_PROG.GO 0,
    Prog.when (decide (res ≠ pgDone)) (log { src := srcCrown, cause := if res = pgBadImage ∨ res = pgLevel then 0x551 else 0x550, sev := 0
                                             obj0 := w0 % 256, obj1 := res, part := part }),
    msix (match view with | none => 0 | some p => 8 + p)]

/-- GO of a command slot whose opcode is the row's; the view of a FREE partition ignores writes (R221, R528). `body` gives the command's effect and completes it with
the result, the response and the partition.
[Marks: DESIGN CHOICE, log entry 10.] -/
def slotGo (test : Nat → Bool) (view : Option Nat) (slot : Nat) (body : (Nat → Option Nat → Option Nat → Prog) → Prog) : Prog := rd fun s =>
  let there : Bool := match view with
    | none => decide (slot < 4)
    | some p => decide (p < 16 ∧ slot < 2) && decide (s.partSt p ≠ ptFree)
  let busy := match view with
    | none => s.rb F.CROWN_PROG.GO [slot]
    | some p => s.rb F.VIEW_PROG.GO [p, slot]
  if there && !busy && test (s.slotWord view slot 0 % 256) then body (fun res rsp part => slotDone view slot res rsp part) else .skip

/-- PROG_RESERVED_OPCODE (R211): a reserved opcode completes BAD_OPCODE. -/
def execProgReservedOpcode (view : Option Nat) (slot : Nat) (s : State) : Host.Outcome State Fault Refusal := run s <|
  slotGo (fun o => !([1, 2, 3, 4, 5, 6, 7, 0x10, 0x11].contains o)) view slot fun fin => fin pgBadOpcode none view

/-! ### Finalization (R209, R210, R253, R254) -/

/-- Bytes that Crown firmware reads for a partition with its access rules (R210, R261): none where the read is not allowed or fails. `far` are the bytes that another
switch of the stage returned.
[Marks: DEDUCED, log entry 23.] -/
def State.firmwareRead (s : State) (p a n : Nat) (t : TierRead) (far : List Byte) : Option (List Byte) :=
  if n = 0 then some []
  else if ¬ s.rb F.SPL_PART_ACCESS.VALID [0, p] ∨ a / 2 ^ 52 = 0xFFF ∨ a / 2 ^ 52 ≠ s.r F.FELT_STAGE.STAGE_ID [] then none
  else if s.rights (s.r F.SPL_PART_ACCESS.CLEAT_TAG [0, p]) p a n 1 false ≠ .ok then none
  else match s.look tagLocation a with
    | .hit e =>
      if e.kind = 9 then (if far.length = n then some far else none)
      else if e.kind ≠ 8 ∨ e.hi < a + n - 1 then none
      else
        let x := s.ext (e.result % 2 ^ 20)
        if x.part ≠ p ∨ x.gate.isSome ∨ ¬ s.rb F.TIER_CTRL.TIER_EN [] then none
        else if s.readAccs t (s.readRanges x (a % 2 ^ 52) n) ≠ .ok then none
        else match s.readBytes x (a % 2 ^ 52) n far with
          | .ok bs => some bs
          | .error _ => none
    | _ => none

/-- The bytes from an offset on replaced. -/
def patch (bs : List Byte) (o : Nat) (new : List Byte) : List Byte := bs.take o ++ new ++ bs.drop (o + new.length)

/-- The instruction starts of code, with the opcode at each, where every instruction is a valid encoding and no static target lies outside (R210 step 4). The first
argument bounds the instructions; the rest of the code, its offset and its size follow.
[Marks: DEDUCED, log entry 41.] -/
def decodeCode (atiles handles : Nat) : Nat → List Byte → Nat → Nat → Option (List (Nat × Nat))
  | 0, _, _, _ => some []
  | k + 1, bs, off, size =>
    if bs.isEmpty then some []
    else
      let i := Ins.ofWord (leAt bs 0 8) (leAt bs 8 8)
      let target := match i.target off with
        | none => true
        | some t => decide (0 ≤ t) && decide (t < (size : Int))
      if i.valid atiles handles && decide (i.len ≤ bs.length) && target then
        (decodeCode atiles handles k (bs.drop i.len) (off + i.len) size).map (fun l => (off, i.op) :: l)
      else none

/-- One relocation entry applied to the code (R209, R253): none where it fails.
[Marks: DEDUCED, log entry 41.] -/
def State.relocate (s : State) (p : Nat) (ops : List (Nat × Nat)) (binds : List Byte) (code : List Byte) (e : Nat) : Option (List Byte) :=
  let off := e % 2 ^ 32
  let ix := e / 2 ^ 40
  match ops.find? (fun o => o.1 = off), bits e 32 8 with
  | some _, 1 => if ix < s.r F.KNOT_SLICE.COUNT [p] then some (patch code off (leBytes 2 (s.r F.KNOT_SLICE.BASE [p] + ix))) else none
  | some _, 2 => (match SMap.get none s.eng.progs ix with
    | some g => if g.part = p then some (patch code off (leBytes 2 ix)) else none
    | none => none)
  | some o, 3 => if o.2 = 0x02 ∧ 8 * ix + 8 ≤ binds.length then some (patch code (off + 8) ((binds.drop (8 * ix)).take 8)) else none
  | _, _ => none

/-- Relocation entries one after another. -/
def State.relocateAll (s : State) (p : Nat) (ops : List (Nat × Nat)) (binds : List Byte) : List Nat → List Byte → Option (List Byte)
  | [], code => some code
  | e :: es, code => match s.relocate p ops binds code e with
    | none => none
    | some c => s.relocateAll p ops binds es c

/-- An image finalized for a partition, or the result with which PROG_LOAD completes (R210 steps 2 to 5). `binds` is the binding table, where it could be read.
[Marks: DEDUCED, log entry 41.] -/
def State.finalize (s : State) (p : Nat) (img : List Byte) (binds : Option (List Byte)) : Except Nat Prg :=
  let cb := leAt img 12 4
  let nr := leAt img 20 4
  let fl := leAt img 24 2
  let at' := byteAt img 5
  let kh := byteAt img 7
  let body := (img.drop 64).take (cb + 8 * nr)
  let fields := decide (leAt img 0 4 = 0x31465051) && decide (1 ≤ byteAt img 4 ∧ at' ≤ 8 ∧ byteAt img 6 ≤ 1 ∧ kh ≤ 8) &&
    decide (1 ≤ leAt img 8 2 ∧ leAt img 8 2 ≤ 32 ∧ leAt img 10 2 ≤ 128) && decide (cb % 8 = 0 ∧ 8 ≤ cb ∧ cb ≤ 2 ^ 20) &&
    decide (leAt img 16 4 % 8 = 0 ∧ leAt img 16 4 < cb ∧ nr ≤ 65536 ∧ fl < 4 ∧ leAt img 26 6 = 0) && decide (64 + cb + 8 * nr ≤ img.length)
  if ¬ fields then .error pgBadImage
  else if sha256 body ≠ (img.drop 32).take 32 then .error pgBadImage
  else if bit fl 1 then .error pgDenied
  else if 3 < byteAt img 4 then .error pgLevel
  else
    let code := body.take cb
    let rel := (List.range nr).map (fun j => leAt body (cb + 8 * j) 8)
    match decodeCode at' kh (cb / 8 + 1) code 0 cb with
    | none => .error pgBadImage
    | some ops =>
      let bound := ops.all (fun o => decide (o.2 ≠ 0xA0) || rel.any (fun e => decide (e % 2 ^ 40 = o.1 + 2 ^ 32)))
      let needs := rel.any (fun e => decide (bits e 32 8 = 3))
      if ¬ bound ∨ (needs ∧ binds.isNone) then .error pgBadImage
      else match s.relocateAll p ops (binds.getD []) rel code with
        | none => .error pgBadImage
        | some c => .ok {
            part := p, level := byteAt img 4, atiles := at', chkSlots := byteAt img 6, handles := kh, scr := leAt img 8 2, clu := leAt img 10 2
            entry := leAt img 16 4, shared := bit fl 0, service := false, code := c, starts := ops.map (·.1)
            digest := (img.drop 32).take 32 }

/-- The loaded programs. -/
def State.programs (s : State) : List (Nat × Prg) := s.eng.progs.filterMap (fun e => e.2.map (fun g => (e.1, g)))

/-- PROG_LOAD (R210): an image is read with the partition's access rules, finalized and given the lowest free PROG_ID. `far` and `farBind` are the bytes of the image
and of the binding table that another switch of the stage returned.
[Marks: DEDUCED, log entry 41.] -/
def execProgLoad (view : Option Nat) (slot : Nat) (t : TierRead) (far farBind : List Byte) (s : State) : Host.Outcome State Fault Refusal := run s <|
  slotGo (fun o => decide (o = 1)) view slot fun fin => rd fun s =>
    let w := s.slotWord view slot
    let p := match view with | some v => v | none => bits (w 1) 20 4
    let fin' (res : Nat) : Prog := fin res none (some p)
    if 4096 < w 7 then fin' pgBadArg
    else if s.partSt p ≠ ptActive then fin' pgWrongState
    else match s.firmwareRead p (s.slotPair view slot 2) (w 4) t far with
      | none => fin' pgBadImage
      | some img => match s.finalize p img (s.firmwareRead p (s.slotPair view slot 5) (8 * w 7) .ok farBind) with
        | .error r => fin' r
        | .ok g =>
          let id := SMap.freshFrom 0 s.eng.progs
          if 4096 ≤ s.programs.length ∨ 1024 ≤ s.programs.countP (fun e => e.2.part = p) then fin' pgNoResource
          else .all [.eff (.prg id (some g)), fin pgDone (some id) (some p)]

/-- A knot in service names a program of its partition as TRIG_PROG (R215, R357). -/
def State.namedByKnot (s : State) (pid part : Nat) : Bool :=
  s.knotsIn.any (fun n => s.rb F.KNOT.VALID [n] && s.rb F.KNOT.TRIG_EN [n] && decide (s.r F.KNOT.TRIG_PROG [n] = pid) &&
    decide (s.knotPart n = some part))

/-- The contexts placed with a program. -/
def State.ctxsOf (s : State) (pid : Nat) : List Nat :=
  (SMap.keys s.eng.ctxs).filter (fun c => (s.ctx c).placed && decide ((s.ctx c).prog = pid))

/-- A command that names a program of the table: BAD_ARG where there is none, DENIED from the view of another partition (R211).
[Marks: DEDUCED, log entry 41.] -/
def withProg (s : State) (view : Option Nat) (pid : Nat) (fin : Nat → Option Nat → Option Nat → Prog) (go : Prg → Prog) : Prog :=
  match SMap.get none s.eng.progs pid with
  | none => fin pgBadArg none view
  | some g => if view.isSome ∧ view ≠ some g.part then fin pgDenied none view else go g

/-- PROG_UNLOAD (R215): a program that no context is placed with and no knot names is removed. -/
def execProgUnload (view : Option Nat) (slot : Nat) (s : State) : Host.Outcome State Fault Refusal := run s <|
  slotGo (fun o => decide (o = 2)) view slot fun fin => rd fun s =>
    let pid := s.slotWord view slot 1 % 4096
    withProg s view pid fin fun g =>
      if (s.ctxsOf pid).isEmpty ∧ ¬ s.namedByKnot pid g.part then .all [.eff (.prg pid none), fin pgDone none (some g.part)]
      else fin pgWrongState none (some g.part)

/-! ### Placement (R213) -/

/-- What an instance of a program needs. -/
def Prg.need (g : Prg) (pid : Nat) : Need :=
  { atiles := g.atiles, chk := decide (g.chkSlots = 1), scr := g.scr, clu := g.clu, code := cdiv g.code.length 65536, shared := g.shared, prog := pid }

/-- PROG_PLACE (R213): all COUNT instances are placed, or none. A view that names a context of another partition, or a service context, gets DENIED (R211, R217).
[Marks: DEDUCED, log entry 41.] -/
def execProgPlace (view : Option Nat) (slot : Nat) (s : State) : Host.Outcome State Fault Refusal := run s <|
  slotGo (fun o => decide (o = 3)) view slot fun fin => rd fun s =>
    let w := s.slotWord view slot
    let pid := w 1 % 4096
    withProg s view pid fin fun g =>
      let n := w 2 % 2 ^ 13
      let ex := bit (w 3) 10
      let args := [s.slotPair view slot 5, s.slotPair view slot 7, s.slotPair view slot 9]
      let mask := w 3 % 256
      let c := w 4 % 4096
      let pick (t : State) (wins : SMap (Option Nat)) : Option Spot :=
        if ex then (if bit mask (ctxDie c) && t.engAvail (ctxEng c) && !(t.ctx c).placed then t.fitAt (g.need pid) none c else none)
        else t.bestSpot (g.need pid) wins mask
      let denied := view.isSome && ex && decide ((s.ctx c).st ≠ .free) && (decide (view ≠ some (s.ctx c).part) || (s.ctx c).svc)
      let mk (i : Nat) : Ctx := { part := g.part, prog := pid, inst := i, count := n, args := args, mode := bit (w 3) 8, autoRearm := bit (w 3) 9 }
      if n = 0 ∨ 4096 < n ∨ (ex ∧ n ≠ 1) then fin pgBadArg none (some g.part)
      else if denied then fin pgDenied none (some g.part)
      else if s.partSt g.part ≠ ptActive then fin pgWrongState none (some g.part)
      else match placeAll pick (g.need pid) ((List.range n).map mk) [] s with
        | none => fin pgNoResource none (some g.part)
        | some r => .all [doPlace r, fin pgDone (some n) (some g.part)]

/-! ### Commands on contexts (R214, R215) -/

/-- What a context state makes of CTX_STOP, CTX_RESUME, CTX_RESET and CTX_FREE (opcodes 4 to 7): no effect, an effect, or WRONG_STATE. -/
def ctxAllows (op : Nat) (st : CtxState) : Option Bool :=
  match op, st with
  | _, .free => none
  | 4, .ready | 4, .parked => some true
  | 4, _ => some false
  | 5, .stopped => some true
  | 5, .ready | 5, .parked => some false
  | 6, .done | 6, .faulted | 6, .stopped => some true
  | 7, .done | 7, .faulted | 7, .stopped | 7, .parked => some true
  | _, _ => none

/-- A command on contexts: one, or all of a program. It acts on all of them or, where the state of one does not allow it, on none (R211, R212, R215).
[Marks: DEDUCED, log entry 41.] -/
def ctxCommand (op : Nat) (view : Option Nat) (slot : Nat) (act : Nat → Prog) : Prog :=
  slotGo (fun o => decide (o = op)) view slot fun fin => rd fun s =>
    let w := s.slotWord view slot
    let go (cs : List Nat) (part : Option Nat) : Prog :=
      if cs.any (fun c => (ctxAllows op (s.ctx c).st).isNone) then fin pgWrongState none part
      else .all [Prog.each (cs.filter (fun c => decide (ctxAllows op (s.ctx c).st = some true))) act, fin pgDone none part]
    if bit (w 1) 16 then
      let pid := w 2 % 4096
      withProg s view pid fin fun g => go ((s.ctxsOf pid).filter (fun c => decide ((s.ctx c).st ≠ .free))) (some g.part)
    else
      let c := w 1 % 4096
      let x := s.ctx c
      if view.isSome ∧ x.st ≠ .free ∧ (view ≠ some x.part ∨ x.svc) then fin pgDenied none view
      else go [c] (if x.st = .free then view else some x.part)

/-- A context stops at its instruction boundary; it keeps whether it was PARKED. -/
def stopCtx (c : Nat) : Prog := rd fun s => .eff (.ctx c { s.ctx c with st := .stopped, wasParked := decide ((s.ctx c).st = .parked) })

/-- A STOPPED context returns to READY, or to PARKED where it was PARKED before; one of a fenced engine that reaches PARKED is freed (R521). -/
def resumeCtx (c : Nat) : Prog := rd fun s =>
  let x := s.ctx c
  if x.wasParked then
    if s.rb F.CROWN_HEALTH.FENCED [ctxEng c] then freeCtx c
    else .all [.eff (.order (s.eng.order + 1)), .eff (.ctx c { x with st := .parked, parkedAt := s.eng.order + 1 })]
  else .all [.eff (.ctx c { x with st := .ready, monAt := s.time.now }), haltCheck c]

/-- A context is zeroed and restarted at ENTRY in its placed mode; the knots it owns break (R214, R358). -/
def restartCtx (c : Nat) : Prog := rd fun s =>
  .all [killOps c, breakOwned c 0, if (s.ctx c).mode then startZero c .parked .park else startZero c .ready .start]

/-- CTX_STOP (R215). -/
def execCtxStop (view : Option Nat) (slot : Nat) (s : State) : Host.Outcome State Fault Refusal := run s (ctxCommand 4 view slot stopCtx)

/-- CTX_RESUME (R215). -/
def execCtxResume (view : Option Nat) (slot : Nat) (s : State) : Host.Outcome State Fault Refusal := run s (ctxCommand 5 view slot resumeCtx)

/-- CTX_RESET (R214). -/
def execCtxReset (view : Option Nat) (slot : Nat) (s : State) : Host.Outcome State Fault Refusal := run s (ctxCommand 6 view slot restartCtx)

/-- CTX_FREE (R215). -/
def execCtxFree (view : Option Nat) (slot : Nat) (s : State) : Host.Outcome State Fault Refusal := run s (ctxCommand 7 view slot freeCtx)

/-! ### The compatibility service mode (R94 to R96, R217, R218) -/

/-- What an instance of the service program needs (R217), which fits an engine and a cluster that hold nothing else: at most 16 tiles, 32 scratch granules, and 128 cluster granules for its
window and its code (R200 to R203).
[Marks: DESIGN CHOICE, log entry 8.] -/
def svcNeed : Need :=
  { atiles := Config.serviceNeeds 0 % 17, chk := false, scr := Config.serviceNeeds 1 % 33, clu := Config.serviceNeeds 2 % 65, code := Config.serviceNeeds 3 % 64, shared := false, prog := kernSvc }

/-- Context 7 of the first engine of a die where it is FREE and the service program fits.
[Marks: DESIGN CHOICE, log entry 42.] -/
def State.svcSpot (s : State) (die : Nat) : Option Spot :=
  (rangeFrom (64 * die) 64).findSome? (fun e => if s.engAvail e && !(s.ctx (8 * e + 7)).placed then s.fitAt svcNeed none (8 * e + 7) else none)

/-- The service mode of a partition. -/
def State.svcMode (s : State) (p : Nat) : Svc := SMap.get {} s.eng.svc p

/-- The service contexts of a partition are freed and its service requests end unanswered (R218).
[Marks: DESIGN CHOICE, log entry 42.] -/
def svcOff (p : Nat) : Prog := rd fun s => .all [
  Prog.each (s.reqsWith (fun q => decide (q.part = p) && decide (0x30 ≤ q.op))) (fun e => dropReq e.1),
  Prog.each (s.svcCtxs p) freeCtx,
  .eff (.svc p { s.svcMode p with on := false, draining := false })]

/-- SVC_ENABLE (R217): service contexts are reserved, n / 8 on each die, and placed with SVC = 1 in state READY.
[Marks: DESIGN CHOICE, log entry 42.] -/
def execSvcEnable (view : Option Nat) (slot : Nat) (s : State) : Host.Outcome State Fault Refusal := run s <|
  slotGo (fun o => decide (o = 0x10)) view slot fun fin => rd fun s =>
    let w := s.slotWord view slot
    let p := bits (w 1) 20 4
    let n := w 2 % 256
    let mk (i : Nat) : Ctx := { part := p, inst := i, count := n, svc := true }
    let pick (t : State) (_ : SMap (Option Nat)) : Option Spot :=
      t.svcSpot ((t.eng.ctxs.countP (fun e => e.2.svc && decide (e.2.part = p) && decide (e.2.st = .free) && decide (e.2.zero = some .start))) % 8)
    let ix := s.slotPair none slot 3
    let da := s.slotPair none slot 5
    let old := s.svcMode p
    if view.isSome then fin pgDenied none view
    else if n < 8 ∨ 128 < n ∨ n % 8 ≠ 0 then fin pgBadArg none (some p)
    else if s.partSt p ≠ ptActive ∨ old.on then fin pgWrongState none (some p)
    else match placeAll pick svcNeed ((List.range n).map mk) [] s with
      | none => fin pgNoResource none (some p)
      | some r => .all [doPlace r,
          .eff (.svc p (if old.index = ix ∧ old.data = da then { old with on := true } else { on := true, index := ix, data := da })),
          fin pgDone none (some p)]

/-- SVC_DISABLE (R218): new service requests are refused and open ones may finish.
[Marks: DESIGN CHOICE, log entry 42.] -/
def execSvcDisable (view : Option Nat) (slot : Nat) (s : State) : Host.Outcome State Fault Refusal := run s <|
  slotGo (fun o => decide (o = 0x11)) view slot fun fin => rd fun s =>
    let p := bits (s.slotWord view slot 1) 20 4
    let x := s.svcMode p
    if view.isSome then fin pgDenied none view
    else if ¬ x.on then fin pgWrongState none (some p)
    else .all [.eff (.svc p { x with draining := true }), fin pgDone none (some p)]

/-- SVC_DISABLE_TIMEOUT (R218): 1 ms after SVC_DISABLE the service contexts are freed and requests still open are not answered.
[Marks: DESIGN CHOICE, log entry 42.] -/
def execSvcDisableTimeout (p : Nat) (s : State) : Host.Outcome State Fault Refusal := run s <|
  if (s.svcMode p).draining then svcOff p else .skip

/-- NAMESPACE and KEY of a service request as one number (R94). -/
def Req.svcKey (q : Req) : Nat := bits (q.words.getD 2 0) 24 8 * 2 ^ 128 + q.words.getD 0 0 * 2 ^ 64 + q.words.getD 1 0

/-- A service request is performed once its whole body has arrived (R95, R96).
[Marks: DESIGN CHOICE, log entry 42.] -/
def svcReq (r op : Nat) (go : Req → Svc → Prog) : Prog :=
  performReq r op fun q => rd fun s => if q.rcv < q.want then .skip else go q (s.svcMode q.part)

/-- SVC_KV_PUT (R95): a block is stored under a key.
[Marks: DESIGN CHOICE, log entry 42.] -/
def execSvcKvPut (r : Nat) (s : State) : Host.Outcome State Fault Refusal := run s <|
  svcReq r 0x30 fun q v => .all [.eff (.svc q.part { v with kv := SMap.set none v.kv q.svcKey (some q.data) }), respond r stOk []]

/-- The payload of a GET: SVC_LEN bytes of the stored block (R96), free bytes beyond its end; none where no block is stored (R95).
[Marks: DESIGN CHOICE, log entry 42.] -/
def svcBlock (q : Req) (free : Nat) : Option (List Byte) → List Byte
  | none => []
  | some bs => (List.range q.svcLen).map (fun i => bs.getD i (Config.svcPad free i))

/-- SVC_KV_GET (R95): the block under a key, or a zero-length payload.
[Marks: DESIGN CHOICE, log entry 42.] -/
def execSvcKvGet (r : Nat) (s : State) : Host.Outcome State Fault Refusal := run s <|
  svcReq r 0x31 fun q v => rd fun t => .all [.eff .drawFree, respond r stOk (svcBlock q t.free (SMap.get none v.kv q.svcKey))]

/-- SVC_KV_DEL (R95): the block under a key is removed. -/
def execSvcKvDel (r : Nat) (s : State) : Host.Outcome State Fault Refusal := run s <|
  svcReq r 0x32 fun q v => .all [.eff (.svc q.part { v with kv := SMap.set none v.kv q.svcKey none }), respond r stOk []]

/-- The FP32 value of an element of a push (R94, R95).
[Marks: DESIGN CHOICE, log entry 42.] -/
def svcToFp32 (ty v : Nat) : Nat := if ty = 0 then v else fp32.enc 0 ((if ty = 1 then bf16 else fp16).dec v)

/-- The element of a pull for an FP32 value. -/
def svcOfFp32 (ty v : Nat) : Nat := if ty = 0 then v else (if ty = 1 then bf16 else fp16).enc 0 (fp32.dec v)

/-- The key of element i of a push or pull: NAMESPACE, table ID and element index.
[Marks: DESIGN CHOICE, log entry 42.] -/
def Req.psKey (q : Req) (i : Nat) : Nat :=
  bits (q.words.getD 2 0) 24 8 * 2 ^ 128 + q.words.getD 0 0 * 2 ^ 64 + (q.words.getD 1 0 + i) % 2 ^ 64

/-- SVC_PS_PUSH (R95): gradient values are added to the parameter table element by element in FP32. -/
def execSvcPsPush (r : Nat) (s : State) : Host.Outcome State Fault Refusal := run s <|
  svcReq r 0x34 fun q v =>
    let add (ps : SMap Lane) (e : Nat × Nat) : SMap Lane :=
      let k := q.psKey e.2
      SMap.set 0 ps k (BitVec.ofNat 32 (f32Add 0 (SMap.get (0 : Lane) ps k).toNat (svcToFp32 q.svcType e.1)))
    .all [.eff (.svc q.part { v with ps := (elems q.svcElem q.data).zipIdx.foldl add v.ps }), respond r stOk []]

/-- SVC_PS_PULL (R95): parameter values converted to the element type. -/
def execSvcPsPull (r : Nat) (s : State) : Host.Outcome State Fault Refusal := run s <|
  svcReq r 0x35 fun q v => respond r stOk ((List.range q.svcLen).flatMap (fun i =>
    leBytes q.svcElem (svcOfFp32 q.svcType (SMap.get (0 : Lane) v.ps (q.psKey i)).toNat)))

end Sys2Proof.Machine
end

