-- ==== Sys2Proof/Machine/Coll.lean ====
section
/-! DEFINITION. Collective groups (R307 to R323): commit of a group, contributions and fetches, the reduction numerics, delivery, and the end of a
generation. -/
namespace Sys2Proof.Machine
open Sys2Proof

/-- A collective group. -/
def State.coll (s : State) (n : Nat) : Coll := SMap.get {} s.fab.colls n

/-- States of FELT_COLL_STATUS (R341). -/
def clgOff : Nat := 0
/-- IDLE. -/
def clgIdle : Nat := 1
/-- OPEN. -/
def clgOpen : Nat := 2
/-- COMPLETE. -/
def clgComplete : Nat := 3
/-- CLOSING. -/
def clgClosing : Nat := 4
/-- NO_RESOURCE. -/
def clgNoResource : Nat := 5
/-- BAD_CONFIG. -/
def clgBadConfig : Nat := 6

/-- Ranks of a group. -/
def State.collRanks (s : State) (n : Nat) : Nat := s.r F.FELT_COLL.NRANKS_M1 [n] + 1

/-- Bytes of a result granule (R311). -/
def State.collResBytes (s : State) (n : Nat) : Nat := if s.r F.FELT_COLL.RES_FMT [n] ≤ 2 then 64 else 32

/-- A group holds its region. -/
def Coll.holds (x : Coll) : Bool := decide (1 ≤ x.st ∧ x.st ≤ 4)

/-- Cells and exact granules of a group's region (R309). -/
def State.collCells (s : State) (n : Nat) : Nat × Nat :=
  let g := s.r F.FELT_COLL.GRANULES [n]
  if s.r F.FELT_COLL.KIND [n] = 0 ∧ s.r F.FELT_COLL.MODE [n] = 2 then (0, g)
  else (cdiv g 4 + (if s.r F.FELT_COLL.KIND [n] = 0 ∧ s.r F.FELT_COLL.MODE [n] = 1 then s.r F.FELT_COLL.WINDOW_CELLS [n] else 0), 0)

/-- Cells and exact granules that the groups of a test hold. -/
def State.collUsed (s : State) (test : Nat → Bool) : Nat × Nat :=
  ((s.fab.colls.filter (fun e => e.2.holds && test e.1)).map (fun e => s.collCells e.1)).foldl (fun a b => (a.1 + b.1, a.2 + b.2)) (0, 0)

/-- The fields of a group form a combination of R308 and lie in the ranges of R341. -/
def State.collFields (s : State) (n : Nat) : Bool :=
  let r (f : Fld) := s.r f [n]
  let k := r F.FELT_COLL.KIND
  let m := r F.FELT_COLL.MODE
  let fmt := r F.FELT_COLL.FMT
  let res := r F.FELT_COLL.RES_FMT
  let combo : Bool :=
    if k = 0 ∧ m ≤ 1 then [2, 3, 4].contains fmt && [2, 3, 4].contains res
    else if k = 0 ∧ m = 2 then [3, 4, 9, 10].contains fmt && [2, 3, 4].contains res
    else decide (k = 1 ∧ m = 0 ∧ fmt = 1 ∧ res = 1)
  combo && decide (1 ≤ r F.FELT_COLL.NRANKS_M1) && decide (1 ≤ r F.FELT_COLL.GRANULES ∧ r F.FELT_COLL.GRANULES ≤ 4194304) &&
  decide (1 ≤ r F.FELT_COLL.TIMEOUT_US ∧ 1 ≤ r F.FELT_COLL.HOLD_US) &&
  (!s.rb F.FELT_COLL.DELIVER [n] || decide (r F.FELT_COLL.RESULT_ADDR_LO % 64 = 0)) &&
  (!s.rb F.FELT_COLL.DONE_EN [n] || decide (s.knotPart (r F.FELT_COLL.DONE_KNOT) = some (r F.FELT_COLL.PARTITION)))

/-- A group enters the state that its fields in effect call for, its region zeroed and its generation kept (R308, R309, R317).
[Marks: DESIGN CHOICE, log entry 45.] -/
def collEnter (n : Nat) : Prog := rd fun s =>
  let gen := (s.coll n).gen
  let p := s.r F.FELT_COLL.PARTITION [n]
  let need := s.collCells n
  let own := s.collUsed (fun m => decide (m ≠ n) && decide (s.r F.FELT_COLL.PARTITION [m] = p))
  let all := s.collUsed (fun m => decide (m ≠ n))
  let fits := decide (own.1 + need.1 ≤ s.r F.FELT_COLL_CAP.CELLS [p] ∧ own.2 + need.2 ≤ s.r F.FELT_COLL_CAP.EXACT_GRAN [p] ∧
    all.1 + need.1 ≤ s.r F.FELT_COLL_RESERVE.CELLS [] ∧ all.2 + need.2 ≤ 49152)
  if ¬ s.rb F.FELT_COLL.VALID [n] then .eff (.coll n { st := clgOff, gen := gen })
  else if ¬ s.collFields n then .eff (.coll n { st := clgBadConfig, gen := gen })
  else if fits then .eff (.coll n { st := clgIdle, gen := gen })
  else .all [.eff (.coll n { st := clgNoResource, gen := gen }),
    log { src := srcFelt, cause := 0x262, sev := 0, obj0 := n, part := some p }]

/-! ### Numerics (R318 to R321) -/

/-- An exact value added to an accumulator of least significant bit 2^-143 (R320). -/
def Xacc.add (x : Xacc) : FVal → Xacc
  | .nan => { x with nan := true }
  | .inf true => { x with ninf := true }
  | .inf false => { x with pinf := true }
  | .fin neg m e =>
    let t : Nat := m * 2 ^ (e + 143).toNat
    { x with a := if neg then x.a - t else x.a + t }

/-- The result of an exact accumulator, rounded once to nearest even (R320). -/
def Xacc.result (x : Xacc) (f : FFmt) : Nat :=
  if x.nan ∨ (x.pinf ∧ x.ninf) then f.nan
  else if x.pinf then f.inf false
  else if x.ninf then f.inf true
  else if x.a = 0 then f.zero false
  else f.round 0 (decide (x.a < 0)) x.a.natAbs (-143) false

/-- Granules that a contribution of n bytes covers, where its length is allowed (R311). -/
def contribGrans (fmt len gran : Nat) : Option Nat :=
  if len % 64 ≠ 0 ∨ len < 64 ∨ 8192 < len then none
  else if fmt = 1 ∨ fmt = 2 then some (len / 64)
  else if fmt = 3 ∨ fmt = 4 then some (len / 32)
  else if len % 2112 = 0 ∧ gran % 128 = 0 then some (128 * len / 2112)
  else none

/-- The 16 elements of granule j of a contribution as encodings: raw words of a GATHER, FP32 values of a FAST or ORDERED reduction. -/
def contribWords (fmt : Nat) (data : List Byte) (j : Nat) : List Nat :=
  let w := if fmt ≤ 2 then 4 else 2
  (elems w ((data.drop (16 * w * j)).take (16 * w))).map (fun v => if fmt ≤ 2 then v else fp32.enc 0 ((fmtOf fmt).dec v))

/-- The 16 exact values of granule j of a contribution to an EXACT reduction (R311, R320). -/
def contribExact (fmt : Nat) (data : List Byte) (j : Nat) : List FVal :=
  if fmt = 3 ∨ fmt = 4 then (elems 2 ((data.drop (32 * j)).take 32)).map (fmtOf fmt).dec
  else
    let unit := data.drop (2112 * (j / 128))
    (List.range 16).map (fun i =>
      let e := 16 * (j % 128) + i
      let x := byteAt unit (2048 + e / 32)
      if x = 255 then .nan else match mxDec fmt (byteAt unit e) with
        | .nan => .nan
        | .inf neg => .inf neg
        | .val v => .fin (decide (v < 0)) v.natAbs ((x : Int) - 127 - mxScale fmt))

/-- The result of a granule in RES_FMT (R321). -/
def State.granResult (s : State) (n : Nat) (g : Gran) : List Byte :=
  let rf := s.r F.FELT_COLL.RES_FMT [n]
  if rf = 1 then g.f.flatMap (leBytes 4)
  else
    let f := fmtOf rf
    let w := if rf = 2 then 4 else 2
    if s.r F.FELT_COLL.MODE [n] = 2 then g.x.flatMap (fun x => leBytes w (x.result f))
    else g.f.flatMap (fun v => leBytes w (f.enc 0 (fp32.dec v)))

/-- A granule of a group. -/
def Coll.gran (x : Coll) (g : Nat) : Gran := SMap.get {} x.grans g

/-- A granule is complete (R314). -/
def State.granDone (s : State) (n : Nat) (x : Coll) (g : Nat) : Bool :=
  decide ((x.gran g).n = if s.r F.FELT_COLL.KIND [n] = 0 then s.collRanks n else 1)

/-- Granules of a range are complete. -/
def State.gransDone (s : State) (n : Nat) (x : Coll) (g k : Nat) : Bool := (rangeFrom g k).all (s.granDone n x)

/-- Every granule of a group is complete. -/
def State.collDone (s : State) (n : Nat) (x : Coll) : Bool :=
  decide ((x.grans.filter (fun e => s.granDone n x e.1)).length = s.r F.FELT_COLL.GRANULES [n])

/-- Two lists of FP32 encodings added element by element. -/
def addWords (a b : List Nat) : List Nat := List.zipWith (f32Add 0) a b

/-- Key of a value held in the reorder window. -/
def winKey (rank g : Nat) : Nat := rank * 2 ^ 22 + g

/-- The ranks held in the window that follow the fold point of a granule are folded (R319); the first argument bounds them. -/
def foldHeld : Nat → Coll → Nat → Coll
  | 0, x, _ => x
  | k + 1, x, g =>
    let y := x.gran g
    match SMap.get [] x.win (winKey y.n g) with
    | [] => x
    | ws => foldHeld k { x with grans := SMap.set {} x.grans g { y with n := y.n + 1, f := addWords y.f ws }
                                win := SMap.set [] x.win (winKey y.n g) [] } g

/-- Granule j of a contribution of a rank reaches granule g of the region (R318 to R320, R322). -/
def State.addGran (s : State) (n rank : Nat) (data : List Byte) (x : Coll) (g j : Nat) : Coll :=
  let y := x.gran g
  let fmt := s.r F.FELT_COLL.FMT [n]
  let put (z : Gran) : Coll := { x with grans := SMap.set {} x.grans g z }
  if s.r F.FELT_COLL.KIND [n] = 1 then put { n := 1, f := contribWords fmt data j }
  else if s.r F.FELT_COLL.MODE [n] = 2 then
    put { y with n := y.n + 1, x := List.zipWith Xacc.add (if y.n = 0 then List.replicate 16 {} else y.x) (contribExact fmt data j) }
  else
    let ws := contribWords fmt data j
    let here : Gran := { y with n := y.n + 1, f := if y.n = 0 then ws else addWords y.f ws }
    if s.r F.FELT_COLL.MODE [n] = 0 then put here
    else if y.n = rank then foldHeld (s.collRanks n) (put here) g
    else { x with win := SMap.set [] x.win (winKey rank g) ws }

/-! ### Waiting segments and the end of a generation (R315 to R317) -/

/-- COLL_ID, RANK, GEN and GRAN of the collective word (R310). -/
def Req.collId (q : Req) : Nat := bits (q.words.getD 0 0) 52 12
/-- RANK. -/
def Req.collRank (q : Req) : Nat := bits (q.words.getD 0 0) 40 12
/-- GEN. -/
def Req.collGen (q : Req) : Nat := bits (q.words.getD 0 0) 32 8
/-- GRAN. -/
def Req.collGran (q : Req) : Nat := q.words.getD 0 0 % 2 ^ 32
/-- FETCH of SEGCTL. -/
def Req.collFetch (q : Req) : Bool := bit (q.words.getD 1 0) 0
/-- RET. -/
def Req.collRet (q : Req) : Bool := bit (q.words.getD 1 0) 1
/-- REL. -/
def Req.collRel (q : Req) : Bool := bit (q.words.getD 1 0) 2
/-- NGRAN. -/
def Req.collN (q : Req) : Nat := bits (q.words.getD 1 0) 8 24

/-- The RET and fetch segments of a group that wait for their granules. -/
def State.collWaiting (s : State) (n : Nat) : List (Nat × Req) :=
  s.reqsWith (fun q => decide (q.op = 0x20) && decide (q.wait = .other) && decide (q.collId = n))

/-- DONE_KNOT is signalled with a status, where DONE_EN is 1. -/
def doneKnot (n status : Nat) : Prog := rd fun s =>
  Prog.when (s.rb F.FELT_COLL.DONE_EN [n]) (postSignal (s.r F.FELT_COLL.DONE_KNOT [n]) status)

/-- A group moves to CLOSING; result writes still under way no longer count. -/
def collClose (n : Nat) : Prog := rd fun s => .eff (.coll n { s.coll n with st := clgClosing, wr := [], ans := [] })

/-- A generation is aborted: its waiting segments end with a status (R317).
[Marks: DESIGN CHOICE, log entry 45.] -/
def collAbort (n status : Nat) : Prog := rd fun s => .all [
  Prog.each (s.collWaiting n) (fun e => respond e.1 status []),
  count F.FELT_COLL_ABORT_COUNT.COUNT [], collClose n]

/-- A rank releases (R315). -/
def collRelease (n rank : Nat) : Prog := rd fun s =>
  let x := s.coll n
  if x.rel.contains rank then .skip else .eff (.coll n { x with rel := rank :: x.rel })

/-- A FETCH generation that is COMPLETE closes when every rank has released (R315). -/
def collCloseCheck (n : Nat) : Prog := rd fun s =>
  let x := s.coll n
  if x.st = clgComplete ∧ ¬ s.rb F.FELT_COLL.DELIVER [n] ∧ x.rel.length = s.collRanks n ∧ (s.collWaiting n).isEmpty then collClose n else .skip

/-- The result of granules of a group. -/
def State.collResult (s : State) (n g k : Nat) : List Byte := (rangeFrom g k).flatMap (fun i => s.granResult n ((s.coll n).gran i))

/-- Waiting segments whose granules are complete are answered (R315). -/
def serveWaiting (n : Nat) : Prog := rd fun s =>
  Prog.each ((s.collWaiting n).filter (fun e => s.gransDone n (s.coll n) e.2.addr e.2.len)) fun e => .all [
    respond e.1 stOk (s.collResult n e.2.addr e.2.len), Prog.when e.2.collRel (collRelease n e.2.collRank)]

/-! ### Result writes (R316) -/

/-- Ascending numbers cut into runs of consecutive ones: first and length. -/
def runsOf : List Nat → List (Nat × Nat)
  | [] => []
  | a :: as => match runsOf as with
    | (b, k) :: rs => if b = a + 1 then (a, k + 1) :: rs else (a, 1) :: (b, k) :: rs
    | [] => [(a, 1)]

/-- The granules that a result line holds. -/
def State.lineGrans (s : State) (n l : Nat) : Nat × Nat :=
  if s.collResBytes n = 64 then (l, 1) else (2 * l, min 2 (s.r F.FELT_COLL.GRANULES [n] - 2 * l))

/-- The Felt writes result bytes under the partition's rights; a failure of the rights is a failed write.
[Marks: DESIGN CHOICE, log entry 45.] -/
def resultWrite (n a : Nat) (bs : List Byte) : Prog := fresh fun k => rd fun s =>
  let p := s.r F.FELT_COLL.PARTITION [n]
  let q : Req := { writeReq a bs with src := .coll n k, part := p, op := if bs.length % 64 = 0 then 0x15 else 0x11, want := if bs.length % 64 = 0 then bs.length else 0
                                      rcv := if bs.length % 64 = 0 then bs.length else 0, segs := if bs.length % 64 = 0 then [(0, bs)] else [], data := if bs.length % 64 = 0 then [] else bs }
  let v : Verdict := if s.rb F.SPL_PART_ACCESS.VALID [0, p] ∧ s.rb F.SPL_PART_ACCESS.BULK [0, p] then
    s.resolve q (s.r F.SPL_PART_ACCESS.CLEAT_TAG [0, p]) 0 else .refuse stDenied 0 a
  let x := s.coll n
  match v with
  | .refuse st _ _ => .eff (.coll n { x with wr := x.wr ++ [k], ans := x.ans ++ [(k, st)] })
  | .serve _ _ _ => .all [.eff (.coll n { x with wr := x.wr ++ [k] }), admitReq k q v false]

/-- Result lines among those of granules g to g + k - 1 that are complete and not yet issued are written, in runs of whole lines; a last half line is a STORE
(R316). -/
def writeLines (n g k : Nat) : Prog := rd fun s =>
  let x := s.coll n
  let rb := s.collResBytes n
  let base := s.r F.FELT_COLL.RESULT_ADDR_LO [n] + s.r F.FELT_COLL.RESULT_ADDR_HI [n] * 2 ^ 32
  let l0 := g * rb / 64
  let ready := (rangeFrom l0 ((g + k - 1) * rb / 64 + 1 - l0)).filter (fun l => !SMap.get false x.lines l && s.gransDone n x (s.lineGrans n l).1 (s.lineGrans n l).2)
  let whole := ready.filter (fun l => decide ((s.lineGrans n l).2 * rb = 64))
  let half := ready.filter (fun l => decide ((s.lineGrans n l).2 * rb ≠ 64))
  .all [
    .eff (.coll n { x with lines := ready.foldl (fun m l => SMap.set false m l true) x.lines }),
    Prog.each (runsOf whole) (fun r => resultWrite n (base + 64 * r.1) (s.collResult n (r.1 * 64 / rb) (r.2 * 64 / rb))),
    Prog.each half (fun l => resultWrite n (base + 64 * l) (s.collResult n (2 * l) 1))]

/-! ### COLL_SEG (R310 to R315) -/

/-- The checks of R312 and R322 in their order: status and cause of the first that fails, else the granules that the segment covers.
[Marks: DESIGN CHOICE, log entry 45.] -/
def State.collCheck (s : State) (q : Req) : Except Nat Nat :=
  let n := q.collId
  let r (f : Fld) := s.r f [n]
  let rb := s.collResBytes n
  let fmt := r F.FELT_COLL.FMT
  let red := bit q.attr 8
  let bulk : Bool := match q.src with
    | .ctx c _ => s.rb F.SPL_PART_ACCESS.VALID [ctxDie c, q.part] && s.rb F.SPL_PART_ACCESS.BULK [ctxDie c, q.part]
    | _ => true
  let owned (g rank : Nat) : Bool :=
    decide (rank = if r F.FELT_COLL.SHARD_GRAN = 0 then r F.FELT_COLL.ROOT else g / r F.FELT_COLL.SHARD_GRAN)
  if ¬ bulk ∨ ¬ s.rb F.FELT_COLL.VALID [n] ∨ r F.FELT_COLL.PARTITION ≠ q.part then .error 0x261
  else if (s.coll n).st = clgBadConfig ∨ (s.coll n).st = clgNoResource ∨ (s.coll n).st = clgOff then .error 0x262
  else if s.collRanks n ≤ q.collRank then .error 0x263
  else if q.collFetch then
    if r F.FELT_COLL.GRANULES < q.collGran + q.collN ∨ 8192 < q.collN * rb ∨ ¬ q.data.isEmpty ∨ s.rb F.FELT_COLL.DELIVER [n] then .error 0x263
    else .ok q.collN
  else match contribGrans fmt q.data.length q.collGran with
    | none => .error 0x263
    | some k =>
      if r F.FELT_COLL.GRANULES < q.collGran + k then .error 0x263
      else if q.collRet ∧ (8192 < k * rb ∨ s.rb F.FELT_COLL.DELIVER [n]) then .error 0x263
      else if red ∧ (r F.FELT_COLL.KIND ≠ 0 ∨ q.attr % 16 ≠ fmt ∨ bits q.attr 4 4 ≠ r F.FELT_COLL.MODE) then .error 0x263
      else if r F.FELT_COLL.KIND = 1 ∧ !(rangeFrom q.collGran k).all (fun g => owned g q.collRank) then .error 0x263
      else .ok k

/-- A segment is refused with BUSY and counted. -/
def collBusy (r : Nat) : Prog := .all [count F.FELT_COLL_BUSY_COUNT.COUNT [], respond r stBusy []]

/-- The first accepted segment of a generation opens it (R314).
[Marks: DESIGN CHOICE, log entry 45.] -/
def collOpen (n : Nat) : Prog := rd fun s => if (s.coll n).st = clgIdle then .eff (.coll n { s.coll n with st := clgOpen }) else .skip

/-- An accepted segment is answered, now or once its granules are complete (R315). -/
def collAnswer (r : Nat) (q : Req) (k : Nat) : Prog :=
  let n := q.collId
  if q.collFetch || q.collRet then .all [
    .eff (.req r (some { q with wait := .other, addr := q.collGran, len := k, data := [] })), serveWaiting n]
  else .all [respond r stOk [], Prog.when q.collRel (collRelease n q.collRank)]

/-- A contribution of the current generation that passes its checks (R313). -/
def collContribute (r : Nat) (q : Req) (k : Nat) : Prog := rd fun s =>
  let n := q.collId
  let x := s.coll n
  let rank := q.collRank
  let g := q.collGran
  let w := SMap.get 0 x.marks rank
  let h := SMap.get 0 x.held rank
  let ordered := decide (s.r F.FELT_COLL.KIND [n] = 0 ∧ s.r F.FELT_COLL.MODE [n] = 1)
  let slots := (rangeFrom g k).countP (fun i => decide ((x.gran i).n ≠ rank))
  if g + k ≤ w then .all [count F.FELT_COLL_DUP_COUNT.COUNT [], collAnswer r q k, collCloseCheck n]
  else if g < w ∨ x.st = clgComplete then refuse r stDenied 0x263 n
  else if h ≠ 0 ∧ h - 1 < g then collBusy r
  else if ordered ∧ 4 * s.r F.FELT_COLL.WINDOW_CELLS [n] < x.win.length + slots then
    .all [.eff (.coll n { x with held := SMap.set 0 x.held rank (g + 1) }), collBusy r]
  else
    let y := (List.range k).foldl (fun y j => s.addGran n rank q.data y (g + j) j) x
    .all [
      .eff (.coll n { y with marks := SMap.set 0 y.marks rank (g + k), held := if h = g + 1 then SMap.set 0 y.held rank 0 else y.held }),
      collOpen n, collAnswer r q k,
      rd fun t => if t.collDone n (t.coll n) then .eff (.coll n { t.coll n with st := clgComplete }) else .skip,
      serveWaiting n,
      Prog.when (s.rb F.FELT_COLL.DELIVER [n]) (writeLines n g k),
      collCloseCheck n]

/-- Earlier collective segments of the same connection, or of the same context to the same group, are performed (R313). -/
def State.collInOrder (s : State) (r : Nat) (q : Req) : Bool :=
  (s.reqsWith (fun p => decide (p.op = 0x20) && decide (p.src.stream = q.src.stream) && !p.collDone &&
    (match q.src with | .ctx _ _ => decide (p.collId = q.collId) | _ => true))).all (fun e => decide (r ≤ e.1))

/-- COLL_SEG (R313): a contribution or fetch is checked, added, placed or refused, and answered when its granules are complete. -/
def execCollSeg (r : Nat) (s : State) : Host.Outcome State Fault Refusal := run s <|
  performReq r 0x20 fun q => rd fun s =>
    let n := q.collId
    let x := s.coll n
    if ¬ s.collInOrder r q then .skip
    else match s.collCheck q with
      | .error c => refuse r stDenied c n
      | .ok k =>
        if q.collGen = (x.gen + 1) % 256 then collBusy r
        else if q.collGen ≠ x.gen then refuse r stDenied 0x264 n
        else if x.st = clgClosing then respond r stLate []
        else if q.collFetch then .all [collOpen n, collAnswer r q k, collCloseCheck n]
        else collContribute r q k

/-! ### The end of a generation -/

/-- COLL_GENERATION_TIMEOUT (R317): a generation that is not COMPLETE in time is aborted with LATE. -/
def execCollGenerationTimeout (n : Nat) (s : State) : Host.Outcome State Fault Refusal := run s <|
  let x := s.coll n
  let g := (firstIdx (fun g => !s.granDone n x g) (s.r F.FELT_COLL.GRANULES [n])).getD 0
  let rank := firstIdx (fun k => decide (SMap.get 0 x.marks k ≤ g)) (s.collRanks n)
  if x.st ≠ clgOpen then .skip
  else .all [
    log { src := srcFelt, cause := 0x265, sev := 2, status := stLate, part := some (s.r F.FELT_COLL.PARTITION [n])
          obj0 := n + x.gen * 2 ^ 12 + g * 2 ^ 32, obj1 := rank.getD 0xFFFFFFFF },
    collAbort n stLate, doneKnot n stLate]

/-- COLL_HOLD_EXPIRY (R315): HOLD_US after COMPLETE a FETCH generation closes. -/
def execCollHoldExpiry (n : Nat) (s : State) : Host.Outcome State Fault Refusal := run s <|
  if (s.coll n).st = clgComplete ∧ ¬ s.rb F.FELT_COLL.DELIVER [n] then collClose n else .skip

/-- The fields of a group in the order in which a delayed commit keeps them (R317). -/
def collFlds : List Fld :=
  [F.FELT_COLL.VALID, F.FELT_COLL.PARTITION, F.FELT_COLL.KIND, F.FELT_COLL.MODE, F.FELT_COLL.FMT, F.FELT_COLL.RES_FMT, F.FELT_COLL.NRANKS_M1,
   F.FELT_COLL.DELIVER, F.FELT_COLL.GRANULES, F.FELT_COLL.SHARD_GRAN, F.FELT_COLL.ROOT, F.FELT_COLL.WINDOW_CELLS, F.FELT_COLL.DONE_KNOT,
   F.FELT_COLL.DONE_EN, F.FELT_COLL.TIMEOUT_US, F.FELT_COLL.HOLD_US, F.FELT_COLL.RESULT_ADDR_LO, F.FELT_COLL.RESULT_ADDR_HI]

/-- New fields of a group take effect (R317). -/
def collApply (n : Nat) (vs : List Nat) : Prog := .all [
  Prog.each (collFlds.zip vs) (fun p => wr p.1 [n] p.2), collEnter n]

/-- COLL_CLOSE_COMPLETE (R314): the region is zeroed, the generation advances, and the group is IDLE, or enters what fields committed meanwhile call for. -/
def execCollCloseComplete (n : Nat) (s : State) : Host.Outcome State Fault Refusal := run s <|
  let x := s.coll n
  if x.st ≠ clgClosing then .skip
  else .all [.eff (.coll n { st := clgIdle, gen := (x.gen + 1) % 256 }), Prog.opt x.pend (collApply n)]

/-- COLL_RESULT_WRITE_COMPLETE (R316): result writes of a group have been performed. A failed one closes the generation under cause 0x267; after the last one
DONE_KNOT is signalled and the generation closes. -/
def execCollResultWriteComplete (n : Nat) (s : State) : Host.Outcome State Fault Refusal := run s <|
  let x := s.coll n
  let wr := x.wr.filter (fun k => !x.ans.any (fun a => decide (a.1 = k)))
  if x.ans.isEmpty then .skip
  else match x.ans.find? (fun a => decide (a.2 ≠ stOk)) with
    | some a => .all [
        log { src := srcFelt, cause := 0x267, sev := 2, status := a.2, obj0 := n, part := some (s.r F.FELT_COLL.PARTITION [n]) },
        doneKnot n a.2, collClose n]
    | none => .all [.eff (.coll n { x with wr := wr, ans := [] }),
        Prog.when (decide (x.st = clgComplete) && wr.isEmpty) (.all [doneKnot n stOk, collClose n])]

/-- The generations of a partition are aborted at its fence; waiting requests end with the other open requests of the partition (R323).
[Marks: DESIGN CHOICE, log entry 45.] -/
def collFence (p : Nat) : Prog := rd fun s =>
  Prog.each (s.fab.colls.filter (fun e => decide (s.r F.FELT_COLL.PARTITION [e.1] = p) && decide (2 ≤ e.2.st ∧ e.2.st ≤ 3)))
    (fun e => collAbort e.1 stFenced)

end Sys2Proof.Machine
end

