-- ==== Sys2Proof/Machine/FlashRows.lean ====
section
/-! DEFINITION. What flash trays and the mirror partner bring about (ch. 04): appends, journal completions, checkpoints, map reads, collections and zones
that retire. -/
namespace Sys2Proof.Machine
open Sys2Proof

/-! ### Pages that lose a copy (R134, R158) -/

/-- Zones opened for data are journaled (R142). -/
def journalOpens (t : Nat) (zs : List Nat) : Prog := Prog.when (!zs.isEmpty) (journal t (zs.map (fun z => recOpen z 0)) .none)

/-- Chunks of a tray are written again, to other places of its data zones (R158). -/
def rewriteChunks (t : Nat) (cs : List Nat) : Prog := rd fun s =>
  let w := (s.flash t).put cs
  let rs := runs (w.2.1.map (fun e => { typ := 1, n := 1, chunk := e.1, newZone := e.2.1, newOff := e.2.2 }))
  Prog.when (!cs.isEmpty) (.all [.eff (.flash t w.1), journalOpens t w.2.2, send (.tray t trayAppend cs (cs.flatMap (s.storedChunk t))),
    journal t (rs.map (fun r => { r with crc := s.dataCrc t r })) .none])

/-- Chunks of a tray can no longer be read (R134, R158): each page with a copy is written again, a page without one becomes POISONED, and a superseded chunk is
forgotten. -/
def chunksLost (t : Nat) (cs : List Nat) : Prog := rd fun s =>
  let hit (p : Nat) : List Nat := match s.extAt (p * 2 ^ 21) with
    | none => []
    | some e => if s.coldFloor (s.ext e) then
        ((s.coldChunks (s.ext e) p).filter (fun c => decide (c.1 = t) && cs.contains c.2)).map (·.2) else []
  let hits := (s.pool.pages.map (fun e => (e.1, hit e.1))).filter (fun e => !e.2.isEmpty)
  let x (p : Nat) : Ext := s.ext ((s.extAt (p * 2 ^ 21)).getD 0)
  let keeps (p : Nat) : Bool :=
    if (s.page p).place ≠ .floor then (s.page p).floorValid
    else if (x p).prot = 2 then s.secondCopy (x p) (p * 2 ^ 21)
    else (List.range 32).all (fun i =>
      !(s.floorSlots (x p) p).any (fun y => (y.1.chunkAt y.2 (i * 65536)).1 = t && cs.contains (y.1.chunkAt y.2 (i * 65536)).2) ||
        s.secondCopy (x p) (p * 2 ^ 21 + i * 65536))
  let f := s.flash t
  .all [
    .eff (.flash t { f with map := f.map.filter (fun e => !cs.contains e.1) }),
    Prog.each hits (fun e =>
      if keeps e.1 then .all [count F.TIER_UNCORR_COUNT.COUNT [],
        log { src := srcFelt, cause := 0x310, sev := 0, obj0 := e.1, part := some (x e.1).part }, rewriteChunks t e.2]
      else if (s.page e.1).place = .floor then .all [count F.TIER_UNCORR_COUNT.COUNT [],
        log { src := srcFelt, cause := 0x311, sev := 2, status := stUncorr, obj0 := e.1, part := some (x e.1).part }, poisonPage e.1 0x311]
      else .skip)]

/-! ### Demotion (R148) -/

/-- The chunks of a page are appended to open data zones of their trays (R148 step 1): where they lie, none where a tray has no room. -/
def State.placePage (s : State) (p : Nat) : Option (List (Nat × Flash × List Nat) × List (Nat × Nat × Nat × Nat)) :=
  let cs := s.coldChunks (s.ext ((s.extAt (p * 2 ^ 21)).getD 0)) p
  let ts := (cs.map (·.1)).eraseDups
  let ws := ts.map (fun t => (t, (s.flash t).put ((cs.filter (fun c => decide (c.1 = t))).map (·.2))))
  let locs := ws.flatMap (fun w => w.2.2.1.map (fun e => (w.1, e)))
  if locs.length = cs.length ∧ ¬ cs.isEmpty then some (ws.map (fun w => (w.1, w.2.1, w.2.2.2)), locs) else none

/-- The appends of a demotion go out (R148 step 1). -/
def demotionAppend (p : Nat) (m : Migr) : Prog := rd fun s =>
  match s.placePage p with
  | none => .skip
  | some (ws, locs) => .all [
      Prog.each ws (fun w => .all [.eff (.flash w.1 w.2.1), journalOpens w.1 w.2.2,
        send (.tray w.1 trayAppend [p] ((locs.filter (fun e => decide (e.1 = w.1))).flatMap (fun e => s.storedChunk w.1 e.2.1)))]),
      .eff (.mig p (some { m with verify := true, locs := locs }))]

/-- A destination has failed: it is abandoned under cause 0x331, and the migration starts again from its copy at most twice (R128).
[Marks: DEDUCED, log entry 35.] -/
def destinationFailed (p : Nat) (m : Migr) (dst : Place) : Prog := .all [
  log { src := srcFelt, cause := 0x331, sev := 0, obj0 := p },
  if 2 ≤ m.restarts then abortMig p
  else .eff (.mig p (some { kind := m.kind, dst := dst, restarts := m.restarts + 1, cold := m.cold }))]

/-- DEMOTION_APPEND_COMPLETE (R148): the appends of a page are complete and read back: verified, or abandoned. -/
def execDemotionAppendComplete (p : Nat) (ok : Bool) (s : State) : Host.Outcome State Fault Refusal := run s <|
  match SMap.get none s.pool.migs p with
  | none => .skip
  | some m =>
    let ts := (m.locs.map (·.1)).eraseDups
    if ¬ m.cold ∨ ¬ m.verify ∨ ts.isEmpty ∨ ¬ m.trays.isEmpty then .skip
    else .all [
      if ok then .all [.eff (.mig p (some { m with trays := ts })),
        Prog.each (if ts.length = 1 then ts else ts.dropLast) (fun t => demotionGroup p t m.locs)]
      else destinationFailed p m m.dst,
      Prog.each ts lowCheck]

/-! ### The journal (R145, R146) -/

/-- JOURNAL_APPEND_COMPLETE (R145): the append in flight to a tray is durable. -/
def execJournalAppendComplete (t : Nat) (s : State) : Host.Outcome State Fault Refusal := run s <|
  let f := s.flash t
  match f.groups.findIdx? (fun g => decide (0 < g.left)), f.jz with
  | some i, some z =>
    let gs := f.groups.zipIdx.map (fun e => if e.2 = i then { e.1 with left := e.1.left - 1 } else e.1)
    let top := ((f.groups[i]?).bind (fun g => g.recs.getLast?.map (·.jseq))).getD 0
    .all [
      .eff (.flash t { f.setZone z { f.zone z with wp := (f.zone z).wp + 1, top := top } with groups := gs, blocks := f.blocks + 1 }),
      journalIssue t, journalSweep t, gcCheck t]
  | _, _ => .skip

/-- JOURNAL_APPEND_FAILED (R145): the group of the append in flight is written again in a new journal zone under cause 0x377. -/
def execJournalAppendFailed (t : Nat) (s : State) : Host.Outcome State Fault Refusal := run s <|
  let f := s.flash t
  match f.groups.findIdx? (fun g => decide (0 < g.left)), f.take .journal with
  | some i, some (z, g) =>
    let gs := f.groups.zipIdx.map (fun e => if e.2 = i then { e.1 with left := cdiv e.1.recs.length 64 } else e.1)
    .all [log { src := srcFelt, cause := 0x377, sev := 0, obj0 := t },
      .eff (.flash t { g with groups := gs, jz := some z }), journalIssue t, journal t [recOpen z 2] .none]
  | some _, none => log { src := srcFelt, cause := 0x377, sev := 0, obj0 := t }
  | none, _ => .skip

/-- JOURNAL_PARTNER_ACK (R146): the partner acknowledges the oldest group of a tray that it had not: it is in the mirrored journal. -/
def execJournalPartnerAck (t : Nat) (s : State) : Host.Outcome State Fault Refusal := run s <|
  let f := s.flash t
  match f.owed with
  | g :: gs => .eff (.flash t { f with owed := gs, par := mapAfter f.par g })
  | [] => match f.groups.findIdx? (fun g => !g.acked) with
    | none => .skip
    | some i => .all [
        .eff (.flash t { f with groups := f.groups.zipIdx.map (fun e => if e.2 = i then { e.1 with acked := true } else e.1)
                                par := mapAfter f.par (((f.groups[i]?).map (·.recs)).getD []) }),
        journalSweep t]

/-- JOURNAL_ACK_TIMEOUT (R146): 100 µs have passed since a group was sent to the partner. -/
def execJournalAckTimeout (t : Nat) (s : State) : Host.Outcome State Fault Refusal := run s <|
  let f := s.flash t
  match f.groups.findIdx? (fun g => !g.acked && !g.alone) with
  | none => .skip
  | some i => .all [
      .eff (.flash t { f with groups := f.groups.zipIdx.map (fun e => if e.2 = i then { e.1 with alone := true } else e.1) }),
      log { src := srcFelt, cause := 0x376, sev := 0, obj0 := t }, journalSweep t]

/-! ### Checkpoints and map pages (R141, R147) -/

/-- CHECKPOINT_COMPLETE (R147): with CKPT_END on the tray the root record is written; journal, map and checkpoint zones wholly older than the replay start are reset.
[Marks: DEDUCED, log entry 35.] -/
def execCheckpointComplete (t : Nat) (s : State) : Host.Outcome State Fault Refusal := run s <|
  let f := s.flash t
  match f.ckpt with
  | none => .skip
  | some c =>
    if ¬ c.ended then .skip
    else
      let old := (f.zn.filter (fun e =>
        (decide (e.2.role = .journal) && decide (e.2.top < c.start) && decide (f.jz ≠ some e.1)) ||
        (decide (e.2.role = .map) && decide (f.mz ≠ some e.1) && !f.loc.any (fun l => decide ((l.2 - 1) / 2 ^ 32 = e.1))) ||
        (decide (e.2.role = .ckpt) && decide (e.1 ≠ c.zone)))).map (·.1)
      let g := old.foldl (fun (h : Flash) y => h.setZone y { h.zone y with role := .dropped }) f
      let root : RootRec := { jseq := f.jseq, zone := c.zone, start := c.start }
      .all [
        .eff (.flash t { g with ckpt := none, blocks := f.blocks - c.blocks, cz0 := some c.zone, roots := f.roots + 1, rootRecs := (root :: f.rootRecs).take 2 }),
        send (.tray t trayAppend [f.roots % 2, root.jseq, root.zone, root.start]),
        Prog.each old (fun y => send (.tray t trayReset [y])), ckptCheck t]

/-- MAP_PAGE_READ_COMPLETE (R141): a map page arrives, or fails its check and is taken from the partner; without either its chunks are handled as uncorrectable. -/
def execMapPageReadComplete (t m : Nat) (ok partner : Bool) (s : State) : Host.Outcome State Fault Refusal := run s <|
  let f := s.flash t
  if ¬ f.reads.contains m then .skip
  else .all [
    .eff (.flash t { f with reads := f.reads.filter (fun k => decide (k ≠ m)) }), mapTouch t m false,
    Prog.when (!ok) (.all [log { src := srcFelt, cause := 0x378, sev := 0, obj0 := t, obj1 := m },
      Prog.when (!partner) (chunksLost t ((f.map.filter (fun e => decide (e.1 / 512 = m))).map (·.1)))])]

/-! ### Collection (R150, R153) -/

/-- A destination has failed (R153): it is abandoned, and reset where the tray still takes writes to it; the copy starts again, at most GC_RETRY times on one source.
[Marks: DEDUCED, log entry 35.] -/
def gcFailed (t : Nat) (g : Gc) : Prog := rd fun s =>
  let f := s.flash t
  let retired := decide ((f.zone g.dst).role = .retired)
  .all [
    .eff (.flash t { if retired then f else f.setZone g.dst { f.zone g.dst with role := .dropped } with gc := none }),
    journal t [{ typ := 6, newZone := g.dst }] .none, Prog.when (!retired) (send (.tray t trayReset [g.dst])),
    count F.TIER_FLASH_GC_ABANDON_COUNT.COUNT [],
    log { src := srcFelt, cause := 0x371, sev := 0, obj0 := t, obj1 := g.dst },
    if g.tries < s.r F.TIER_FLASH_CTRL.GC_RETRY [] then gcStart t g.src g.evac (g.tries + 1)
    else .all [log { src := srcFelt, cause := 0x372, sev := 0, obj0 := t, obj1 := g.src },
      rd fun u => .eff (.flash t { u.flash t with gaveUp := g.src :: (u.flash t).gaveUp }), gcCheck t]]

/-- GC_COPY_COMPLETE (R143, R150 step 2): the valid chunks of the source lie in the destination, whose summary names them, or an append to it has failed.
[Marks: DESIGN CHOICE, log entry 59.] -/
def execGcCopyComplete (t : Nat) (ok : Bool) (s : State) : Host.Outcome State Fault Refusal := run s <|
  let f := s.flash t
  match f.gc with
  | none => .skip
  | some g =>
    if g.stage ≠ .copy then .skip
    else if ok then
      let v := f.valid g.src
      let full := decide (f.room ≤ v.length)
      .eff (.flash t { f.setZone g.dst { f.zone g.dst with wp := if full then f.cz else v.length, full := full, sum := v.map (fun e => e.1 + 1) } with
        gc := some { g with stage := .check, moved := v } })
    else gcFailed t g

/-- GC_VERIFY_COMPLETE (R150 steps 3 and 4): the read-back agrees and the moves are journaled, or it does not. -/
def execGcVerifyComplete (t : Nat) (ok : Bool) (s : State) : Host.Outcome State Fault Refusal := run s <|
  let f := s.flash t
  match f.gc with
  | none => .skip
  | some g =>
    if g.stage ≠ .check then .skip
    else if ok then
      let rs := runs (g.moved.zipIdx.map (fun e => { typ := 2, n := 1, chunk := e.1.1, oldZone := g.src, oldOff := e.1.2, newZone := g.dst, newOff := e.2 }))
      .all [.eff (.flash t { f with gc := some { g with stage := .commit } }),
        journal t (rs.map (fun r => { r with crc := s.dataCrc t r }) ++
          [{ typ := 4, newZone := g.dst, arg := g.src }]) (.gc g.src g.dst)]
    else gcFailed t g

/-- ZONE_RESET_COMPLETE (R150 step 7): a zone that was reset is journaled free, and is free with that group's commit.
[Marks: DEDUCED, log entry 35.] -/
def execZoneResetComplete (t z : Nat) (s : State) : Host.Outcome State Fault Refusal := run s <|
  let f := s.flash t
  let due := decide ((f.zone z).role = .dropped) || (match f.gc with | some g => decide (g.stage = .reset ∧ g.src = z) | none => false)
  if due && !f.groups.any (fun g => decide (g.act = .free z)) then journal t [{ typ := 5, oldZone := z }] (.free z) else .skip

/-! ### Zones that retire (R157, R158) -/

/-- A zone is retired: no longer a write target, and journaled (R157).
[Marks: DEDUCED, log entry 35.] -/
def retireZone (t z cause : Nat) (offline : Bool) : Prog := rd fun s =>
  let f := s.flash t
  .all [
    .eff (.flash t { f.setZone z { f.zone z with role := .retired, offline := offline } with
      data := if f.data = some z then none else f.data, jz := if f.jz = some z then none else f.jz, mz := if f.mz = some z then none else f.mz }),
    journal t [{ typ := 7, oldZone := z }] .none,
    count F.TIER_FLASH_RETIRE_COUNT.COUNT [], log { src := srcFelt, cause := cause, sev := 0, obj0 := t, obj1 := z }]

/-- ZONE_READ_ONLY (R157): a zone has become Read Only; its chunks are evacuated. -/
def execZoneReadOnly (t z : Nat) (s : State) : Host.Outcome State Fault Refusal := run s <|
  let f := s.flash t
  if f.zones ≤ z ∨ (f.zone z).role = .retired then .skip
  else .all [retireZone t z 0x373 false,
    rd fun u => let g := u.flash t
      match g.gc with
      | some c => if c.src = z then .eff (.flash t { g with gc := some { c with evac := true } }) else .eff (.flash t { g with evac := g.evac ++ [z] })
      | none => .eff (.flash t { g with evac := g.evac ++ [z] }),
    gcCheck t, lowCheck t]

/-- ZONE_OFFLINE (R158): a zone has gone Offline; its chunks are rebuilt, or their pages become POISONED. -/
def execZoneOffline (t z : Nat) (s : State) : Host.Outcome State Fault Refusal := run s <|
  let f := s.flash t
  if f.zones ≤ z ∨ (f.zone z).offline then .skip
  else .all [retireZone t z 0x375 true,
    rd fun u => match (u.flash t).gc with
      | some c => if c.src = z then .eff (.flash t { u.flash t with gc := none }) else .skip
      | none => .skip,
    chunksLost t ((f.map.filter (fun e => decide ((e.2 - 1) / 65536 = z))).map (·.1)), gcCheck t, lowCheck t]

end Sys2Proof.Machine
end

