-- ==== Sys2Proof/Machine/Tier.lean ====
section
/-! DEFINITION. The Tier engine (ch. 03): the life cycle of extents, placement and migration of pages, prefetches, and lost trays with their rebuild. -/
namespace Sys2Proof.Machine
open Sys2Proof

/-! ### Mailbox results (R113, R117) -/

/-- DONE and the other results of R117. -/
def mbDone : Nat := 0
/-- BAD_OPCODE. -/
def mbBadOpcode : Nat := 1
/-- BAD_ARG. -/
def mbBadArg : Nat := 2
/-- NO_RESOURCE. -/
def mbNoResource : Nat := 3
/-- WRONG_STATE. -/
def mbWrongState : Nat := 4
/-- OVERLAP. -/
def mbOverlap : Nat := 5
/-- STALE_EPOCH. -/
def mbStale : Nat := 6
/-- ABORTED. -/
def mbAborted : Nat := 7

/-- Command word w of a slot. -/
def State.mbox (s : State) (slot w : Nat) : Nat := s.r F.TIER_MBOX.CMD [slot, w]

/-- A mailbox command completes: response words, RESULT, DONE, GO cleared, the Tier interrupt, and a record of a result other than DONE (R113, R117).
[Marks: DESIGN CHOICE, log entry 32.] -/
def mboxDone (slot res : Nat) (rsp : List Nat) : Prog := rd fun s => .all [
  wr F.TIER_MBOX.RSP [slot, 0] (s.mbox slot 0 / 2 ^ 16 * 2 ^ 16),
  Prog.each rsp.zipIdx (fun e => wr F.TIER_MBOX.RSP [slot, e.2 + 1] e.1),
  wr F.TIER_MBOX.RESULT [slot] res, wr F.TIER_MBOX.DONE [slot] 1, wr F.TIER_MBOX.GO [slot] 0,
  Prog.when (decide (res ≠ mbDone)) (log { src := srcFelt, cause := 0x350, sev := 0, obj0 := s.mbox slot 0 % 256, obj1 := res }),
  Prog.when (bit (s.r F.TIER_MBOX_INT_EN.SLOT_EN []) slot) (msix 1)]

/-! ### Routes and Cleat entries of an extent (R104, R107, R109, R371) -/

/-- Two ranges meet. -/
def meets (b1 l1 b2 l2 : Nat) : Bool := decide (b1 < b2 + 2 ^ l2) && decide (b2 < b1 + 2 ^ l1)

/-- The ROUTE entry of a route. -/
def State.routeOp (s : State) (b : Nat) (x : Route) : CleatOp :=
  { op := 0, tag := tagLocation, lo := s.hall b, hi := s.hall b + 2 ^ x.log2 - 1, res := 9 * 2 ^ 60 + x.epoch % 2 ^ 32 * 16 + x.home % 16 }

/-- The HOME entry of an extent. -/
def State.homeOp (s : State) (e : Nat) (x : Ext) : CleatOp :=
  { op := 0, tag := tagLocation, lo := s.hall x.base, hi := s.hall x.base + x.size - 1, res := 8 * 2 ^ 60 + x.part % 16 * 2 ^ 20 + e % 2 ^ 20 }

/-- The rights entry of an extent. -/
def State.rightsOp (s : State) (e : Nat) (x : Ext) : CleatOp :=
  { op := 0, tag := x.tag, lo := s.hall x.base, hi := s.hall x.base + x.size - 1
    res := 1 * 2 ^ 60 + x.part % 16 * 2 ^ 24 + e % 2 ^ 20 * 16 + x.acc % 16 }

/-- An update that removes what another inserts. -/
def CleatOp.undo (u : CleatOp) : CleatOp := { u with op := 1 }

/-- Route entries whose ranges no local extent covers any more are installed (R104). -/
def installRoutes : Prog := rd fun s => Prog.each s.pool.routes fun e => match e.2 with
  | none => .skip
  | some x => if x.inst ∨ s.pool.exts.any (fun y => decide (y.2.st ≠ .free) && meets e.1 x.log2 y.2.base y.2.log2) then .skip
    else .all [cleatSys (s.routeOp e.1 x), .eff (.route e.1 (some { x with inst := true }))]

/-! ### Life cycle of an extent (R105 to R107, R121) -/

/-- EXTENT_DRAIN_TIMEOUT (R106): the drain timeout of a DRAINING extent passes; its open requests and near-pool operations end. -/
def execExtentDrainTimeout (e : Nat) (s : State) : Host.Outcome State Fault Refusal := run s <|
  if (s.ext e).st ≠ .draining then .skip
  else .all [Prog.each (s.reqsWith (fun q => decide (q.ext = some e ∨ q.ext2 = some e))) (fun r => cut r.1 stRevoked 0x302 e),
    rd fun u => if (u.ext e).st = .draining then .all [.eff (.ext e { u.ext e with st := .drained }), extChange e] else .skip]

/-- The floor sets of an extent with its first slot in each. -/
def Ext.floors (x : Ext) : List (Nat × Nat) :=
  (if x.set1 = 0xFF then [] else [(x.set1, x.slot1)]) ++ (if x.prot = 1 ∧ x.set2 ≠ 0xFF then [(x.set2, x.slot2)] else [])

/-- The zero fill of an extent's floor slots and staging frames (R107, R160): the near-pool units of each tray write zeros, on a flash floor as new chunks. -/
def scrubExtent (x : Ext) : Prog := rd fun s => .all [
  .eff (.memZero x.base (x.base + x.size)),
  Prog.each x.floors (fun k => Prog.opt (s.sset k.1) (fun y => Prog.each y.trays (fun t =>
    if s.coldSet k.1 then Prog.when (!(s.flash t).recovering) <|
      rewriteChunks t (((rangeFrom k.2 (x.size / 2 ^ 21)).flatMap y.pageChunks).filterMap (fun c => if c.1 = t then some c.2 else none))
    else send (.tray t trayZero [k.1, k.2, x.size / 2 ^ 21])))),
  Prog.each (s.pool.pages.filter (fun e => x.hasPage e.1)) (fun e => match e.2.place with
    | .staging k f => Prog.opt (s.sset k) (fun y => Prog.each y.trays (fun t => send (.tray t trayZero [k, f, 1])))
    | _ => .skip)]

/-- The rebuild of a set stops where the extent that is released was the last to name it (R106); its end is recorded (R122).
[Marks: DESIGN CHOICE, log entry 58.] -/
def stopRebuilds (e : Nat) : Prog := rd fun s => Prog.each (s.ext e).floors fun k =>
  match s.sset k.1 with
  | none => .skip
  | some y => match y.rebuild with
    | none => .skip
    | some b =>
      if s.pool.exts.any (fun z => decide (z.1 ≠ e ∧ z.2.st ≠ .free ∧ z.2.st ≠ .releasing) && z.2.floors.any (fun f => decide (f.1 = k.1))) then .skip
      else .all [.eff (.sset k.1 (some { y with rebuild := none })), log { src := srcFelt, cause := 0x322, sev := 0, obj0 := k.1, obj1 := b.1 }]

/-- A DRAINED or LOST extent enters RELEASING: its Cleat entries go, a rebuild of its pages stops, and with SCRUB_ON_RELEASE or where a partition is removed its zero fill
begins (R106, R107, R469).
[Marks: DEDUCED, log entry 57.] -/
def releaseExtent (e : Nat) (force : Bool) : Prog := rd fun s =>
  let x := s.ext e
  if x.st = .drained ∨ x.st = .lost then .all [
    .eff (.ext e { x with st := .releasing }), cleatSys (s.homeOp e x).undo, cleatSys (s.rightsOp e x).undo, extChange e,
    stopRebuilds e, Prog.when (x.scrub || force) (scrubExtent x)]
  else .skip

/-- The release of a RELEASING extent starts again from the beginning (R136). -/
def releaseAgain (e : Nat) (force : Bool) : Prog := rd fun s =>
  Prog.when (decide ((s.ext e).st = .releasing) && ((s.ext e).scrub || force)) (scrubExtent (s.ext e))

/-- The parity rows that lie whole in an extent's slots of a set (R118). -/
def State.rowSpan (s : State) (x : Ext) (k first : Nat) : Nat × Nat :=
  match s.sset k with
  | none => (0, 0)
  | some y =>
    let u := 2 ^ 21 / y.bytes
    (cdiv (first * u) (y.trays.length - 1), (first + x.size / 2 ^ 21) * u / (y.trays.length - 1))

/-- An extent is FREE again: its pages, frames, slots, lines and parity rows are given up (R107, R108, R160). -/
def freeExtent (e : Nat) : Prog := rd fun s =>
  let x := s.ext e
  .all [
    Prog.each ((SMap.keys s.pool.pages).filter x.hasPage) (fun p => .eff (.page p {})),
    Prog.each ((SMap.keys s.pool.migs).filter x.hasPage) (fun p => .eff (.mig p none)),
    .eff (.rows (s.pool.rows.filter (fun r => !x.floors.any (fun k => decide (r.1 = k.1) && decide ((s.rowSpan x k.1 k.2).1 ≤ r.2 ∧ r.2 < (s.rowSpan x k.1 k.2).2))))),
    Prog.each (x.set1 :: (if x.prot = 1 then [x.set2] else [])) (fun k => Prog.when (s.coldSet k) (Prog.opt (s.sset k) (fun y =>
      Prog.each (y.trays) (fun t => rd fun u =>
        let f := u.flash t
        let gone (c : Nat) : Bool := (List.range (x.size / 2 ^ 21)).any (fun i =>
          (y.pageChunks ((if k = x.set1 then x.slot1 else x.slot2) + i)).contains (t, c))
        .eff (.flash t { f with map := f.map.filter (fun m => !gone m.1) }))))),
    .eff (.memZero x.base (x.base + x.size)), .eff (.ext e {}), extChange e, installRoutes]

/-- EXTENT_RELEASE_COMPLETE (R107): the scrub and the return of capacity of a RELEASING extent are done. -/
def execExtentReleaseComplete (e : Nat) (s : State) : Host.Outcome State Fault Refusal := run s <|
  if (s.ext e).st = .releasing then freeExtent e else .skip

/-- What the recovery of a tray brings beside its map: the release of a RELEASING extent that fills its floor there starts again (R136). -/
def trayRecovered (t : Nat) (src : MapSource) : Prog := rd fun s => .seq (flashRecovered t src)
  (Prog.when (s.flash t).recovering (Prog.each (s.pool.exts.filter (fun e => decide (e.2.st = .releasing) && (e.2.scrub || decide (s.partSt e.2.part = ptScrubbing)))) (fun e =>
    Prog.each e.2.floors (fun k => Prog.opt (s.sset k.1) (fun y =>
      rewriteChunks t (((rangeFrom k.2 (e.2.size / 2 ^ 21)).flatMap y.pageChunks).filterMap (fun c => if c.1 = t then some c.2 else none)))))))

/-- From where the map of a tray was restored: its own journal where the list does not name it. -/
def mapSource (maps : List (Nat × MapSource)) (t : Nat) : MapSource :=
  match maps.find? (fun m => decide (m.1 = t)) with
  | some m => m.2
  | none => .tray none

/-- Every PENDING block of a COMPRESSED extent returns to EMPTY (R411). -/
def pendingEmpty (x : Ext) : Prog := rd fun s =>
  let h := s.codecHdr x
  Prog.when (x.compressed && h.ok) (Prog.each ((List.range h.nb).filter (fun b => decide ((s.codecEntry x b).1 = 1)))
    (fun b => homeWrite x (x.base + 64 + 8 * b) (leBytes 8 0)))

/-- EXTENT_RECOVERY_COMPLETE (R121, R155, R156, R411): PENDING blocks are EMPTY again, the parity rows of a RECOVERING extent are recomputed and its flash trays recovered; `maps` gives from where the map of a
tray was restored, its own journal where it does not name the tray.
[Marks: DESIGN CHOICE, log entry 36.] -/
def execExtentRecoveryComplete (e : Nat) (maps : List (Nat × MapSource)) (s : State) : Host.Outcome State Fault Refusal := run s <|
  let x := s.ext e
  if x.st ≠ .recovering then .skip
  else
    let sets := x.set1 :: (if x.prot = 1 then [x.set2] else [])
    let ts : List Nat := if s.coldFloor x then sets.flatMap (fun k => match s.sset k with | some y => y.trays | none => []) else []
    let gone := ts.filter (fun (t : Nat) => decide (mapSource maps t = .none) && (s.flash t).recovering)
    let onTray (t : Nat) (y : Ext) : Bool := decide (y.st ≠ .free) && (match s.sset y.set1 with | some z => z.trays.contains t | none => false) ||
      (decide (y.prot = 1) && (match s.sset y.set2 with | some z => z.trays.contains t | none => false))
    .all [
      Prog.each gone (fun t => .all [log { src := srcFelt, cause := 0x379, sev := 2, status := stLost, obj0 := t },
        Prog.each (s.pool.exts.filter (fun y => onTray t y.2)) (fun y => rd fun u => .all [.eff (.ext y.1 { u.ext y.1 with st := .lost }), extChange y.1]),
        rd fun u => .eff (.flash t { u.flash t with map := [], par := [], recovering := false })]),
      Prog.each (ts.filter (fun (t : Nat) => decide (mapSource maps t ≠ .none))) (fun t => trayRecovered t (mapSource maps t)),
      rd fun u => if (u.ext e).st ≠ .recovering then .skip else .all [
        pendingEmpty (u.ext e),
        .eff (.rows (u.pool.rows.filter (fun r => !sets.contains r.1))), rowsChange, .eff (.ext e { u.ext e with st := .active }), extChange e]]

/-! ### Placement (R124 to R126) -/

/-- Demotion starts below HBM_LOW_WATER free hot frames and stops at HBM_HIGH_WATER (R126).
[Marks: DESIGN CHOICE, log entry 34.] -/
def waterCheck : Prog := rd fun s =>
  let low := s.r F.TIER_POLICY.HBM_LOW_WATER []
  let high := max low (s.r F.TIER_POLICY.HBM_HIGH_WATER [])
  let free := 256 * s.hotFree
  if free < low * s.hotTotal then .eff (.demoting true)
  else if high * s.hotTotal ≤ free then .eff (.demoting false) else .skip

/-- Whether a page can move: VALID, of an ACTIVE extent whose partition is not fenced (R128, R136). -/
def State.movable (s : State) (p : Nat) : Bool :=
  match s.extAt (p * 2 ^ 21) with
  | none => false
  | some e => decide ((s.ext e).st = .active) && decide ((s.page p).st = .valid) && (SMap.get none s.pool.migs p).isNone && !s.fenced (s.ext e).part

/-- Whether a page can be promoted one place up (R126). -/
def State.promotable (s : State) (p : Nat) : Bool :=
  match s.extAt (p * 2 ^ 21) with
  | none => false
  | some e =>
    let x := s.ext e
    match (s.page p).place with
    | .floor => !x.pinWarm || (s.coldFloor x && x.stagingOk)
    | .staging _ _ => !x.pinWarm
    | _ => false

/-- PLACEMENT_WINDOW_EXPIRY (R126): a counting window ends; pages whose count reached PROMOTE_THRESH are chosen for promotion, and counts start again. -/
def execPlacementWindowExpiry (s : State) : Host.Outcome State Fault Refusal := run s <| .all [
  Prog.when (s.rb F.TIER_CTRL.MIGRATE_EN []) (.eff (.chosen ((s.pool.pages.filter (fun e =>
    decide (s.r F.TIER_POLICY.PROMOTE_THRESH [] ≤ e.2.cnt) && s.movable e.1 && s.promotable e.1)).map (·.1)))),
  Prog.each (s.pool.pages.filter (fun e => decide (e.2.cnt ≠ 0))) (fun e => .eff (.page e.1 { e.2 with cnt := 0 })),
  waterCheck]

/-- A hot place for a page that moves up: two frames where its content is protected and not on its floor (R124).
[Marks: DESIGN CHOICE, log entry 34.] -/
def State.upPlace (s : State) (x : Ext) (p : Nat) : Option Place :=
  s.hotPlace (decide (x.prot ≠ 0) && !(decide ((s.page p).place = .floor) || (s.page p).floorValid))

/-- Whether a demotion into the floor of an extent is held: a tray of its sets is low on space (R159). -/
def State.demotionHeld (s : State) (x : Ext) : Bool :=
  s.coldFloor x && (x.set1 :: (if x.prot = 1 then [x.set2] else [])).any (fun k => match s.sset k with
    | some y => y.trays.any (fun t => (s.flash t).low)
    | none => false)

/-- Hot pages that may be demoted (R126).
[Marks: DESIGN CHOICE, log entry 34.] -/
def State.demotable (s : State) (p : Nat) : Bool :=
  match s.extAt (p * 2 ^ 21) with
  | none => false
  | some e =>
    let x := s.ext e
    s.movable p && !x.pinHot && decide (x.set1 ≠ 0xFF) && (match (s.page p).place with | .hot _ _ => true | _ => false) &&
      ((s.page p).floorValid || !s.demotionHeld x || (x.stagingOk && s.coldFloor x && s.freeStaging.isSome))

/-- The destination of a move, where there is one now (R124 to R127). -/
def State.moveTo (s : State) (x : Ext) (p : Nat) (k : Move) : Option Place :=
  let y := s.page p
  let staging := if y.place = .floor ∧ s.coldFloor x ∧ x.stagingOk then s.freeStaging else none
  match k with
  | .promote => match staging with
    | some q => some q
    | none => if x.pinWarm then none else s.upPlace x p
  | .prefetch =>
    if (s.pool.prefetch.any (fun f => f.pages.contains p && !f.staging)) && !x.pinWarm then s.upPlace x p else staging
  | .demote =>
    if x.stagingOk ∧ s.coldFloor x ∧ s.freeStaging.isSome then s.freeStaging
    else if s.demotionHeld x then none else some .floor

/-- Whether a move of a page is called for (R126, R127). -/
def State.called (s : State) (p : Nat) (k : Move) : Bool :=
  match k with
  | .promote => s.pool.chosen.contains p && s.promotable p
  | .prefetch => s.pool.prefetch.any (fun f => f.pages.contains p)
  | .demote => s.pool.demoting && s.demotable p &&
      s.pool.pages.all (fun e => !s.demotable e.1 || decide ((s.page p).used ≤ e.2.used))

/-- PAGE_MIGRATION_START (R126, R128 step 1): a page that is called to move gets its destination and becomes MIGRATING; the least recently used hot page is demoted, a
clean one by dropping its upper copy. -/
def execPageMigrationStart (p : Nat) (k : Move) (s : State) : Host.Outcome State Fault Refusal := run s <| .all [waterCheck, rd fun u =>
  match u.extAt (p * 2 ^ 21) with
  | none => .skip
  | some e =>
    let x := u.ext e
    let y := u.page p
    if ¬ u.rb F.TIER_CTRL.MIGRATE_EN [] ∨ ¬ u.movable p ∨ ¬ u.called p k then .skip
    else if k = .demote ∧ y.floorValid then .all [.eff (.page p { y with place := .floor, floorValid := false }),
      count F.TIER_DEMOTE_COUNT.COUNT [], pageChange p, waterCheck]
    else match u.moveTo x p k with
      | none => .skip
      | some q => .all [.eff (.page p { y with st := .migrating }),
          .eff (.mig p (some { kind := k, dst := q, cold := decide (q = .floor) && u.coldFloor x })),
          .eff (.chosen (u.pool.chosen.filter (fun z => decide (z ≠ p)))), pageChange p]]

/-- PAGE_MIGRATION_COPY_DONE (R128 steps 2 to 4): a copy pass ends; sub-blocks stored to meanwhile are copied again, up to 4 rounds, then writes to the page are held; a
5th round aborts under cause 0x330. -/
def execPageMigrationCopyDone (p : Nat) (s : State) : Host.Outcome State Fault Refusal := run s <|
  match SMap.get none s.pool.migs p with
  | none => .skip
  | some m =>
    if m.verify then .skip
    else if m.recopy ≠ 0 then
      (if 4 ≤ m.rounds then .all [log { src := srcFelt, cause := 0x330, sev := 0, obj0 := p }, abortMig p]
      else .eff (.mig p (some { m with recopy := 0, rounds := m.rounds + 1 })))
    else if m.cold then demotionAppend p m
    else .eff (.mig p (some { m with verify := true }))

/-- PAGE_MIGRATION_VERIFY_DONE (R128 steps 5 and 6): the read-back of the destination agrees, and the descriptor names it; or it does not, and another destination is
taken. -/
def execPageMigrationVerifyDone (p : Nat) (ok : Bool) (s : State) : Host.Outcome State Fault Refusal := run s <|
  match SMap.get none s.pool.migs p, s.extAt (p * 2 ^ 21) with
  | some m, some e =>
    let y := s.page p
    if m.cold ∨ ¬ m.verify then .skip
    else if ok then .all [
      .eff (.mig p none),
      .eff (.page p { y with st := if y.st = .migrating then .valid else y.st, place := m.dst
                             floorValid := decide (m.dst ≠ .floor) && (decide (y.place = .floor) || y.floorValid) }),
      count (if m.kind = .demote then F.TIER_DEMOTE_COUNT.COUNT else F.TIER_PROMOTE_COUNT.COUNT) [], pageChange p,
      waterCheck, prefetchSweep]
    else destinationFailed p m ((s.moveTo (s.ext e) p m.kind).getD m.dst)
  | _, _ => .skip

/-! ### Prefetches (R127, R288) -/

/-- PREFETCH_DEADLINE (R127): the deadline of a prefetch passes: a LATE record names the extent and the tier its data comes from, and the fetch goes on; with
MIGRATE_EN = 0 the prefetch ends with LATE (R137).
[Marks: DESIGN CHOICE, log entry 34.] -/
def execPrefetchDeadline (o : Nat) (s : State) : Host.Outcome State Fault Refusal := run s <|
  match s.pool.prefetch.find? (fun f => decide (f.op = o)) with
  | none => .skip
  | some f =>
    if f.late then .skip
    else
      let x := s.ext f.ext
      let tier : Nat := match f.pages.head?.map (fun p => (s.page p).place) with
        | some (.staging _ _) => 1
        | some .floor => if s.coldFloor x then 2 else 1
        | _ => 0
      .all [log { src := srcFelt, cause := 0x360, sev := 0, status := stLate, obj0 := f.ext, obj1 := tier, part := some x.part },
        count F.TIER_LATE_COUNT.COUNT [],
        if s.rb F.TIER_CTRL.MIGRATE_EN [] then
          .eff (.prefetch (s.pool.prefetch.map (fun g => if g.op = o then { g with late := true } else g)))
        else endPrefetch (fun g => g.op = o) stLate 0]

/-! ### Lost trays (R122, R123) -/

/-- Whether byte o of a slot of a set has no readable copy on the trays that are left. -/
def SSet.dead (y : SSet) (slot o : Nat) : Bool :=
  y.degraded.contains (y.trayAt slot o) && (decide (y.mode = 0) || decide (2 ≤ y.degraded.length))

/-- Whether some 4 KiB of a page has no readable copy on the trays that are left (R123).
[Marks: DESIGN CHOICE, log entry 36.] -/
def State.pageDead (s : State) (x : Ext) (p : Nat) : Bool :=
  let floor (i : Nat) : Bool := (s.floorSlots x p).all (fun y => y.1.dead y.2 (i * 4096))
  match (s.page p).place with
  | .floor => (List.range 512).any floor
  | .staging k f => match s.sset k with
    | some y => (List.range 512).any (fun i => y.dead f (i * 4096) && (!(s.page p).floorValid || floor i))
    | none => false
  | _ => false

/-- Whether a page's place is in a set. -/
def State.pageIn (s : State) (x : Ext) (p k : Nat) : Bool :=
  match (s.page p).place with
  | .floor => x.floors.any (fun f => decide (f.1 = k))
  | .staging j _ => decide (j = k)
  | _ => false

/-- A rebuild of a stripe set starts (R122).
[Marks: DESIGN CHOICE, log entry 36.] -/
def rebuildStart (k failed repl : Nat) : Prog := rd fun s => match s.sset k with
  | none => .skip
  | some y => .all [.eff (.sset k (some { y with rebuild := some (failed, repl) })),
      log { src := srcFelt, cause := 0x321, sev := 0, obj0 := k, obj1 := failed }, send (.tray repl trayRebuild [k, failed])]

/-- A spare tray for a set (R122): attached, of its kind and at least as large, and in no set.
[Marks: DESIGN CHOICE, log entry 33.] -/
def State.spare (s : State) (failed : Nat) : Option Nat :=
  match s.trayAt failed with
  | none => none
  | some f => (s.pool.trays.find? (fun e => match e.2 with
      | none => false
      | some t => !t.lost && decide (t.kind = f.kind) && decide (f.cap ≤ t.cap) && s.pool.sets.all (fun k => match k.2 with
          | none => true
          | some y => !y.trays.contains e.1 && (match y.rebuild with | some r => decide (r.2 ≠ e.1) | none => true)))).map (·.1)

/-- With AUTO_REBUILD the rebuild of each DEGRADED set starts onto a spare, where there is one (R122). -/
def autoRebuild : Prog := rd fun s => Prog.when (s.rb F.TIER_CTRL.AUTO_REBUILD []) (Prog.each (SMap.keys s.pool.sets) fun k => rd fun u =>
  match u.sset k with
  | none => .skip
  | some y => match y.rebuild, y.degraded.getLast? with
    | none, some t => Prog.opt (u.spare t) (rebuildStart k t)
    | _, _ => .skip)

/-- A tray is lost: every set that holds it is DEGRADED; a second failure poisons the pages without a readable copy; with AUTO_REBUILD the rebuild onto a spare
starts (R122, R123).
[Marks: DESIGN CHOICE, log entry 36.] -/
def trayLost (t : Nat) : Prog := rd fun s =>
  match s.trayAt t with
  | none => .skip
  | some x =>
    let ks := (s.pool.sets.filterMap (fun e => match e.2 with
      | some y => if y.trays.contains t ∧ ¬ y.degraded.contains t then some (e.1, y) else none
      | none => none))
    if x.lost then .skip
    else .all [
      .eff (.tray t (some { x with lost := true })), log { src := srcFelt, cause := 0x320, sev := 1, obj0 := t },
      Prog.each ks (fun e => .all [
        .eff (.sset e.1 (some { e.2 with degraded := t :: e.2.degraded })),
        Prog.when (!e.2.degraded.isEmpty) (rd fun u => Prog.each u.pool.pages (fun q =>
          match u.extAt (q.1 * 2 ^ 21) with
          | none => .skip
          | some n => if u.pageIn (u.ext n) q.1 e.1 ∧ u.pageDead (u.ext n) q.1 then
              .all [log { src := srcFelt, cause := 0x323, sev := 2, status := stUncorr, obj0 := q.1, part := some (u.ext n).part },
                poisonPage q.1 0x323]
            else .skip))]),
      Prog.each s.pool.sets (fun e => match e.2 with
        | some y => if y.rebuild.map (·.2) = some t then rd fun u => Prog.opt (u.sset e.1) (fun z => .eff (.sset e.1 (some { z with rebuild := none })))
          else .skip
        | none => .skip),
      autoRebuild]

/-- TRAY_LOST (R122): the link of a tray has failed or the tray has been removed. -/
def execTrayLost (t : Nat) (s : State) : Host.Outcome State Fault Refusal := run s (trayLost t)

/-- REBUILD_COMPLETE (R122, R136, R159): the last unit is written to the replacement, which takes the member's place; the set leaves DEGRADED. While a partition with pages in the
set is fenced the rebuild pauses.
[Marks: DESIGN CHOICE, log entry 58.] -/
def execRebuildComplete (k : Nat) (s : State) : Host.Outcome State Fault Refusal := run s <|
  match s.sset k with
  | none => .skip
  | some y => match y.rebuild with
    | none => .skip
    | some (failed, repl) =>
      let cold := s.coldSet k
      let cs := (s.flash failed).map.map (·.1)
      let paused := s.pool.pages.any (fun e => decide (e.2.st ≠ .zero) && (match s.extAt (e.1 * 2 ^ 21) with
        | some n => s.fenced (s.ext n).part && (s.ext n).floors.any (fun f => decide (f.1 = k))
        | none => false))
      if paused then .skip
      else .all [
        .eff (.sset k (some { y with trays := y.trays.map (fun t => if t = failed then repl else t)
                                     degraded := y.degraded.filter (fun t => decide (t ≠ failed)), rebuild := none })),
        Prog.when cold (.all [.eff (.flash failed { s.flash failed with map := [], low := false }), rewriteChunks repl cs, lowCheck repl]),
        count F.TIER_REBUILD_COUNT.COUNT [], log { src := srcFelt, cause := 0x322, sev := 0, obj0 := k, obj1 := failed }, autoRebuild]

/-- The oldest recorded parity row whose parity unit lies on a tray has been written there: its update has ended (R120, R121).
[Marks: DESIGN CHOICE, log entry 58.] -/
def rowWritten (t : Nat) : Prog := rd fun s =>
  match s.pool.rows.find? (fun r => match s.sset r.1 with | some y => decide (y.parityTray r.2 = t) | none => false) with
  | some r => .all [.eff (.rows (s.pool.rows.filter (fun x => decide (x ≠ r)))), rowsChange]
  | none => .skip

/-- TRAY_COMPLETION (R121, R470): a read or write of a block of partition p encrypted under key epoch e comes back from a tray; one of an older epoch is discarded under cause
0x605. The data of a current block that is read belongs to the request that reads it; a write ends the parity update that waits for it.
[Marks: DESIGN CHOICE, log entry 58.] -/
def execTrayCompletion (t p e : Nat) (s : State) : Host.Outcome State Fault Refusal := run s <|
  if ¬ (p < 16 ∧ e < s.r F.CROWN_KEY_EPOCH.EPOCH [p]) then rowWritten t
  else .all [count F.CROWN_OLD_EPOCH_COUNT.COUNT [],
    log { src := srcBrim (match s.trayAt t with | some x => x.die | none => 0), cause := 0x605, sev := 1, obj0 := p, obj1 := t, part := some p }]

end Sys2Proof.Machine
end

