-- ==== Sys2Proof/Machine/Mailbox.lean ====
section
/-! DEFINITION. The commands of the fabric-manager mailbox (R112 to R119, R138, R139, R557). -/
namespace Sys2Proof.Machine
open Sys2Proof

/-- W1 [19:0], the EXT_ID of a command. -/
def State.mboxExt (s : State) (slot : Nat) : Nat := s.mbox slot 1 % 2 ^ 20

/-- Whether the command of a slot waits behind an EXT_ADD that is under way: it names the ADDING extent, its range or its stripe set (R112).
[Marks: DESIGN CHOICE, log entry 32.] -/
def State.mboxHeld (s : State) (slot : Nat) : Bool :=
  let w := s.mbox slot
  let o := w 0 % 256
  s.pool.exts.any (fun e => decide (e.2.st = .adding) && (
    (decide (1 ≤ o ∧ o ≤ 5) && decide (e.1 = s.mboxExt slot)) ||
    (decide (o = 6) && meets (w 2 + w 3 % 2 ^ 20 * 2 ^ 32) (bits (w 1) 8 5) e.2.base e.2.log2) ||
    (decide (o = 7) && e.2.covers (w 1 + w 2 * 2 ^ 32)) ||
    (decide (o = 0x12 ∨ o = 0x13) && e.2.floors.any (fun f => decide (f.1 = w 1 % 256)))))

/-- GO of a mailbox slot whose opcode passes a test (R113); a command behind an EXT_ADD under way waits for its turn (R112).
[Marks: DESIGN CHOICE, log entry 10.] -/
def mboxGo (test : Nat → Bool) (slot : Nat) (body : (Nat → List Nat → Prog) → Prog) : Prog := reached 0x1005060 <| rd fun s =>
  if slot < 8 ∧ test (s.mbox slot 0 % 256) ∧ ¬ s.rb F.TIER_MBOX.GO [slot] then
    .all [wr F.TIER_MBOX.GO [slot] 1, if s.mboxHeld slot then .eff (.mboxWait (s.pool.waits ++ [slot])) else body (mboxDone slot)]
  else .skip

/-! ### Extents -/

/-- The first descriptor of a new extent (R101, R102).
[Marks: DESIGN CHOICE, log entry 33.] -/
def State.newPageBase (s : State) (pages : Nat) : Nat :=
  firstGap (s.pool.exts.filterMap (fun e => if e.2.st = .free then none else some (e.2.pageBase, e.2.size / 2 ^ 21))) pages

/-- The first floor slot of a new extent in a set (R118).
[Marks: DESIGN CHOICE, log entry 33.] -/
def State.newSlot (s : State) (k pages : Nat) : Nat :=
  firstGap (s.slotsUsed k) pages

/-- The extent that an EXT_ADD describes (R115).
[Marks: DESIGN CHOICE, log entry 32.] -/
def State.newExt (s : State) (slot : Nat) : Ext :=
  let w := s.mbox slot
  { st := .adding, part := bits (w 1) 20 4, base := w 2 + w 3 % 2 ^ 20 * 2 ^ 32, log2 := bits (w 1) 24 5, prot := bits (w 1) 29 2
    set1 := w 4 % 256, set2 := bits (w 4) 8 8, flags := bits (w 3) 20 10, tag := bits (w 4) 16 16, epoch := w 5, drainUs := w 6 % 2 ^ 16
    acc := bits (w 6) 16 4, slot := some slot }

/-- Whether the floor of a new extent fits its protection (R102, R103, R119). -/
def State.floorOk (s : State) (x : Ext) : Bool :=
  if x.set1 = 0xFF then x.pinHot && decide (x.prot ≤ 1) && decide (x.set2 = 0xFF)
  else match s.sset x.set1 with
    | none => false
    | some a =>
      (!x.coherent || !s.coldSet x.set1) &&
      (if x.prot = 1 then match s.sset x.set2 with
        | none => false
        | some b => decide (a.mode = 0 ∧ b.mode = 0) && (s.coldSet x.set1 == s.coldSet x.set2) && a.trays.all (fun t => !b.trays.contains t)
      else decide (x.set2 = 0xFF) && decide (a.mode = (if x.prot = 2 then 1 else 0)))

/-- Whether the fields of a new extent are in range and its FLAGS allowed (R102, R103, R115).
[Marks: DESIGN CHOICE, log entry 32.] -/
def Ext.formOk (x : Ext) : Bool :=
  decide (21 ≤ x.log2 ∧ x.log2 ≤ 30 ∧ x.prot ≤ 2 ∧ x.base % 2 ^ x.log2 = 0 ∧ x.flags < 256) &&
  (!x.coherent || x.fixedLayout) && (!x.compressed || (x.readOnly && !x.fixedLayout)) && !(x.pinHot && x.pinWarm)

/-- Whether every floor slot of a new extent finds room (R108, R117). -/
def State.roomFor (s : State) (x : Ext) : Bool :=
  let need := x.size / 2 ^ 21
  ((if x.set1 = 0xFF then [] else [x.set1]) ++ (if x.set2 = 0xFF then [] else [x.set2])).all (fun k => match s.sset k with
    | none => false
    | some y => decide ((s.stagingUsed k).length + s.setReserved k + need ≤ s.setPages y))

/-- What the command of MBOX_EXT_ADD does. -/
def mboxExtAdd (slot : Nat) (fin : Nat → List Nat → Prog) : Prog := rd fun u =>
    let e := u.mboxExt slot
    let x := u.newExt slot
    let pages := x.size / 2 ^ 21
    let routes := u.pool.routes.filterMap (fun r => r.2.bind (fun y => if meets x.base x.log2 r.1 y.log2 then some (r.1, y) else none))
    if (u.ext e).st ≠ .free ∨ u.fenced x.part then fin mbWrongState []
    else if ¬ x.formOk ∨ ¬ u.floorOk x then fin mbBadArg []
    else if u.pool.exts.any (fun y => decide (y.2.st ≠ .free) && meets x.base x.log2 y.2.base y.2.log2) ||
        routes.any (fun r => decide (r.1 ≠ x.base ∨ r.2.log2 ≠ x.log2)) then fin mbOverlap []
    else if routes.any (fun r => !newer32 x.epoch r.2.epoch) then fin mbStale []
    else if ¬ u.roomFor x ∨ 2 ^ 27 < u.newPageBase pages + pages then fin mbNoResource []
    else .all [.eff (.ext e { x with pageBase := u.newPageBase pages, slot1 := u.newSlot x.set1 pages, slot2 := u.newSlot x.set2 pages }), extChange e,
      cleatQueue { src := .adding e, op := u.homeOp e x },
      Prog.each x.floors (fun k => Prog.when (u.coldSet k.1) (Prog.opt (u.sset k.1) (fun y => Prog.each y.trays lowCheck)))]

/-- MBOX_EXT_ADD (R103, R104, R115, R117): an extent entry is taken into ADDING; the slot completes when it is ACTIVE.
[Marks: DESIGN CHOICE, log entry 32.] -/
def execMboxExtAdd (slot : Nat) (s : State) : Host.Outcome State Fault Refusal := run s (mboxGo (fun o => decide (o = 0x01)) slot (mboxExtAdd slot))

/-- An extent is revoked: an ACTIVE one drains, and a RECOVERING one, on which no request is open, is DRAINED (R105).
[Marks: DESIGN CHOICE, log entry 32.] -/
def revokeExtent (e : Nat) : Prog := rd fun s =>
  if (s.ext e).st = .recovering then .all [.eff (.ext e { s.ext e with st := .drained }), extChange e] else enterDraining e

/-- What the command of MBOX_EXT_REVOKE does. -/
def mboxExtRevoke (slot : Nat) (fin : Nat → List Nat → Prog) : Prog := rd fun u =>
    let x := u.ext (u.mboxExt slot)
   
    match x.st with
    | .draining | .drained => fin mbDone []
    | .active | .recovering => .all [
        Prog.when (decide (u.mbox slot 2 % 2 ^ 16 ≠ 0)) (.eff (.ext (u.mboxExt slot) { x with drainUs := u.mbox slot 2 % 2 ^ 16 })),
        revokeExtent (u.mboxExt slot), fin mbDone []]
    | _ => fin mbWrongState []

/-- MBOX_EXT_REVOKE (R105, R106, R117): an extent is put into DRAINING, for DRAIN_US where the command names a time. -/
def execMboxExtRevoke (slot : Nat) (s : State) : Host.Outcome State Fault Refusal := run s (mboxGo (fun o => decide (o = 0x02)) slot (mboxExtRevoke slot))

/-- What the command of MBOX_EXT_RELEASE does. -/
def mboxExtRelease (slot : Nat) (fin : Nat → List Nat → Prog) : Prog := rd fun u =>
    let x := u.ext (u.mboxExt slot)
   
    if x.st = .drained ∨ x.st = .lost then .all [releaseExtent (u.mboxExt slot) false, fin mbDone []] else fin mbWrongState []

/-- MBOX_EXT_RELEASE (R107, R117): a DRAINED or LOST extent enters RELEASING. -/
def execMboxExtRelease (slot : Nat) (s : State) : Host.Outcome State Fault Refusal := run s (mboxGo (fun o => decide (o = 0x03)) slot (mboxExtRelease slot))

/-- The number of an extent state, in the order of R105.
[Marks: DESIGN CHOICE, log entry 32.] -/
def ExtState.num : ExtState → Nat
  | .free => 0 | .adding => 1 | .active => 2 | .draining => 3 | .drained => 4 | .releasing => 5 | .recovering => 6 | .lost => 7

/-- What the command of MBOX_EXT_QUERY does. -/
def mboxExtQuery (slot : Nat) (fin : Nat → List Nat → Prog) : Prog := rd fun u =>
    let x := u.ext (u.mboxExt slot)
   
    let ps := u.pool.pages.filter (fun e => x.hasPage e.1)
    let sets := (x.set1 :: (if x.prot = 1 then [x.set2] else [])).filterMap u.sset
    if x.st = .free then fin mbDone [0, 0, 0, 0, 0]
    else fin mbDone [
      x.st.num + ps.countP (fun e => decide (e.2.st = .poisoned)) % 4096 * 256, x.openReq,
      ps.countP (fun e => match e.2.place with | .hot _ _ => true | _ => false),
      ps.countP (fun e => match e.2.place with | .staging _ _ => true | _ => false),
      b2n (sets.any (fun y => !y.degraded.isEmpty)) + 2 * b2n (decide (x.st ≠ .releasing) && sets.any (fun y => y.rebuild.isSome))]

/-- MBOX_EXT_QUERY (R114): state, open requests and placement of an extent.
[Marks: DESIGN CHOICE, log entry 32.] -/
def execMboxExtQuery (slot : Nat) (s : State) : Host.Outcome State Fault Refusal := run s (mboxGo (fun o => decide (o = 0x04)) slot (mboxExtQuery slot))

/-- What the command of MBOX_EXT_SET_POLICY does. -/
def mboxExtSetPolicy (slot : Nat) (fin : Nat → List Nat → Prog) : Prog := rd fun u =>
    let x := u.ext (u.mboxExt slot)
   
    let y := { x with flags := u.mbox slot 2 % 2 ^ 10 }
    if x.st = .free ∨ u.fenced x.part then fin mbWrongState []
    else if y.flags / 8 ≠ x.flags / 8 ∨ (y.pinHot ∧ y.pinWarm) ∨ (x.set1 = 0xFF ∧ ¬ y.pinHot) then fin mbBadArg []
    else .all [.eff (.ext (u.mboxExt slot) y), extChange (u.mboxExt slot), fin mbDone []]

/-- MBOX_EXT_SET_POLICY (R102, R103, R114): PIN_HOT, PIN_WARM and STAGING_OK of an extent change. -/
def execMboxExtSetPolicy (slot : Nat) (s : State) : Host.Outcome State Fault Refusal := run s (mboxGo (fun o => decide (o = 0x05)) slot (mboxExtSetPolicy slot))

/-- What the command of MBOX_EXT_ROUTE does. -/
def mboxExtRoute (slot : Nat) (fin : Nat → List Nat → Prog) : Prog := rd fun u =>
    let w := u.mbox slot
    let l := bits (w 1) 8 5
    let b := w 2 + w 3 % 2 ^ 20 * 2 ^ 32
    let here := (u.pool.exts.filter (fun e => decide (e.2.st ≠ .free) && meets b l e.2.base e.2.log2))
    let others := u.pool.routes.filterMap (fun r => r.2.bind (fun y => if meets b l r.1 y.log2 then some (r.1, y) else none))
    let unroute (r : Nat × Route) : Prog := .all [Prog.when r.2.inst (cleatSys (u.routeOp r.1 r.2).undo), .eff (.route r.1 none)]
    if l < 21 ∨ 30 < l ∨ b % 2 ^ l ≠ 0 then fin mbBadArg []
    else if w 1 % 2 = 0 then .all [Prog.each (others.filter (fun r => decide (r.1 = b ∧ r.2.log2 = l))) unroute, fin mbDone []]
    else if others.any (fun r => decide (r.1 ≠ b ∨ r.2.log2 ≠ l)) then fin mbOverlap []
    else if here.any (fun e => !newer32 (w 4) e.2.epoch) || others.any (fun r => !newer32 (w 4) r.2.epoch) then fin mbStale []
    else .all [
      Prog.each others unroute,
      Prog.each (here.filter (fun e => decide (e.2.st = .active ∨ e.2.st = .recovering))) (fun e => .all [
        log { src := srcFelt, cause := 0x303, sev := 0, obj0 := e.1, obj1 := w 4, part := some e.2.part }, revokeExtent e.1]),
      .eff (.route b (some { log2 := l, home := bits (w 1) 4 4, epoch := w 4, inst := false })), installRoutes, fin mbDone []]

/-- MBOX_EXT_ROUTE (R104, R109, R110, R117): a route entry is added, which puts a local home of a lower epoch into DRAINING, or removed.
[Marks: DESIGN CHOICE, log entry 32.] -/
def execMboxExtRoute (slot : Nat) (s : State) : Host.Outcome State Fault Refusal := run s (mboxGo (fun o => decide (o = 0x06)) slot (mboxExtRoute slot))

/-- What the command of MBOX_PAGE_CLEAR does. -/
def mboxPageClear (slot : Nat) (fin : Nat → List Nat → Prog) : Prog := rd fun u =>
    let a := u.mbox slot 1 + u.mbox slot 2 * 2 ^ 32
    let p := a / 2 ^ 21
    match u.extAt a with
    | none => fin mbBadArg []
    | some e =>
      if a % 2 ^ 21 ≠ 0 then fin mbBadArg []
      else
        let x := u.ext e
        if u.fenced x.part then fin mbWrongState []
        else if (u.page p).st ≠ .poisoned then fin mbDone []
        else .all [.eff (.page p {}), .eff (.memZero a (a + 2 ^ 21)), pageChange p, fin mbDone []]

/-- MBOX_PAGE_CLEAR (R134, R117): a POISONED page is filled with zeros. -/
def execMboxPageClear (slot : Nat) (s : State) : Host.Outcome State Fault Refusal := run s (mboxGo (fun o => decide (o = 0x07)) slot (mboxPageClear slot))

/-! ### Trays and stripe sets (R117 to R119, R138, R139, R557) -/

/-- Usable bytes of a flash tray (R557). -/
def State.flashUsable (s : State) (d : TrayDev) : Nat :=
  let zb := d.cz * 65536
  let r := max (s.r F.TIER_FLASH_CTRL.FREE_LOW []) (s.r F.TIER_FLASH_CTRL.FREE_HIGH []) + 2 + cdiv (2 * s.r F.TIER_FLASH_JOURNAL.CKPT_MIB [] * 2 ^ 20) zb + cdiv (2 * d.zones * d.cz * 8) zb
  (d.zones - 2 - r) * (d.cz - cdiv d.cz 16384) * 65536

/-- Whether a device is a flash tray the switch accepts (R138). -/
def flashTrayOk (d : TrayDev) : Bool := d.fits && decide (4096 ≤ d.cz ∧ d.cz ≤ 65536 ∧ d.cz % 4 = 0 ∧ d.zones ≤ 2 ^ 24)

/-- MBOX_TRAY_ATTACH (R117, R138, R557): the device that answers on the named port is attached as a tray; `dev` is none where none answers.
[Marks: DESIGN CHOICE, log entry 33.] -/
def execMboxTrayAttach (slot : Nat) (dev : Option TrayDev) (s : State) : Host.Outcome State Fault Refusal := run s <|
  mboxGo (fun o => decide (o = 0x10)) slot fun fin => rd fun u =>
    let w := u.mbox slot 1
    let t := w % 64
    let die := bits w 6 3
    let port := bits w 9 6
    let kind := bits w 15 1
    if (u.trayAt t).isSome then fin mbWrongState []
    else match dev with
      | none => fin mbBadArg []
      | some d =>
        if 3 < die ∨ d.kind ≠ kind ∨ u.r F.BRIM_OCTET.MODE [die, port / 4] ≠ (if kind = 1 then 2 else 3) ∨ (kind = 1 ∧ ¬ flashTrayOk d) then fin mbBadArg []
        else
          let cap := if kind = 1 then u.flashUsable d else d.bytes * 31 / 32
          .all [
            .eff (.tray t (some { kind := kind, die := die, port := port, cap := cap })),
            Prog.when (decide (kind = 1)) (.eff (.flash t { zones := d.zones, cz := d.cz, zn := [(0, { role := .root }), (1, { role := .root })] })),
            autoRebuild, fin mbDone [cap % 2 ^ 32, cap / 2 ^ 32]]

/-- MBOX_TRAY_DETACH (R117): a tray in no stripe set is removed. -/
def execMboxTrayDetach (slot : Nat) (s : State) : Host.Outcome State Fault Refusal := run s <|
  mboxGo (fun o => decide (o = 0x11)) slot fun fin => rd fun u =>
    let t := u.mbox slot 1 % 64
    let used := u.pool.sets.any (fun e => match e.2 with
      | none => false
      | some y => y.trays.contains t || (match y.rebuild with | some r => decide (r.2 = t) | none => false))
    if (u.trayAt t).isNone ∨ used then fin mbWrongState []
    else .all [.eff (.tray t none), .eff (.flash t {}), fin mbDone []]

/-- What the command of MBOX_STRIPE_SET_DEFINE does. -/
def mboxStripeSetDefine (slot : Nat) (fin : Nat → List Nat → Prog) : Prog := rd fun u =>
    let w := u.mbox slot 1
    let k := w % 256
    let mode := bits w 8 2
    let unit := bits w 10 3
    let staging := bit w 13
    let map := u.mbox slot 2 + u.mbox slot 3 * 2 ^ 32
    let ts := (List.range 64).filter (fun t => bit map t)
    let n := ts.length
    let kinds := ts.map (fun t => (u.trayAt t).map (·.kind))
    let flash := kinds.any (fun y => decide (y = some 1))
    let inUse := u.pool.exts.any (fun e => decide (e.2.st ≠ .free ∧ (e.2.set1 = k ∨ e.2.set2 = k))) ||
      !(u.stagingUsed k).isEmpty
    let y : SSet := { mode := mode, unit := unit, staging := staging, trays := ts }
    if k = 255 ∨ 1 < mode ∨ 6 < unit then fin mbBadArg []
    else if (u.sset k).isNone ∧ ts.isEmpty then fin mbBadArg []
    else if (u.sset k).isSome ∧ inUse then fin mbWrongState []
    else if ts.isEmpty then .all [.eff (.sset k none), fin mbDone [0]]
    else if kinds.any (·.isNone) ∨ kinds.eraseDups.length ≠ 1 ∨ 32 < n ∨ (mode = 1 ∧ (n < 3 ∨ 16 < n)) ∨
        (flash ∧ (staging ∨ unit < 4 ∨ (mode = 1 ∧ ¬ (n = 3 ∨ n = 5 ∨ n = 9)))) then fin mbBadArg []
    else .all [.eff (.sset k (some y)), fin mbDone [u.setPages y % 2 ^ 32]]

/-- MBOX_STRIPE_SET_DEFINE (R117, R118, R139): a stripe set is defined, redefined or removed.
[Marks: DESIGN CHOICE, log entry 33.] -/
def execMboxStripeSetDefine (slot : Nat) (s : State) : Host.Outcome State Fault Refusal := run s (mboxGo (fun o => decide (o = 0x12)) slot (mboxStripeSetDefine slot))

/-- What the command of MBOX_STRIPE_SET_REBUILD does. -/
def mboxStripeSetRebuild (slot : Nat) (fin : Nat → List Nat → Prog) : Prog := rd fun u =>
    let w := u.mbox slot 1
    let k := w % 256
    let failed := bits w 8 6
    let repl := bits w 14 6
    match u.sset k, u.trayAt failed, u.trayAt repl with
    | some y, some f, some t =>
      let free := u.pool.sets.all (fun e => match e.2 with
        | none => true
        | some z => !z.trays.contains repl && (match z.rebuild with | some r => decide (r.2 ≠ repl) | none => true))
      if ¬ y.trays.contains failed ∨ t.kind ≠ f.kind ∨ t.cap < f.cap ∨ t.lost ∨ ¬ free then fin mbBadArg []
      else if y.rebuild.isSome ∨ ¬ (y.degraded.contains failed ∨ (u.flash failed).low) then fin mbWrongState []
      else .all [rebuildStart k failed repl, fin mbDone []]
    | _, _, _ => fin mbBadArg []

/-- MBOX_STRIPE_SET_REBUILD (R122, R159): the rebuild of a lost tray, or of one low on space, onto a replacement starts.
[Marks: DESIGN CHOICE, log entry 33.] -/
def execMboxStripeSetRebuild (slot : Nat) (s : State) : Host.Outcome State Fault Refusal := run s (mboxGo (fun o => decide (o = 0x13)) slot (mboxStripeSetRebuild slot))

/-! ### Commands that waited (R112) -/

/-- The command of a slot that waited is performed, or waits for another EXT_ADD. -/
def mboxRun (slot : Nat) : Prog := rd fun s =>
  if s.mboxHeld slot then .eff (.mboxWait (s.pool.waits ++ [slot]))
  else (match s.mbox slot 0 % 256 with
    | 0x01 => mboxExtAdd slot
    | 0x02 => mboxExtRevoke slot
    | 0x03 => mboxExtRelease slot
    | 0x04 => mboxExtQuery slot
    | 0x05 => mboxExtSetPolicy slot
    | 0x06 => mboxExtRoute slot
    | 0x07 => mboxPageClear slot
    | 0x12 => mboxStripeSetDefine slot
    | _ => mboxStripeSetRebuild slot) (mboxDone slot)

/-- An EXT_ADD has ended: the commands that waited are taken up in the order of their GO writes. -/
def mboxNext : Prog := rd fun s => .seq (.eff (.mboxWait [])) (Prog.each s.pool.waits mboxRun)

/-- EXTENT_ADDING_COMPLETE (R105): in their turn among the updates (R376), the Cleat entries of an ADDING extent take their place, a route entry of a lower epoch goes, and the extent is ACTIVE; where an
entry cannot be installed, EXT_ADD completes with the reason and nothing has changed (R117).
[Marks: DESIGN CHOICE, log entry 32.] -/
def execExtentAddingComplete (e : Nat) (s : State) : Host.Outcome State Fault Refusal := run s <|
  let x := s.ext e
  if x.st ≠ .adding ∨ ¬ s.addingTurn e then .skip
  else
    let unroute := match SMap.get none s.pool.routes x.base with
      | some y => if y.log2 = x.log2 then .all [Prog.when y.inst (cleatDo (s.routeOp x.base y).undo), .eff (.route x.base none)] else .skip
      | none => .skip
    let s1 := unroute.run s
    let r1 := s1.cleatCheck (s.homeOp e x) none true
    let r2 := ((cleatDo (s.homeOp e x)).run s1).cleatCheck (s.rightsOp e x) none true
    let r := if r1 = clDone then r2 else r1
    if r = clDone then .all [unroute, cleatDo (s.homeOp e x), cleatDo (s.rightsOp e x), cleatDrop e,
      .eff (.ext e { x with st := .active, slot := none }), extChange e, Prog.opt x.slot (fun m => mboxDone m mbDone []), mboxNext]
    else .all [.eff (.ext e {}), extChange e, cleatDrop e,
      Prog.opt x.slot (fun m => mboxDone m (if r = clOverlap then mbOverlap else if r = clNoRoom then mbNoResource else mbBadArg) []), mboxNext]

/-! ### Connections and queue pairs (R64, R65, R88, R116, R409) -/

/-- PEER_ADDR of a command.
[Marks: DESIGN CHOICE, log entry 52.] -/
def State.mboxPeer (s : State) (slot : Nat) : Nat :=
  s.mbox slot 2 * 2 ^ 96 + s.mbox slot 3 * 2 ^ 64 + s.mbox slot 4 * 2 ^ 32 + s.mbox slot 5

/-- The connection that a command describes, with the die's check-value setting it names. -/
def State.newConn (s : State) (slot : Nat) : Conn :=
  let w := s.mbox slot
  { st := .created, part := bits (w 1) 20 4, services := bits (w 1) 24 8, peerAddr := s.mboxPeer slot, peerConn := w 6 % 2 ^ 16
    tag := bits (w 6) 16 16, portSet := w 7 + w 8 * 2 ^ 32, txPsn0 := w 9, rxPsn0 := w 10, maxOut := w 11 % 2 ^ 10, chk := bits (w 11) 16 8
    token := w 12 * 2 ^ 96 + w 13 * 2 ^ 64 + w 14 * 2 ^ 32 + w 15, rxNext := w 10, txNext := w 9 }

/-- Whether a die's check-value setting exists (R409). -/
def State.chkOk (s : State) (die i : Nat) : Bool := decide (i = 0) || s.rb F.BRIM_CHK_SET.VALID [die, i - 1]

/-- The switch notes which switch of the stage, if any, the peer of a connection is (R46): SWITCH_INDEX + 1, at most 16.
[Marks: DESIGN CHOICE, log entry 52.] -/
def stagePeer (addr : Nat) : Prog := .eff (.peer addr (Config.stagePeer addr % 17))

/-- MBOX_CONN_CREATE (R64, R116): the free connection of least number on the die is created.
[Marks: DESIGN CHOICE, log entry 32.] -/
def execMboxConnCreate (slot : Nat) (s : State) : Host.Outcome State Fault Refusal := run s <|
  mboxGo (fun o => decide (o = 0x20)) slot fun fin => rd fun u =>
    let die := bits (u.mbox slot 1) 16 3
    let x := u.newConn slot
    let c := SMap.freshFrom (8192 * die) (u.btp.conns.filter (fun e => decide (8192 * die ≤ e.1)))
    if u.partSt x.part ≠ ptActive then fin mbWrongState []
    else if ¬ u.chkOk die x.chk then fin mbBadArg []
    else if 8192 * (die + 1) ≤ c then fin mbNoResource []
    else .all [.eff (.conn c x), stagePeer x.peerAddr, fin mbDone [c]]

/-- MBOX_CONN_MODIFY (R65, R116): the fields of a CREATED connection change, or those of an OPEN one beside its partition and PSNs.
[Marks: DESIGN CHOICE, log entry 24.] -/
def execMboxConnModify (slot : Nat) (s : State) : Host.Outcome State Fault Refusal := run s <|
  mboxGo (fun o => decide (o = 0x21)) slot fun fin => rd fun u =>
    let c := u.mbox slot 1 % 2 ^ 16
    let old := u.conn c
    let x := u.newConn slot
    if ¬ (old.st = .created ∨ old.st = .open) ∨ u.partSt x.part ≠ ptActive then fin mbWrongState []
    else if ¬ u.chkOk (connDie c) x.chk ∨ (old.st = .open ∧ x.part ≠ old.part) then fin mbBadArg []
    else .all [
      .eff (.conn c { old with
        part := x.part, services := x.services, peerAddr := x.peerAddr, peerConn := x.peerConn, tag := x.tag, portSet := x.portSet
        maxOut := x.maxOut, chk := x.chk, token := x.token
        txPsn0 := if old.st = .open then old.txPsn0 else x.txPsn0, rxPsn0 := if old.st = .open then old.rxPsn0 else x.rxPsn0
        txNext := if old.st = .open then old.txNext else x.txNext, rxNext := if old.st = .open then old.rxNext else x.rxNext }),
      stagePeer x.peerAddr, fin mbDone []]

/-- MBOX_CONN_DESTROY (R65): a connection enters CLOSING, or is FREE at once from ERROR and FENCED. -/
def execMboxConnDestroy (slot : Nat) (s : State) : Host.Outcome State Fault Refusal := run s <|
  mboxGo (fun o => decide (o = 0x22)) slot fun fin => rd fun u =>
    let c := u.mbox slot 1 % 2 ^ 16
    match (u.conn c).st with
    | .free => fin mbWrongState []
    | .error | .fenced => .all [.eff (.conn c {}), fin mbDone []]
    | .closing => fin mbDone []
    | .created | .open => .all [.eff (.conn c { u.conn c with st := .closing }), closeCheck c, fin mbDone []]

/-- MBOX_QP_CREATE (R88, R116): a queue pair is created at the index that the command names.
[Marks: DESIGN CHOICE, log entry 32.] -/
def execMboxQpCreate (slot : Nat) (s : State) : Host.Outcome State Fault Refusal := run s <|
  mboxGo (fun o => decide (o = 0x24)) slot fun fin => rd fun u =>
    let w := u.mbox slot
    let n := bits (w 1) 16 3 * 2048 + w 1 % 2 ^ 11
    let x := u.newConn slot
    if (SMap.get {} u.btp.qps n).live ∨ u.partSt x.part ≠ ptActive then fin mbWrongState []
    else if w 6 % 2 ^ 16 ≠ 0 ∨ 2 ^ 24 ≤ w 12 ∨ w 13 ≠ 0 ∨ w 14 ≠ 0 ∨ w 15 ≠ 0 then fin mbBadArg []
    else .all [
      .eff (.qp n { live := true, mtu := 1024 * 2 ^ (Config.pathMtu n).val, part := x.part, peerAddr := x.peerAddr, peerQp := w 12, portSet := x.portSet, services := x.services, tag := x.tag
                    txPsn := x.txPsn0 % 2 ^ 24, rxPsn := x.rxPsn0 % 2 ^ 24, maxOut := x.maxOut }),
      fin mbDone []]

/-- MBOX_QP_DESTROY (R88): a queue pair is removed, and what it has open ends unanswered.
[Marks: DESIGN CHOICE, log entry 32.] -/
def execMboxQpDestroy (slot : Nat) (s : State) : Host.Outcome State Fault Refusal := run s <|
  mboxGo (fun o => decide (o = 0x25)) slot fun fin => rd fun u =>
    let n := u.mbox slot 1 % 2 ^ 24
    if ¬ (SMap.get {} u.btp.qps n).live then fin mbWrongState []
    else .all [Prog.each (u.reqsWith (fun q => decide (q.src = .qp n))) (fun e => rd fun v => .all [
        releaseLines e.1 (v.linesHeld e.1), dropReq e.1]), .eff (.qp n {}), fin mbDone []]

/-- MBOX_RESERVED_OPCODE (R114, R117): a reserved opcode completes BAD_OPCODE under cause 0x350. -/
def execMboxReservedOpcode (slot : Nat) (s : State) : Host.Outcome State Fault Refusal := run s <|
  mboxGo (fun o => ! [0x01, 0x02, 0x03, 0x04, 0x05, 0x06, 0x07, 0x10, 0x11, 0x12, 0x13, 0x20, 0x21, 0x22, 0x24, 0x25].contains o) slot
    fun fin => fin mbBadOpcode []

end Sys2Proof.Machine
end

