-- ==== Sys2Proof/Machine/Cxl.lean ====
section
/-! DEFINITION. The messages of CXL ports and coherent agents (R87, R163 to R181): agent requests, snoop responses, probes, and the loss of an agent. -/
namespace Sys2Proof.Machine
open Sys2Proof

/-! ### The port and its agent (R163, R165) -/

/-- The agent registered with VALID = 1 on a CXL port, numbered over all dies. -/
def State.agentOf (s : State) (port : Nat) : Option Nat :=
  firstIdx (fun n => s.rb F.HITCH_AGENT.VALID [n] && decide (s.agentPort n = port)) 32

/-- The opcode under which an agent operation is checked (R170, R372): a read, or a write; taking ownership is checked as a write.
[Marks: DEDUCED, log entry 27.] -/
def CxlOp.asOp : CxlOp → Nat
  | .rdOwn | .rdOwnNoData | .itoMWr | .wrCur | .wrInv | .memWr => 0x11
  | _ => 0x10

/-- An evict or flush, which names a line the agent holds. -/
def CxlOp.evicts : CxlOp → Bool
  | .clFlush | .cleanEvict | .cleanEvictNoData | .dirtyEvict | .memClnEvct => true
  | _ => false

/-- A read of a line. -/
def CxlOp.isRead : CxlOp → Bool
  | .rdCurr | .rdShared | .rdAny | .rdOwn | .rdOwnNoData | .memRdData => true
  | _ => false

/-- The fabric address of a host physical address of a port, and the ACCESS bits of its grant (R372 step 1).
[Marks: DEDUCED, log entry 27.] -/
def State.hostMap (s : State) (port key : Nat) : Option (Nat × Nat) :=
  match s.look (portTag port) key with
  | .hit e => if e.kind = 5 ∧ isRightsTag e.tag then some ((e.result % 2 ^ 52 + (key - e.lo)) % 2 ^ 52, bits e.result 52 4) else none
  | _ => none

/-- An operation that is served uncached becomes a request of the port (R163): a load of the line, or a store of it. An evict changes nothing. Poisoned data for a line that is homed
elsewhere is not sent, since no request between switches can carry the indication.
[Marks: DESIGN CHOICE, log entry 62.] -/
def uncached (src : Src) (port part a : Nat) (op : CxlOp) (data : List Byte) (poison : Bool) (d : Where) (e : Option Nat) : Prog :=
  if op.evicts then send (.cxl port (if op = .memClnEvct then cxlCmp else cxlGoI) (a / 64) [])
  else if poison ∧ ¬ op.isRead ∧ d ≠ .home then cxlRefuse port (a / 64) stPoison 0 0 part
  else fresh fun r => rd fun s =>
    admitReq r { src := src, op := if op.isRead then 0x10 else 0x11, part := part, addr := s.hall a, len := 64, data := (if op.isRead then [] else data),
                   cxl := some op, poison := poison && !op.isRead }
      (.serve d e none) false

/-- A snoop to an agent is outstanding on a line. -/
def State.snooped (s : State) (n l : Nat) : Bool := match s.txnAt l with | some t => t.waitFor.contains n | none => false

/-- An operation of a CXL port on the line of a host physical address.
[Marks: DEDUCED, log entry 27.] -/
def agentOp (port key : Nat) (op : CxlOp) (data : List Byte) (poison : Bool) : Prog := rd fun s =>
  let agent := s.agentOf port
  let part := match agent with | some n => s.agentPart n | none => Config.portPart port % 16
  let src : Src := match agent with | some n => .agent n | none => .cxlPort port
  let st := match agent with | some n => s.agentSt n | none => agAbsent
  if s.portShut port then .skip
  else if st = agRecalling ∨ st = agLost then cxlRefuse port 0 stDenied 0x420 (agent.getD 0) part
  else match s.hostMap port key with
    | none => cxlRefuse port 0 stDenied 0x830 key part
    | some (fa, acc) =>
      let a := fa / 64 * 64
      let l := a / 64
      let q : Req := { src := src, op := op.asOp, part := part, addr := s.hall a, len := 64 }
      let held : Bool := match agent, s.dirAt l with | some n, some e => e.holders.contains n | _, _ => false
      match agent with
      | some n =>
        if st = agActive ∧ (op = .dirtyEvict ∨ op = .memWr) ∧ s.snooped n l then
          .all [snoopAnswered n l .iFwdM data poison, send (.cxl port (if op = .memWr then cxlCmp else cxlGoI) l [])]
        else if ¬ s.rb F.HITCH_CTRL.HITCH_EN [] then cxlRefuse port l stBusy 0 0 part
        else if st = agActive ∧ op.evicts ∧ (held ∨ (s.txnAt l).isSome) then enqueueAgent part l (.cxl op n data poison)
        else
          if acc &&& q.need ≠ q.need then cxlRefuse port l stDenied 0x830 key part
          else if s.fenced part then cxlRefuse port l stFenced 0 0 part
          else match s.resolve q (portTag port) 0x830 with
            | .refuse f c o => if op.evicts then send (.cxl port cxlGoI l []) else cxlRefuse port l f c o part
            | .serve d e e2 =>
              let x := s.ext (e.getD 0)
              if st = agActive ∧ d = .home ∧ x.coherent ∧ x.part = part ∧ s.r F.HITCH_WAYMASK.WAYS [part] ≠ 0 then
                enqueueAgent part l (.cxl op n data poison)
              else uncached src port part a op data poison d (e.orElse (fun _ => e2))
      | none =>
        if acc &&& q.need ≠ q.need then cxlRefuse port l stDenied 0x830 key part
        else if s.fenced part then cxlRefuse port l stFenced 0 0 part
        else match s.resolve q (portTag port) 0x830 with
          | .refuse f c o => if op.evicts then send (.cxl port cxlGoI l []) else cxlRefuse port l f c o part
          | .serve d e _ => uncached src port part a op data poison d e

/-- CXL_RDCURR (R170). -/
def execCxlRdcurr (port key : Nat) (s : State) : Host.Outcome State Fault Refusal := run s (agentOp port key .rdCurr [] false)

/-- CXL_RDSHARED (R170). -/
def execCxlRdshared (port key : Nat) (s : State) : Host.Outcome State Fault Refusal := run s (agentOp port key .rdShared [] false)

/-- CXL_RDANY (R170, R171). -/
def execCxlRdany (port key : Nat) (s : State) : Host.Outcome State Fault Refusal := run s (agentOp port key .rdAny [] false)

/-- CXL_RDOWN (R170). -/
def execCxlRdown (port key : Nat) (s : State) : Host.Outcome State Fault Refusal := run s (agentOp port key .rdOwn [] false)

/-- CXL_RDOWNNODATA (R170). -/
def execCxlRdownnodata (port key : Nat) (s : State) : Host.Outcome State Fault Refusal := run s (agentOp port key .rdOwnNoData [] false)

/-- CXL_ITOMWR (R170). -/
def execCxlItomwr (port key : Nat) (data : List Byte) (poison : Bool) (s : State) : Host.Outcome State Fault Refusal :=
  run s (agentOp port key .itoMWr data poison)

/-- CXL_WRCUR (R170). -/
def execCxlWrcur (port key : Nat) (data : List Byte) (poison : Bool) (s : State) : Host.Outcome State Fault Refusal :=
  run s (agentOp port key .wrCur data poison)

/-- CXL_WRINV (R170). -/
def execCxlWrinv (port key : Nat) (data : List Byte) (poison : Bool) (s : State) : Host.Outcome State Fault Refusal :=
  run s (agentOp port key .wrInv data poison)

/-- CXL_CLFLUSH (R166). -/
def execCxlClflush (port key : Nat) (s : State) : Host.Outcome State Fault Refusal := run s (agentOp port key .clFlush [] false)

/-- CXL_CLEANEVICT (R170). -/
def execCxlCleanevict (port key : Nat) (s : State) : Host.Outcome State Fault Refusal := run s (agentOp port key .cleanEvict [] false)

/-- CXL_CLEANEVICTNODATA (R170). -/
def execCxlCleanevictnodata (port key : Nat) (s : State) : Host.Outcome State Fault Refusal := run s (agentOp port key .cleanEvictNoData [] false)

/-- CXL_DIRTYEVICT (R170, R173). -/
def execCxlDirtyevict (port key : Nat) (data : List Byte) (poison : Bool) (s : State) : Host.Outcome State Fault Refusal :=
  run s (agentOp port key .dirtyEvict data poison)

/-- CXL_CACHEFLUSHED (R166): accepted and ignored. -/
def execCxlCacheflushed (_port : Nat) (s : State) : Host.Outcome State Fault Refusal := run s .skip

/-- CXL_MEMRD (R170): MetaValue S, A or I act as RdShared, RdOwn and RdCurr. -/
def execCxlMemrd (port key : Nat) (m : MetaValue) (s : State) : Host.Outcome State Fault Refusal :=
  run s (agentOp port key (match m with | .s => .rdShared | .a => .rdOwn | .i => .rdCurr) [] false)

/-- CXL_MEMRDDATA (R166). -/
def execCxlMemrddata (port key : Nat) (s : State) : Host.Outcome State Fault Refusal := run s (agentOp port key .memRdData [] false)

/-- CXL_MEMWR (R170, R173). -/
def execCxlMemwr (port key : Nat) (data : List Byte) (poison : Bool) (s : State) : Host.Outcome State Fault Refusal :=
  run s (agentOp port key .memWr data poison)

/-- CXL_MEMCLNEVCT (R170). -/
def execCxlMemclnevct (port key : Nat) (s : State) : Host.Outcome State Fault Refusal := run s (agentOp port key .memClnEvct [] false)

/-- CXL_BICONFLICT (R173): answered with BIConflictAck. -/
def execCxlBiconflict (port l : Nat) (s : State) : Host.Outcome State Fault Refusal := run s (send (.cxl port cxlBiConflictAck l []))

/-- CXL_MEMSPECRD (R166): a hint, not answered. -/
def execCxlMemspecrd (_port _key : Nat) (s : State) : Host.Outcome State Fault Refusal := run s .skip

/-- CXL_UNLISTED_MESSAGE (R166): an error completion under cause 0x420. -/
def execCxlUnlistedMessage (port : Nat) (s : State) : Host.Outcome State Fault Refusal := run s (.all [
  log { src := srcFelt, cause := 0x420, sev := 2, status := stDenied, obj0 := port }, send (.cxl port cxlErr 0 [])])

/-! ### Snoop responses and probes (R172, R173, R177, R179) -/

/-- The reserved line of liveness probes, which lies outside the fabric address space (R179). -/
def probeLine : Nat := 2 ^ 46

/-- No missed response counts against an agent: its link is in Recovery (R451) or held in a fence (R191). -/
def State.linkQuiet (s : State) (n : Nat) : Bool := decide (s.link (s.agentPort n) = lkRecovery) || decide (s.link (s.agentPort n) = lkFenced)

/-- A response of agent n on a line: to a probe, to its outstanding snoop, or late, and then discarded under cause 0x404 (R173).
[Marks: DEDUCED, log entry 27.] -/
def agentAnswer (n l : Nat) (rsp : SnoopRsp) (data : List Byte) (poison : Bool) : Prog := rd fun s =>
  if l = probeLine then .eff (.probe n 0)
  else if s.snooped n l then snoopAnswered n l rsp data poison
  else log { src := srcFelt, cause := 0x404, sev := 0, obj0 := l, obj1 := n, part := some (s.agentPart n) }

/-- CXL_SNOOP_RESPONSE (R172). -/
def execCxlSnoopResponse (n l : Nat) (rsp : SnoopKind) (data : List Byte) (poison : Bool) (s : State) : Host.Outcome State Fault Refusal :=
  run s (agentAnswer n l (match rsp with
    | .iHitI => .iHitI | .vHitV => .vHitV | .iHitSE => .iHitSE | .sHitSE => .sHitSE | .sFwdM => .sFwdM | .iFwdM => .iFwdM | .vFwdV => .vFwdV)
    data poison)

/-- CXL_BIRSP (R172): BIRspI leaves the host in I, BIRspS in S, BIRspE as it was. -/
def execCxlBirsp (n l : Nat) (rsp : BiRsp) (s : State) : Host.Outcome State Fault Refusal :=
  run s (agentAnswer n l (match rsp with | .i => .iHitI | .s => .sHitSE | .e => .vHitV) [] false)

/-- SNOOP_TIMEOUT (R177): the snoop outstanding to agent n on a line has no response in time; nothing counts while its link is in Recovery (R451) or held in the fence
of its partition (R191). -/
def execSnoopTimeout (n l : Nat) (s : State) : Host.Outcome State Fault Refusal := run s <|
  if ¬ s.snooped n l ∨ s.linkQuiet n then .skip
  else .all [count F.HITCH_SNOOP_TIMEOUT_COUNT.COUNT [], agentLost n 0x403,
    rd fun u => if u.snooped n l then snoopAnswered n l .iHitI [] false else .skip]

/-- LIVENESS_PROBE_PERIOD (R179): a probe goes to every ACTIVE agent whose link is not held in a fence. -/
def execLivenessProbePeriod (s : State) : Host.Outcome State Fault Refusal := run s <|
  Prog.each ((List.range 32).filter (fun n => decide (s.agentSt n = agActive ∧ s.link (s.agentPort n) ≠ lkFenced))) (fun n => send (.snoop n .cur probeLine))

/-- LIVENESS_PROBE_TIMEOUT (R179): a probe to agent n is missed; HB_MISS in a row declare the agent lost; nothing counts while its link is in Recovery
(R451) or held in the fence of its partition (R191). -/
def execLivenessProbeTimeout (n : Nat) (s : State) : Host.Outcome State Fault Refusal := run s <|
  if s.agentSt n ≠ agActive ∨ s.linkQuiet n then .skip
  else
    let k := SMap.get 0 s.hitch.probes n + 1
    if s.r F.HITCH_TIMING.HB_MISS [] ≤ k then agentLost n 0x402 else .eff (.probe n k)

/-- AGENT_LINK_DOWN (R179): a link that the fence of a partition disabled declares no agent lost (R191). -/
def execAgentLinkDown (n : Nat) (s : State) : Host.Outcome State Fault Refusal := run s (if s.link (s.agentPort n) = lkFenced then .skip else agentLost n 0x401)

/-! ### Registration and the end of a loss (R180, R182) -/

/-- The lines of which an agent is a holder. -/
def State.linesOf (s : State) (n : Nat) : List Nat :=
  s.hitch.dir.filterMap (fun e => match e.2 with | some d => if d.holders.contains n then some e.1 else none | none => none)

/-- A commit of an agent's registration takes effect (R182): VALID = 0 makes it ABSENT, a loss walk under way being done with it; with VALID = 1 it is ACTIVE once its link trains, or at
once where the link is up and the agent is not LOST. The link of an agent that is registered leaves Disabled (R462). -/
def agentCommit (n : Nat) : Prog := rd fun s =>
  let v := s.stg F.HITCH_AGENT.VALID [n]
  let d := s.stg F.HITCH_AGENT.DIE [n]
  let m := s.stg F.HITCH_AGENT.PORT [n]
  let up := decide (s.r F.BRIM_PORT.LINK_STATE [d, m] = 2)
  let st := s.agentSt n
  .all [
    Prog.when (decide (v = 0 ∧ st = agRecalling)) (.seq (Prog.each (s.linesOf n) purgeLine) driveWaiting),
    wr F.HITCH_AGENT.VALID [n] v, wr F.HITCH_AGENT.KIND [n] (s.stg F.HITCH_AGENT.KIND [n]),
    wr F.HITCH_AGENT.PARTITION [n] (s.stg F.HITCH_AGENT.PARTITION [n]), wr F.HITCH_AGENT.DIE [n] d, wr F.HITCH_AGENT.PORT [n] m,
    .eff (.stage F.HITCH_AGENT.VALID [n] v), .eff (.stage F.HITCH_AGENT.KIND [n] (s.stg F.HITCH_AGENT.KIND [n])),
    .eff (.stage F.HITCH_AGENT.PARTITION [n] (s.stg F.HITCH_AGENT.PARTITION [n])), .eff (.stage F.HITCH_AGENT.DIE [n] d),
    .eff (.stage F.HITCH_AGENT.PORT [n] m),
    wr F.HITCH_AGENT.STATE [n] (if v = 0 then agAbsent else if st = agAbsent ∧ up then agActive else st)]

/-- HITCH_POISON_CLEAR (R181): the write of 1 to GO; the clear is the home's next transaction on the line. -/
def execHitchPoisonClear (s : State) : Host.Outcome State Fault Refusal := run s <| reached 0x1002000 <|
  if s.rb F.HITCH_POISON_CTRL.GO [] then .skip
  else .all [wr F.HITCH_POISON_CTRL.GO [] 1, enqueueNext (s.r F.HITCH_POISON_ADDR.LINE []) .poisonClear]

end Sys2Proof.Machine
end

