-- ==== Sys2Proof/Machine/Tm.lean ====
section
/-! DEFINITION. The traffic manager (ch. 13): classification, policers, admission to the shared buffer, multicast, egress scheduling and flushes. -/
namespace Sys2Proof.Machine
open Sys2Proof

/-! ### Tables -/

/-- An egress queue. -/
def State.tmq (s : State) (q : Nat) : TmQ := SMap.get {} s.tm.qs q
/-- The scheduler of a port. -/
def State.tmPort (s : State) (p : Nat) : TmPort := SMap.get {} s.tm.ports p
/-- A frame in the buffer. -/
def State.frm (s : State) (f : Nat) : Option Frm := SMap.get none s.tm.frms f
/-- The VALID queues of a port (R419). -/
def State.portQueues (s : State) (p : Nat) : List Nat := (s.listed F.TM_Q.VALID).filter (fun q => decide (s.r F.TM_Q.PORT [q] = p))

/-- Cells of the shared pool (R420): B. -/
def State.tmB (s : State) : Nat :=
  4194304 - s.r F.FELT_COLL_RESERVE.CELLS [] - (((s.listed F.TM_Q.VALID).map (fun q => s.r F.TM_Q.MIN_CELLS [q])).sum)

/-- Free shared cells (R421): F. -/
def State.tmF (s : State) : Nat := s.tmB - s.tm.used

/-- Shared cells of a partition (R421): P. -/
def State.tmP (s : State) (p : Nat) : Nat :=
  ((s.tm.qs.filter (fun e => decide (s.r F.TM_Q.PARTITION [e.1] = p))).map (fun e => e.2.s)).sum

/-- Cells of a frame of L bytes without FCS (R413). -/
def frameCells (l : Nat) : Nat := cdiv (l + 32) 256

/-! ### Policers (R424, R425) -/

/-- A policer that is full, as at its commit (R424).
[Marks: DEDUCED, log entry 46.] -/
def State.polFull (s : State) (d i : Nat) : Pol :=
  { tc := s.r F.TM_POL.CBS_KIB [d, i] * 81920000, tp := s.r F.TM_POL.PBS_KIB [d, i] * 81920000, t := s.shadow (8 + d) }

/-- The levels of a policer at a time. -/
def State.polAt (s : State) (d i t : Nat) : Pol :=
  let x := SMap.get {} s.tm.pols (2048 * d + i)
  { tc := min (s.r F.TM_POL.CBS_KIB [d, i] * 81920000) (x.tc + s.r F.TM_POL.CIR [d, i] * (t - x.t))
    tp := min (s.r F.TM_POL.PBS_KIB [d, i] * 81920000) (x.tp + s.r F.TM_POL.PIR [d, i] * (t - x.t)), t := t }

/-- The trTCM (R424): colour (0 green, 1 yellow, 2 red) of a frame of b units with an input colour, and the levels after it.
[Marks: DEDUCED, log entry 46.] -/
def polColour (aware : Bool) (input b : Nat) (x : Pol) : Nat × Pol :=
  if aware ∧ input = 2 then (2, x)
  else if x.tp < b then (2, x)
  else if aware ∧ input = 1 then (1, { x with tp := x.tp - b })
  else if x.tc < b then (1, { x with tp := x.tp - b })
  else (0, { x with tp := x.tp - b, tc := x.tc - b })

/-- What a policer does with a colour (R425): none where it drops the frame, else whether the frame passes as yellow and the DSCP written. -/
def State.polAction (s : State) (d i colour : Nat) : Option (Bool × Option Nat) :=
  if colour = 0 then some (false, none)
  else if colour = 2 ∧ ¬ s.rb F.TM_POL.RED_ACT [d, i] then none
  else match s.r F.TM_POL.YELLOW_ACT [d, i] with
    | 0 => some (false, none)
    | 1 => some (false, some (s.r F.TM_POL.YELLOW_DSCP [d, i]))
    | 2 => some (true, none)
    | _ => none

/-- A frame meets policer i of die d: it is coloured, counted, and passed to a program or dropped. A policer with EN = 0 passes it green.
[Marks: DEDUCED, log entry 46.] -/
def police (d i input bytes : Nat) (go : Bool → Option Nat → Prog) : Prog := rd fun s =>
  let en := s.rb F.TM_POL.EN [d, i]
  let r := polColour (s.rb F.TM_POL.MODE [d, i]) input (bytes * 80000) (s.polAt d i (s.shadow (8 + d)))
  let c := if en then r.1 else 0
  .all [
    Prog.when en (.eff (.pol (2048 * d + i) r.2)),
    tally (if c = 0 then F.TM_POL.GREEN_PKTS else if c = 1 then F.TM_POL.YELLOW_PKTS else F.TM_POL.RED_PKTS) [d, i] 1,
    match s.polAction d i c with
    | none => .skip
    | some (y, dscp) => go y dscp]

/-! ### Tags and buckets (R426, R428) -/

/-- Whether tag a comes at or before tag b: 48-bit values compared over a half range. -/
def tagLe (a b : Nat) : Bool := decide ((b + 2 ^ 48 - a % 2 ^ 48) % 2 ^ 48 < 2 ^ 47)

/-- The later of two tags. -/
def tagMax (a b : Nat) : Nat := if tagLe a b then b else a

/-- What a frame of wire length Lw adds to a tag at a weight; a weight of 0 acts as 1. -/
def tagInc (lw w : Nat) : Nat := lw * 65536 / max 1 w

/-- Finish tag of a frame with a start tag. -/
def tagFin (st lw w : Nat) : Nat := (st + tagInc lw w) % 2 ^ 48

/-- The level of a bucket at time t, up to its depth in bytes. -/
def bucketAt (b : Int) (t0 t rate depth : Nat) : Int := min ((depth * 80000 : Nat) : Int) (b + ((rate * (t - t0) : Nat) : Int))

/-- Bytes put in place of those at an offset. -/
def putAt (l : List Byte) (o : Nat) (bs : List Byte) : List Byte := l.take o ++ bs ++ l.drop (o + bs.length)

/-- The bytes of a frame whose IP header takes a DSCP and a CE mark, with its header checksum for IPv4 (R423, R425).
[Marks: PRESUMED, log entry 67.] -/
def remark (dscp : Option Nat) (ce : Bool) (l : List Byte) : List Byte :=
  let o := if byteAt l 12 = 0x81 ∧ byteAt l 13 = 0 then 18 else 14
  let tos (t : Nat) : Nat := (dscp.getD (t / 4)) % 64 * 4 + (if ce then 3 else t % 4)
  if byteAt l (o - 2) = 0x08 ∧ byteAt l (o - 1) = 0 then
    let m := putAt (putAt l (o + 1) (leBytes 1 (tos (byteAt l (o + 1))))) (o + 10) [0, 0]
    putAt m (o + 10) (beBytes 2 (65535 - ((sum16 ((m.drop o).take (4 * (byteAt m o % 16))) - 1) % 65535 + 1)))
  else if byteAt l (o - 2) = 0x86 ∧ byteAt l (o - 1) = 0xDD then
    let w := byteAt l o * 256 + byteAt l (o + 1)
    putAt l o (beBytes 2 (w / 4096 * 4096 + tos (w / 16 % 256) * 16 + w % 16))
  else l

/-- The bytes with which a frame leaves. -/
def Frm.leaves (x : Frm) (ce : Bool) : List Byte := if x.dscp.isNone ∧ ce = false then x.data else remark x.dscp ce x.data

/-- Wire length (R426). -/
def Frm.wire (x : Frm) : Nat := x.bytes + 20

/-- The finish tag of a frame that becomes the head of a queue (R428): of one newly active, or after a frame with a finish tag. -/
def State.headTag (s : State) (q : Nat) (prev : Option Nat) (x : Frm) : Nat :=
  let w := s.r F.TM_Q.WEIGHT [q]
  let st := match prev with
    | some f => f
    | none => tagMax (s.tmq q).last (((s.tmPort (s.r F.TM_Q.PORT [q])).v + 2 ^ 48 - (s.r F.TM_Q.BURST_KIB [q] * 1024 * 65536 / max 1 w) % 2 ^ 48) % 2 ^ 48)
  tagFin st x.wire w

/-! ### Cells -/

/-- Cells of a queue come back: S first, then G (R421). -/
def TmQ.back (x : TmQ) (n : Nat) : TmQ := { x with s := x.s - min x.s n, g := x.g - (n - min x.s n) }

/-- A frame whose last reader is done and whose last cell is written leaves the buffer; F gets its shared cells back (R421, R431).
[Marks: DEDUCED, log entry 46.] -/
def frameGone (f : Nat) : Prog := rd fun s => match s.frm f with
  | none => .skip
  | some x => if x.qs.isEmpty ∧ x.done then .all [.eff (.tmUsed (s.tm.used - x.ret)), .eff (.frm f none)] else .skip

/-- A member queue has sent or flushed its copy of a frame.
[Marks: DEDUCED, log entry 46.] -/
def copyDone (f q : Nat) : Prog := rd fun s => match s.frm f with
  | none => .skip
  | some x => if ¬ x.qs.contains q then .skip
    else
      let y := s.tmq q
      .all [.eff (.tmq q (y.back x.n)),
        .eff (.frm f (some { x with qs := x.qs.filter (fun r => decide (r ≠ q)), out := x.out.filter (fun r => decide (r ≠ q))
                                    ret := if q = x.first then min y.s x.n else x.ret })),
        frameGone f]

/-- A frame that arrives at queue q takes cells there where admission lets it (R421): the numbers counted as guaranteed and as shared.
[Marks: DEDUCED, log entry 46.] -/
def State.admitCells (s : State) (q part n : Nat) (yellow : Bool) : Option (Nat × Nat) :=
  let x := s.tmq q
  let ng := min n (s.r F.TM_Q.MIN_CELLS [q] - x.g)
  let ns := n - ng
  let a := s.r F.TM_Q.ALPHA [q]
  let lim := if 4 ≤ a then s.tmF * 2 ^ (a - 4) else s.tmF / 2 ^ (4 - a)
  let lim := if yellow then lim / 2 else lim
  if ns = 0 ∨ (x.s + ns ≤ lim ∧ s.tmP part + ns ≤ s.r F.TM_PART.SHARED_MAX [part] ∧ ns ≤ s.tmF) then some (ng, ns) else none

/-- Whether an ECN-capable frame is marked at a queue of depth D, for a draw of 16 bits (R423).
[Marks: DESIGN CHOICE, log entry 2.] -/
def State.ecnMark (s : State) (q depth draw : Nat) : Bool :=
  let lo := 16 * s.r F.TM_Q.ECN_KMIN [q]
  let hi := 16 * s.r F.TM_Q.ECN_KMAX [q]
  if depth < lo then false
  else if hi ≤ depth then true
  else decide (draw * (hi - lo) * 256 < (depth - lo) * s.r F.TM_Q.ECN_PMAX [q] * 65536)

/-- A frame enters a queue (R423, R428). -/
def enqueueFrame (f q ng ns : Nat) (ect : Bool) : Prog := rd fun s => .seq (.eff .drawFree) <| match s.frm f with
  | none => .skip
  | some x =>
    let y := s.tmq q
    let ce := ect && s.rb F.TM_Q.ECN_EN [q] && s.ecnMark q (y.g + y.s) ((Config.freeValue s.free).toNat % 65536)
    .all [
      .eff (.tmq q { y with g := y.g + ng, s := y.s + ns, frames := y.frames ++ [(f, ce)], fin := if y.frames.isEmpty then s.headTag q none x else y.fin }),
      .eff (.frm f (some { x with qs := x.qs ++ [q] }))]

/-- A frame is dropped at a queue by admission (R422). -/
def admitDrop (q : Nat) : Prog := rd fun s => .all [
  tally F.TM_Q_STAT.DROP_PKTS [q] 1, count F.TM_ADMIT_DROP_COUNT.COUNT [],
  log { src := srcFelt, cause := 0x201, sev := 1, obj0 := q, part := some (s.r F.TM_Q.PARTITION [q]) }]

/-- A frame without a queue is dropped (R417, R418). -/
def noQueue (port : Nat) (part : Option Nat) : Prog := .all [
  count F.TM_NOQUEUE_DROP_COUNT.COUNT [], log { src := srcFelt, cause := 0x202, sev := 1, obj0 := port, part := part }]

/-- The queue of a base queue and class for a frame of a partition (R418). -/
def State.queueOf (s : State) (base tc part : Nat) : Option Nat :=
  let ok (q : Nat) : Bool := decide (q < 16384) && s.rb F.TM_Q.VALID [q]
  let q := if ok (base + tc) then base + tc else base
  if ok q && decide (s.r F.TM_Q.PARTITION [q] = part) then some q else none

/-- A frame for a queue that is flushed or whose port is down or fenced is dropped (R433, R434). -/
def State.queueShut (s : State) (q : Nat) : Bool :=
  let p := s.r F.TM_Q.PORT [q]
  (s.tmq q).flush || !s.rb F.TM_PORT.UP [p] || s.rb F.TM_PORT.FLUSHING [p] || s.rb F.TM_PORT.FENCED [p]

/-- A unicast frame is admitted to its queue or dropped (R418, R421). -/
def unicast (port part n : Nat) (hdr : FrameHdr) (dscp : Option Nat) (yellow : Bool) (q : Nat) : Prog := rd fun s =>
  if s.queueShut q then tally F.TM_Q_STAT.DROP_PKTS [q] 1
  else match s.admitCells q part n yellow with
    | none => admitDrop q
    | some (ng, ns) => fresh fun f => .all [
        .eff (.frm f (some { port := port, part := part, bytes := hdr.bytes, n := n, dscp := dscp, first := q, data := hdr.data })),
        .eff (.tmUsed (s.tm.used + ns)), enqueueFrame f q ng ns hdr.ect]

/-- The member queues of a multicast frame take it one after another; the first that admits it is charged for F (R431).
[Marks: DEDUCED, log entry 46.] -/
def memberAdmit (f n part : Nat) (hdr : FrameHdr) (yellow : Bool) : List Nat → Prog
  | [] => .skip
  | q :: qs => .seq (rd fun s =>
      if s.queueShut q then .skip
      else match s.frm f, s.admitCells q part n yellow with
        | some x, some (ng, ns) => .all [
            Prog.when x.qs.isEmpty (.all [.eff (.tmUsed (s.tm.used + ns)), .eff (.frm f (some { x with first := q }))]),
            enqueueFrame f q ng ns hdr.ect]
        | _, _ => admitDrop q) (memberAdmit f n part hdr yellow qs)

/-- A multicast frame is written once for every member that admits it, and dropped where none does (R430, R431).
[Marks: DEDUCED, log entry 46.] -/
def multicast (port part n : Nat) (hdr : FrameHdr) (dscp : Option Nat) (yellow : Bool) (g tc : Nat) : Prog := rd fun s =>
  let base := rangeFrom (s.r F.TM_MCG.FIRST [g]) (s.r F.TM_MCG.COUNT [g])
  let qs := base.filterMap (fun m => s.queueOf (s.r F.TM_MCM.QUEUE [m]) tc part)
  fresh fun f => .all [
    .eff (.frm f (some { port := port, part := part, bytes := hdr.bytes, n := n, mcast := true, dscp := dscp, data := hdr.data })),
    memberAdmit f n part hdr yellow qs,
    rd fun u => match u.frm f with
      | some x => Prog.when x.qs.isEmpty (.eff (.frm f none))
      | none => .skip]

/-- A classified frame of the cell plane takes its queue or group (R417, R418, R430).
[Marks: DESIGN CHOICE, log entry 6; DEDUCED, log entry 46.] -/
def switchFrame (port tc : Nat) (hdr : FrameHdr) (yellow : Bool) (dscp : Option Nat) : Prog := rd fun s =>
  let d := port / 64
  let j := port % 64
  let part : Option Nat := if s.rb F.TM_INPORT.SHARED [d, j] then
      match hdr.vlan with
      | some v => if s.rb F.TM_VLAN.VALID [d, v % 4096] then some (s.r F.TM_VLAN.PARTITION [d, v % 4096]) else none
      | none => none
    else some (s.r F.TM_INPORT.PARTITION [d, j])
  let l2 := if hdr.vlan.isSome then 18 else 14
  let n := frameCells (max 60 (l2 + hdr.ipLen.getD (s.mtu d j)))
  if ¬ s.rb F.TM_CTRL.TM_EN [] then .skip
  else match part with
    | none => noQueue port none
    | some p =>
      if s.fenced p then .skip
      else match cleatLook s.cleat.fwd hdr.tag hdr.key with
        | .hit e =>
          let r := e.result % 2 ^ 14
          if ¬ isFwdTag hdr.tag ∨ e.kind ≠ 0xC then noQueue port (some p)
          else if bit e.result 14 then
            (if 4096 ≤ r ∨ ¬ s.rb F.TM_MCG.VALID [r] ∨ s.r F.TM_MCG.PARTITION [r] ≠ p then noQueue port (some p)
            else multicast port p n hdr dscp yellow r tc)
          else match s.queueOf r tc p with
            | none => noQueue port (some p)
            | some q => unicast port p n hdr dscp yellow q
        | _ => noQueue port (some p)

/-- What a receiver does with a frame it finds bad (R414, R441, R454). -/
def badFrame (port : Nat) (e : RxErr) : Prog :=
  let d := port / 64
  let j := port % 64
  match e with
  | .none => .skip
  | .size => count F.PORT_OVERSIZE_COUNT.COUNT [d, j]
  | .fcs => count F.PORT_FCS_ERR_COUNT.COUNT [d, j]
  | .macsec => .all [count F.PORT_MACSEC_FAIL_COUNT.COUNT [d, j], log { src := srcBrim d, cause := 0x120, sev := 1, obj0 := port }]

/-- What a port makes of the SecTAG of a frame (R453, R454, R480): on a MACsec port every frame carries one. The association number of the next SAK activates it, and a packet number
below the replay window fails. A port without MACsec takes every frame. -/
def State.secure (s : State) (port : Nat) (sec : Option (Nat × Nat)) : Option PortSt :=
  let x := s.port port
  if ¬ s.macsec port then some x
  else match sec with
    | none => none
    | some (an, pn) =>
      let y : PortSt := if an % 2 = x.rxSak % 2 then x else { x with rxSak := x.rxSak + 1, rxPn := 1 }
      if pn + s.r F.BRIM_PORT.REPLAY_WINDOW [port / 64, port % 64] < y.rxPn then none else some { y with rxPn := max y.rxPn (pn + 1) }

/-- FRAME_RECEIVE (R416 to R425, R441, R453): a frame arrives at an UP port. A bad frame is dropped and counted; a good one is classified and policed. A packet of the memory plane is then
its transport engine's (BTP_PACKET_RECEIVE); a frame of the cell plane goes to its queue. -/
def execFrameReceive (port : Nat) (hdr : FrameHdr) (s : State) : Host.Outcome State Fault Refusal := run s <|
  let d := port / 64
  let j := port % 64
  let sa := s.secure port hdr.sec
  let err := if hdr.err = .none ∧ (hdr.bytes < 64 ∨ s.r F.BRIM_PORT.MAX_FRAME [d, j] < hdr.bytes) then RxErr.size
    else if hdr.err = .none ∧ sa.isNone then RxErr.macsec else hdr.err
  let c := s.r F.TM_INPORT.PROFILE [d, j] * 64 + hdr.dscp.getD 0 % 64
  let tc := s.r F.TM_CLASS.TC [d, c]
  let input := s.r F.TM_CLASS.COLOUR [d, c]
  let go (y : Bool) (dscp : Option Nat) : Prog := if hdr.mem then .skip else switchFrame port tc hdr y dscp
  if 512 ≤ port ∨ s.link port ≠ lkUp ∨ s.boot.pend.isSome then .skip
  else if err ≠ .none then badFrame port err
  else .seq (Prog.opt sa (fun y => Prog.when (s.macsec port) (.eff (.port port y)))) (
    if s.rb F.TM_CLASS.POL_EN [d, c] then
      police d ((s.r F.TM_INPORT.POL_BASE [d, j] + s.r F.TM_CLASS.POL_OFF [d, c]) % 2048) input hdr.bytes go
    else go (decide (input = 1)) none)

/-- PAUSE_FRAME_RECEIVE (R440): the frame is discarded and counted. -/
def execPauseFrameReceive (port : Nat) (s : State) : Host.Outcome State Fault Refusal := run s <|
  if 512 ≤ port ∨ s.link port ≠ lkUp then .skip
  else .all [count F.PORT_PAUSE_DROP_COUNT.COUNT [port / 64, port % 64], log { src := srcBrim (port / 64), cause := 0x103, sev := 1, obj0 := port }]

/-! ### The last cell (R414, R421) -/

/-- A frame's ingress failed: its copies not yet begun are discarded, those on the wire are ended with an inverted FCS (R414).
[Marks: DEDUCED, log entry 46.] -/
def frameFailed (f : Nat) : Prog := rd fun s => match s.frm f with
  | none => .skip
  | some x => .all [
      .eff (.frm f (some { x with done := true })),
      Prog.each x.out (fun q => .all [send (.stomp (s.r F.TM_Q.PORT [q]) f), count F.TM_STOMP_COUNT.COUNT []]),
      Prog.each x.qs (fun q => .all [
        rd fun u =>
          let y := u.tmq q
          let ys := y.frames.filter (fun e => decide (e.1 ≠ f))
          let fin := if (y.frames.head?.map (·.1)) = some f then
              (match ys with
              | e :: _ => (match u.frm e.1 with | some z => u.headTag q none z | none => y.fin)
              | [] => y.fin)
            else y.fin
          .eff (.tmq q { y with frames := ys, fin := fin }),
        copyDone f q]),
      frameGone f]

/-- FRAME_LAST_CELL_WRITTEN (R414, R421): the last cell of frame f is written. A good frame is eligible, gives back the cells it did not need, and is done where it is being sent; one that
failed, or that turned out longer than what it was admitted for, is discarded or ended on the wire. -/
def execFrameLastCellWritten (f bytes : Nat) (err : RxErr) (s : State) : Host.Outcome State Fault Refusal := run s <|
  match s.frm f with
  | none => .skip
  | some x =>
    let n := frameCells (bytes - 4)
    if x.done then .skip
    else if err ≠ .none then .all [badFrame x.port err, frameFailed f]
    else if x.n < n then frameFailed f
    else
      let k := x.n - n
      .all [
        Prog.each x.qs (fun q => rd fun u =>
          let y := u.tmq q
          .all [.eff (.tmq q (y.back k)), Prog.when (decide (q = x.first)) (.eff (.tmUsed (u.tm.used - min y.s k)))]),
        .eff (.frm f (some { x with done := true, n := n, bytes := bytes })),
        Prog.each x.out (copyDone f), frameGone f]

/-! ### Egress scheduling (R426 to R429) -/

/-- The head of a queue, where it may be sent now (R414). -/
def State.headOf (s : State) (q : Nat) : Option (Nat × Bool × Frm) :=
  let y := s.tmq q
  match y.frames with
  | [] => none
  | (f, ce) :: _ => match s.frm f with
    | none => none
    | some x => if ¬ y.flush ∧ (x.done ∨ (s.rb F.TM_CTRL.CUT_THROUGH [] ∧ ¬ x.mcast)) then some (f, ce, x) else none

/-- Peak bucket of a queue at a time. -/
def State.peakAt (s : State) (q t : Nat) : Int := let y := s.tmq q; bucketAt y.pb y.t t (s.r F.TM_Q.PIR [q]) (s.r F.TM_Q.PBS_KIB [q] * 1024)
/-- Committed bucket of a queue at a time. -/
def State.commAt (s : State) (q t : Nat) : Int := let y := s.tmq q; bucketAt y.cb y.t t (s.r F.TM_Q.CIR [q]) (s.r F.TM_Q.CBS_KIB [q] * 1024)
/-- Peak eligibility (R426). -/
def State.peakOk (s : State) (q t : Nat) : Bool := decide (s.r F.TM_Q.PIR [q] = 0) || decide (0 ≤ s.peakAt q t)
/-- Committed eligibility (R426). -/
def State.commOk (s : State) (q t : Nat) : Bool := decide (0 < s.r F.TM_Q.CIR [q]) && decide (0 ≤ s.commAt q t)
/-- Peak bucket of a port's response queue at a time, 16 KiB deep. -/
def State.respPeakAt (s : State) (p t : Nat) : Int := let y := s.tmPort p; bucketAt y.pb y.t t (s.r F.TM_PORT.RESP_PIR [p]) 16384
/-- Peak eligibility of the response queue. -/
def State.respOk (s : State) (p t : Nat) : Bool :=
  decide ((s.tmPort p).resp ≠ 0) && (decide (s.r F.TM_PORT.RESP_PIR [p] = 0) || decide (0 ≤ s.respPeakAt p t))
/-- The port's bucket at a time, 16 KiB deep.
[Marks: DEDUCED, log entry 46.] -/
def State.portAt (s : State) (p t : Nat) : Int := let y := s.tmPort p; bucketAt y.b y.bt t (s.r F.TM_PORT.RATE [p]) 16384

/-- Whether a port sends frames now: UP, not in re-equalize or fence, its partner sending neither Remote Fault nor a fence, and its bucket not
below 0 (R426, R449, R450, R459). -/
def State.portSends (s : State) (p t : Nat) : Bool :=
  decide (s.link p = lkUp) && s.rb F.TM_PORT.UP [p] && !s.rb F.TM_PORT.FENCED [p] && !(s.port p).remote && (s.port p).rxFence.isNone &&
    (decide (s.r F.TM_PORT.RATE [p] = 0) || decide (0 ≤ s.portAt p t))

/-- What a scheduler picks: the response queue (none), or a queue, and whether V follows (R427).
[Marks: DEDUCED, log entry 46.] -/
def State.pick (s : State) (p t : Nat) : Option (Option Nat × Bool) :=
  let qs := (s.portQueues p).filter (fun q => (s.headOf q).isSome && s.peakOk q t)
  let fair := qs.filter (fun q => !s.rb F.TM_Q.STRICT [q])
  let best (l : List Nat) : Option Nat := l.foldl (fun b q => match b with
    | none => some q
    | some r => if tagLe (s.tmq r).fin (s.tmq q).fin then some r else some q) none
  match qs.find? (fun q => s.rb F.TM_Q.STRICT [q]) with
  | some q => some (some q, false)
  | none => match best (fair.filter (fun q => s.commOk q t)) with
    | some q => some (some q, true)
    | none => match best fair, s.respOk p t with
      | none, false => none
      | none, true => some (none, true)
      | some q, false => some (some q, true)
      | some q, true => if tagLe (s.tmPort p).fin (s.tmq q).fin then some (none, true) else some (some q, true)

/-- The response queue is granted (R426, R428): its first packet leaves (R29). -/
def grantResp (p t : Nat) : Prog := rd fun s =>
  let y := s.tmPort p
  let lw := y.resp + 20
  let q := SMap.get [] s.btp.respQs p
  .all [send (.grant p), .eff (.respQ p (q.drop 1)), Prog.opt q.head? send, .eff (.tmPort p { y with
    v := tagMax y.v y.fin, b := s.portAt p t - ((lw * 80000 : Nat) : Int), bt := t, last := y.fin
    fin := tagFin y.fin lw (s.r F.TM_PORT.RESP_WEIGHT [p]), pb := s.respPeakAt p t - ((lw * 80000 : Nat) : Int), t := t })]

/-- The head frame of a queue is sent (R414, R415, R426, R428): tags and buckets move on, and the frame leaves the queue, or is still being written. -/
def sendHead (p q t : Nat) (fair : Bool) (ecc : Ecc) : Prog := rd fun s => match s.headOf q with
  | none => .skip
  | some (f, ce, x) =>
    let y := s.tmq q
    let z := s.tmPort p
    let w : Int := ((x.wire * 80000 : Nat) : Int)
    let rest := y.frames.drop 1
    let fin := match rest with
      | e :: _ => (match s.frm e.1 with | some n => s.headTag q (some y.fin) n | none => y.fin)
      | [] => y.fin
    .all [
      .eff (.tmq q { y with frames := rest, last := y.fin, fin := fin, cb := s.commAt q t - w, pb := s.peakAt q t - w, t := t }),
      .eff (.tmPort p { z with v := if fair then tagMax z.v y.fin else z.v, b := s.portAt p t - w, bt := t }),
      match ecc with
      | .uncorrectable => .all [send (.stomp p f), count F.TM_ECC_UNCORR_COUNT.COUNT [], health objFelt 5,
          log { src := srcFelt, cause := 0x206, sev := 1, obj0 := p, part := some x.part }, Prog.when x.done (copyDone f q),
          Prog.when (!x.done) (.all [.eff (.frm f (some { x with done := true })), copyDone f q])]
      | e => .all [Prog.when (decide (e = .corrected)) (health objFelt 0), send (.frame p f ce x.dscp (x.leaves ce)),
          if x.done then copyDone f q else .eff (.frm f (some { x with out := x.out ++ [q] }))]]

/-- EGRESS_SELECTION (R427, R415): the scheduler of a port picks its next frame, or grants the response queue; a frame waits in the Felt while the link of the port's die retrains
(R33). `ecc` is what the reads of the frame's cells find. -/
def execEgressSelection (port : Nat) (ecc : Ecc) (s : State) : Host.Outcome State Fault Refusal := run s <|
  let t := s.shadow 16
  if 512 ≤ port ∨ ¬ s.portSends port t then .skip
  else match s.pick port t with
    | none => .skip
    | some (none, _) => grantResp port t
    | some (some q, fair) => if s.d2d.retraining.contains (8 + port / 64) then .skip else sendHead port q t fair ecc

/-- The frame that carries a packet, in bytes including FCS: Ethernet header and FCS, the VLAN tag of a shared port and the MACsec fields (R49, R426). -/
def State.frameBytes (s : State) (p : Nat) (m : Msg) : Nat :=
  match m with
  | .btp _ _ _ ext data chk => 72 + ext.length + data.length + chk.length + 18 + (if s.rb F.TM_INPORT.SHARED [p / 64, p % 64] then 4 else 0) +
      (if s.rb F.BRIM_PORT.MACSEC_EN [p / 64, p % 64] then 24 else 0)
  | _ => 0

/-- RESP_QUEUE_HEAD_CHANGE (R426, R428): the egress arbiter of a port reports the length of the head of its response queue, 0 where it is empty. -/
def execRespQueueHeadChange (port : Nat) (s : State) : Host.Outcome State Fault Refusal := run s <|
  let y := s.tmPort port
  let len := match SMap.get [] s.btp.respQs port with | [] => 0 | m :: _ => s.frameBytes port m
  let w := s.r F.TM_PORT.RESP_WEIGHT [port]
  if 512 ≤ port then .skip
  else if len = 0 then .eff (.tmPort port { y with resp := 0 })
  else .eff (.tmPort port { y with resp := len, fin := tagFin (if y.resp = 0 then tagMax y.last y.v else y.last) (len + 20) w })

/-! ### Flushes (R433, R434) -/

/-- A queue enters FLUSHING: its frames are discarded, those being sent are cut, and the cells freed are noted for the port's record.
[Marks: DEDUCED, log entry 46.] -/
def flushQueue (q : Nat) : Prog := rd fun s =>
  let p := s.r F.TM_Q.PORT [q]
  let fs := s.tm.frms.filterMap (fun e => match e.2 with
    | some x => if x.qs.contains q then some (e.1, x) else none
    | none => none)
  let cells := (fs.map (fun e => if e.2.qs.length = 1 then e.2.n else 0)).sum
  .all [
    .eff (.tmq q { s.tmq q with frames := [], flush := true }),
    Prog.each fs (fun e => copyDone e.1 q),
    rd fun u => let y := u.tmPort p
      .eff (.tmPort p { y with freed := some (y.freed.getD 0 + cells) })]

/-- A packet lost with a response queue stays held by its connection, which sends it again when it next sends (R433). -/
def lostResp (m : Msg) : Prog := rd fun s =>
  match m with
  | .btp c _ h _ _ _ => if h.op = 0x00 ∧ ¬ h.resp then .skip
    else let x := SMap.get {} s.btp.conns c
      .eff (.conn c { x with out := x.out.map (fun o => if o.psn = h.psn then { o with flushed := true } else o) })
  | _ => .skip

/-- Every queue of a port is flushed, and its response queue emptied. -/
def flushPort (p : Nat) : Prog := rd fun s => .all [
  Prog.each (SMap.get [] s.btp.respQs p) lostResp, .eff (.respQ p []),
  Prog.each (s.portQueues p) flushQueue,
  rd fun u => let y := u.tmPort p
    .eff (.tmPort p { y with resp := 0, freed := some (y.freed.getD 0) }),
  wr F.TM_PORT.FLUSHING [p] 1]

/-- The queues of a partition are flushed (R434). -/
def flushPart (p : Nat) : Prog := rd fun s =>
  Prog.each ((s.listed F.TM_Q.VALID).filter (fun q => decide (s.r F.TM_Q.PARTITION [q] = p))) flushQueue

/-- PORT_FLUSH_COMPLETE (R433): the flush of a port's queues ends, and a record names the port and the cells freed; a port that is up accepts frames again.
[Marks: DEDUCED, log entry 46.] -/
def execPortFlushComplete (port : Nat) (s : State) : Host.Outcome State Fault Refusal := run s <|
  match (s.tmPort port).freed with
  | none => .skip
  | some n => .all [
      Prog.each (s.portQueues port) (fun q => rd fun u => if (u.tmq q).flush then .eff (.tmq q { u.tmq q with flush := false }) else .skip),
      .eff (.tmPort port { s.tmPort port with freed := none }), wr F.TM_PORT.FLUSHING [port] 0,
      log { src := srcFelt, cause := 0x204, sev := 1, obj0 := port, obj1 := n }]

end Sys2Proof.Machine
end

