-- ==== Sys2Proof/Machine/Ports.lean ====
section
/-! DEFINITION. Ports and links (ch. 14): octets and lanes, bring-up, re-equalize, PCIe and CXL links, link protection and the fence ordered set. -/
namespace Sys2Proof.Machine
open Sys2Proof

/-! ### Octets, ports and lanes (R437 to R439) -/

/-- Whether a port is enabled on its MAC. -/
def State.portOn (s : State) (p : Nat) : Bool := s.rb F.BRIM_PORT.EN [p / 64, p % 64]

/-- The ports with EN = 1. -/
def State.portsOn (s : State) : List Nat := (s.listedIx F.BRIM_PORT.EN).map (fun ix => 64 * ix.headD 0 + ix.getD 1 0)

/-- Whether a PCIe or CXL link takes an octet pair: it lies on an even octet, the next has the same MODE and no port of its own.
[Marks: DESIGN CHOICE, log entry 20.] -/
def State.x16 (s : State) (p : Nat) : Bool :=
  let d := p / 64
  let k := octetOf p
  decide (p % 8 = 0) && decide (s.r F.BRIM_OCTET.MODE [d, k + 1] = s.portMode p) && !s.portOn (p + 4)

/-- The lanes of a port, numbered on its die (R438, R439). -/
def State.lanes (s : State) (p : Nat) : List Nat :=
  let k := octetOf p
  let md := s.portMode p
  if md = mdEth then rangeFrom (8 * k + 2 * (p % 4)) (2 ^ s.r F.BRIM_PORT.WIDTH [p / 64, p % 64])
  else if md = mdPcie ∨ md = mdCxl then rangeFrom (8 * k) (if s.x16 p then 16 else 8)
  else if md = mdMirror then rangeFrom (8 * k) 16
  else []

/-- Whether a port runs CXL IDE (R455). -/
def State.ideOn (s : State) (p : Nat) : Bool := decide (s.portMode p = mdCxl) && s.rb F.BRIM_OCTET.IDE_EN [p / 64, octetOf p]

/-- The tray attached on a port. -/
def State.trayOn (s : State) (p : Nat) : Option Nat := s.pool.trays.findSome? (fun e => match e.2 with
  | some x => if 64 * x.die + x.port = p then some e.1 else none
  | none => none)

/-- The health object of a port's link: its tray link where a tray hangs on it, else the port (R461, R518). -/
def State.linkObj (s : State) (p : Nat) : Nat := match s.trayOn p with | some t => objTray t | none => objPort p

/-- Whether a partition owns a port (R458): an enabled ETH port that is not shared, or the CXL link of one of its agents. -/
def State.owns (s : State) (part p : Nat) : Bool :=
  if s.portMode p = mdEth then !s.rb F.TM_INPORT.SHARED [p / 64, p % 64] && decide (s.r F.TM_INPORT.PARTITION [p / 64, p % 64] = part)
  else if s.portMode p = mdCxl then (match s.agentOf p with | some n => decide (s.agentPart n = part) | none => false)
  else false

/-- LINK_STATE of a port moves. -/
def setLink (p st : Nat) : Prog := wr F.BRIM_PORT.LINK_STATE [p / 64, p % 64] st

/-- A port's record is changed. -/
def onPort (p : Nat) (f : PortSt → PortSt) : Prog := rd fun s => .eff (.port p (f (s.port p)))

/-- The fence ordered set that the switch sends with a REASON (R456). -/
def State.fenceSet (s : State) (reason : Nat) : FenceSet :=
  let stage := s.r F.FELT_STAGE.STAGE_ID []
  { d1 := 0xF0 + s.r F.FELT_STAGE.SWITCH_INDEX [], d2 := reason * 16 + bits stage 8 4, d3 := stage % 256 }

/-- A port is fenced with a REASON: an ETH port or the mirror link sends the ordered set, a PCIe or CXL link goes to Disabled (R457, R458). REASON 0 replaces REASON 1 (R460).
[Marks: DESIGN CHOICE, log entry 47.] -/
def fencePort (p reason : Nat) : Prog := rd fun s =>
  let md := s.portMode p
  .all [
    onPort p (fun x => { x with fence := some reason, tries := 0, checking := false, lost := x.lost || !(decide (s.link p = lkUp ∨ s.link p = lkReeq ∨ s.link p = lkFenced)) }),
    setLink p lkFenced, wr F.TM_PORT.FENCED [p] 1,
    if md = mdEth ∨ md = mdMirror then send (.fence p (s.fenceSet reason)) else send (.disabled p)]

/-! ### Bring-up (R445 to R447) -/

/-- Bring-up of an enabled port begins at step 1; a port whose lanes have no signal waits in DOWN (R445, R446). -/
def trainPort (p : Nat) : Prog := rd fun s =>
  if ¬ s.portOn p ∨ s.portMode p = 0 ∨ (s.port p).off then .skip
  else .all [onPort p (fun x => { x with step := 1, retry := false }),
    setLink p (if (s.port p).signal ∨ s.portMode p = mdPcie ∨ s.portMode p = mdCxl then lkTraining else lkDown)]

/-- An enabled port that is DOWN begins its bring-up, or is held in fence where a fenced partition owns it (R458). -/
def startPort (p : Nat) : Prog := rd fun s =>
  if s.portOn p ∧ (List.range 16).any (fun q => s.fenced q && s.owns q p) then fencePort p 1 else trainPort p

/-- What a tray or an agent sees of a link that goes down (R122, R179, R443).
[Marks: DESIGN CHOICE, log entry 47.] -/
def linkLoss (p : Nat) : Prog := rd fun s => .all [
  Prog.opt (s.trayOn p) trayLost,
  Prog.opt (s.agentOf p) (fun n => agentLost n 0x401)]

/-- A port goes down: its queues are flushed, its associations and sessions end (R433, R446). -/
def takeDown (p : Nat) : Prog := rd fun s =>
  let x := s.port p
  .all [
    setLink p lkDown, wr F.TM_PORT.UP [p] 0, wr F.TM_PORT.FENCED [p] 0,
    wr F.BRIM_PORT.LANES [p / 64, p % 64] 0,
    .eff (.port p { signal := x.signal, since := x.since, off := x.off, fails := x.fails }),
    Prog.when (decide (s.portMode p = mdMirror)) (mirrorDown (decide (x.rxFence = some 0))), flushPort p]

/-- A port goes down from UP under a cause, and bring-up begins again (R446, R449, R461). -/
def portFell (p cause : Nat) : Prog := rd fun s => .all [
  log { src := srcBrim (p / 64), cause := cause, sev := 1, obj0 := p },
  count F.PORT_LINK_DOWN_COUNT.COUNT [p / 64, p % 64], health (s.linkObj p) 4, takeDown p, linkLoss p, startPort p]

/-- A port comes up (R445 step 8); an agent whose registration waits for the link is ACTIVE (R182). -/
def portUp (p lanes : Nat) : Prog := rd fun s => .all [
  onPort p (fun x => { x with step := 0, fails := 0, bad := 0, tries := 0, checking := false }),
  setLink p lkUp, wr F.BRIM_PORT.LANES [p / 64, p % 64] lanes,
  Prog.when (decide (s.portMode p = mdEth ∨ s.portMode p = mdMirror)) (wr F.TM_PORT.UP [p] 1),
  Prog.opt (s.agentOf p) (fun n => Prog.when (decide (s.agentSt n = agAbsent)) (wr F.HITCH_AGENT.STATE [n] agActive))]

/-- An attempt fails: the third in a row takes the port to FAILED under cause 0x104 (R446).
[Marks: DESIGN CHOICE, log entry 47.] -/
def attemptFails (p : Nat) : Prog := rd fun s =>
  let n := (s.port p).fails + 1
  .all [
    onPort p (fun x => { x with step := 0, fails := n, retry := decide (n < 3), sak := none, nonce := [], prk := [], ide := 0 }),
    if n < 3 then setLink p lkDown
    else .all [setLink p lkFailed, log { src := srcBrim (p / 64), cause := 0x104, sev := 0, obj0 := p }]]

/-- A port is held down under cause 0x104: its rate, width or mode is not allowed (R443). -/
def holdDown (p : Nat) : Prog := .all [
  onPort p (fun x => { x with step := 0, retry := false }), setLink p lkDown, log { src := srcBrim (p / 64), cause := 0x104, sev := 0, obj0 := p }]

/-- LANE_SIGNAL_DETECT (R446): the lanes of a port gain or lose signal and CDR lock. A gain wakes an enabled port that waits in DOWN, or in FAILED after its signal was lost; an ETH or
MIRROR port that loses its signal while it trains waits in DOWN for it.
[Marks: DESIGN CHOICE, log entry 47.] -/
def execLaneSignalDetect (p : Nat) (on : Bool) (s : State) : Host.Outcome State Fault Refusal := run s <|
  let x := s.port p
  if 512 ≤ p then .skip
  else .all [
    Prog.each (s.lanes p) (fun l => wr F.BRIM_LANE.CDR_LOCK [p / 64, l] (b2n on)),
    onPort p (fun y => { y with signal := on }),
    Prog.when (!on && decide (s.link p = lkTraining) && decide (s.portMode p = mdEth ∨ s.portMode p = mdMirror)) (.all [
      setLink p lkDown, onPort p (fun y => { y with step := min y.step 2 })]),
    Prog.when (on && !x.signal && s.portOn p) (
      if s.link p = lkFailed then .all [onPort p (fun y => { y with fails := 0 }), startPort p]
      else Prog.when (decide (s.link p = lkDown) && decide (x.step ≠ 0)) (setLink p lkTraining))]

/-- EtherType of a key exchange frame (R480). -/
def etKey : Nat := 0x88B6

/-- A step of bring-up begins: step 7 of a MACsec port sends the key exchange frame with a nonce of the Crown random bit generator, and a step 7 without a VALID peer entry stays there under
cause 0x608 (R445, R479, R480).
[Marks: DESIGN CHOICE, log entry 47; DESIGN CHOICE, log entry 68.] -/
def beginStep (p k : Nat) : Prog := rd fun s =>
  if k = 8 then portUp p (s.lanes p).length
  else .all [
    onPort p (fun x => { x with step := k }),
    Prog.when (decide (k = 7)) (if ¬ s.rb F.CROWN_PEER.VALID [p] then log { src := srcCrown, cause := 0x608, sev := 0, obj0 := p }
      else Prog.when (s.macsec p) (
        let nonce := beBytes 32 (Config.nonce s.free).toNat
        .all [.eff .drawFree, onPort p (fun x => { x with nonce := nonce }), send (.link p 0 (etKey :: nonce.map (·.toNat)))]))]

/-- A peer entry takes effect: a port that waits for one in step 7 goes on (R479). -/
def peerEnter (p : Nat) : Prog := rd fun s =>
  Prog.when (s.rb F.CROWN_PEER.VALID [p] && s.macsec p && decide ((s.port p).step = 7) && (s.port p).nonce.isEmpty) (beginStep p 7)

/-- PORT_BRINGUP_STEP_DONE (R445): a step of the bring-up of an ETH or MIRROR port finishes and the next begins. Step 2 and later need a signal; step 3 is run with AN_EN = 1 only, step 7 with
MACsec only, and step 7 ends once the SAKs are derived.
[Marks: DESIGN CHOICE, log entry 47.] -/
def execPortBringupStepDone (p : Nat) (s : State) : Host.Outcome State Fault Refusal := run s <|
  let x := s.port p
  let md := s.portMode p
  if (md ≠ mdEth ∧ md ≠ mdMirror) ∨ x.step = 0 ∨ ¬ s.portOn p ∨ s.link p = lkFenced then .skip
  else if x.step = 1 then beginStep p 2
  else if ¬ x.signal then .skip
  else match x.step with
    | 2 => .all [setLink p lkTraining, beginStep p (if md = mdEth ∧ s.rb F.BRIM_PORT.AN_EN [p / 64, p % 64] then 3 else 4)]
    | 6 => beginStep p (if s.macsec p then 7 else 8)
    | 7 => if x.sak.isSome then beginStep p 8 else .skip
    | k => beginStep p (k + 1)

/-- PORT_BRINGUP_TIMEOUT (R446): an attempt has not reached step 8 within 1,000 ms. -/
def execPortBringupTimeout (p : Nat) (s : State) : Host.Outcome State Fault Refusal := run s <|
  if (s.port p).step ≠ 0 ∧ s.link p = lkTraining ∧ (s.portMode p = mdEth ∨ s.portMode p = mdMirror) then attemptFails p else .skip

/-- PORT_BRINGUP_RETRY (R446): 100 ms after a failed attempt, bring-up starts again. -/
def execPortBringupRetry (p : Nat) (s : State) : Host.Outcome State Fault Refusal := run s <|
  if (s.port p).retry then startPort p else .skip

/-- KEY_EXCHANGE_FRAME (R480): a key exchange frame arrives at step 7. One that carries a nonce of 32 bytes gives PRK_L, and with it SAK 0 to send and to receive under; a malformed one fails
the attempt under cause 0x608. Link keys exist in PRODUCTION only (R482).
[Marks: DESIGN CHOICE, log entry 47.] -/
def execKeyExchangeFrame (p : Nat) (frame : List Byte) (s : State) : Host.Outcome State Fault Refusal := run s <|
  if (s.port p).step ≠ 7 ∨ ¬ s.macsec p ∨ ¬ s.rb F.CROWN_PEER.VALID [p] ∨ s.r F.CROWN_LC_STATUS.LC_STATE [] ≠ 1 then .skip
  else if frame.length = 32 then onPort p (fun x => { x with sak := some 0, prk := prkLink x.nonce frame (s.linkZ p), rxSak := 0, rxPn := 1 })
  else .all [log { src := srcCrown, cause := 0x608, sev := 0, obj0 := p }, attemptFails p]

/-- KEY_EXCHANGE_TIMEOUT (R480): no valid exchange frame within 10 ms fails the attempt under cause 0x608. -/
def execKeyExchangeTimeout (p : Nat) (s : State) : Host.Outcome State Fault Refusal := run s <|
  if (s.port p).step = 7 ∧ s.macsec p ∧ (s.port p).sak.isNone ∧ s.rb F.CROWN_PEER.VALID [p] then
    .all [log { src := srcCrown, cause := 0x608, sev := 0, obj0 := p }, attemptFails p]
  else .skip

/-- MACSEC_REKEY (R480): the sender's packet number reaches 2^REKEY_PN_LOG2, and it moves to the next SAK, whose association number is its number modulo 2. -/
def execMacsecRekey (p : Nat) (s : State) : Host.Outcome State Fault Refusal := run s <|
  match (s.port p).sak with
  | some k => .all [onPort p (fun x => { x with sak := some (k + 1) }), send (.link p 1 [(k + 1) % 2])]
  | none => .skip

/-- PORT_LINK_DOWN (R446, R450): an UP port, or one in re-equalize, loses PCS lock. A port in fence stays FENCED and trains at its release (R460). -/
def execPortLinkDown (p : Nat) (s : State) : Host.Outcome State Fault Refusal := run s <|
  let st := s.link p
  if s.portMode p ≠ mdEth then .skip
  else if st = lkUp ∨ st = lkReeq then portFell p 0x105
  else if st = lkFenced then onPort p (fun x => { x with lost := true }) else .skip

/-! ### Adaptation and re-equalize (R448 to R450) -/

/-- A PCIe or CXL link enters Recovery under cause 0x113 (R451). -/
def enterRecovery (p : Nat) : Prog := rd fun s =>
  if s.link p ≠ lkUp then .skip
  else .all [setLink p lkRecovery, onPort p (fun x => { x with bad := 0 }), log { src := srcBrim (p / 64), cause := 0x113, sev := 0, obj0 := p }, health (objPort p) 3]

/-- An ETH port enters re-equalize (R449 steps 1 to 4). -/
def enterReeq (p : Nat) : Prog := .all [
  setLink p lkReeq, onPort p (fun x => { x with bad := 0, tries := 1, checking := false }), count F.PORT_REEQ_COUNT.COUNT [p / 64, p % 64],
  log { src := srcBrim (p / 64), cause := 0x110, sev := 1, obj0 := p }, health (objPort p) 3, send (.link p 2 [1])]

/-- The margins of a port's lanes, and the lowest. -/
def setMargins (p : Nat) (ms : List Nat) : Prog := rd fun s => .all [
  Prog.each ((s.lanes p).zip ms) (fun e => wr F.BRIM_LANE.MARGIN [p / 64, e.1] e.2),
  wr F.BRIM_PORT.MIN_MARGIN [p / 64, p % 64] (ms.foldl min 255)]

/-- LINK_ERROR_WINDOW (R448): a 10 ms window ends, with the corrected symbols and the margin of each lane and the uncorrectable codewords. REEQ_WINDOWS bad windows in a row begin re-equalize
on an ETH port, and Recovery on a PCIe or CXL link (R451). -/
def execLinkErrorWindow (p : Nat) (syms : List Nat) (unc : Nat) (margins : List Nat) (s : State) : Host.Outcome State Fault Refusal := run s <|
  let d := p / 64
  let m := p % 64
  let bad := syms.any (fun n => decide (s.r F.BRIM_PORT.REEQ_SYM_K [d, m] * 1000 < n)) || decide (0 < unc) ||
    margins.any (fun x => decide (x < s.r F.BRIM_LINK_CTRL.MARGIN_MIN [d]))
  let n := (s.port p).bad + 1
  if s.link p ≠ lkUp then .skip
  else .all [
    Prog.each ((s.lanes p).zip syms) (fun e => count F.BRIM_LANE_SYM_COUNT.COUNT [d, e.1] e.2),
    count F.PORT_FEC_CORR_COUNT.COUNT [d, m] syms.sum, count F.PORT_FEC_UNCORR_COUNT.COUNT [d, m] unc,
    setMargins p margins,
    if ¬ bad then onPort p (fun x => { x with bad := 0 })
    else .all [
      health (objPort p) 1,
      if n < s.r F.BRIM_PORT.REEQ_WINDOWS [d, m] then onPort p (fun x => { x with bad := n })
      else if s.portMode p = mdEth then enterReeq p
      else if s.portMode p = mdPcie ∨ s.portMode p = mdCxl then enterRecovery p
      else onPort p (fun x => { x with bad := n })]]

/-- REEQ_ADAPT_EXPIRY (R449 steps 5 and 6): after REEQ_MAX_US of adaptation the check begins. -/
def execReeqAdaptExpiry (p : Nat) (s : State) : Host.Outcome State Fault Refusal := run s <|
  if s.link p = lkReeq then onPort p (fun x => { x with checking := true }) else .skip

/-- REEQ_CHECK_DONE (R449 step 7): the port returns UP under cause 0x111; a check that fails is repeated once, and then takes the port down under cause 0x112.
[Marks: DESIGN CHOICE, log entry 47.] -/
def execReeqCheckDone (p : Nat) (ok : Bool) (s : State) : Host.Outcome State Fault Refusal := run s <|
  let x := s.port p
  if s.link p ≠ lkReeq ∨ ¬ x.checking then .skip
  else if ok then .all [setLink p lkUp, onPort p (fun y => { y with tries := 0, checking := false }), send (.link p 2 [0]),
    log { src := srcBrim (p / 64), cause := 0x111, sev := 0, obj0 := p }]
  else if x.tries < 2 then onPort p (fun y => { y with tries := 2, checking := false })
  else portFell p 0x112

/-- REMOTE_FAULT_RECEIVE (R450): the partner's Remote Fault begins or stops; while it lasts the port sends Idle. -/
def execRemoteFaultReceive (p : Nat) (on : Bool) (s : State) : Host.Outcome State Fault Refusal := run s <|
  if 512 ≤ p ∨ s.portMode p ≠ mdEth ∨ (s.link p ≠ lkUp ∧ s.link p ≠ lkReeq) then .skip else onPort p (fun x => { x with remote := on })

/-! ### PCIe and CXL links (R442, R443, R447, R451, R455) -/

/-- A trained link is UP, or waits for its IDE keys (R447, R455, R481). -/
def linkTrained (p : Nat) : Prog := rd fun s =>
  if s.ideOn p ∧ (s.port p).ide < 2 then
    beginStep p 7
  else portUp p (s.r F.BRIM_PORT.LANES [p / 64, p % 64])

/-- PCIE_LINK_TRAINED (R443, R447): a link reaches L0 with a number of lanes and a rate (0: 64 GT/s, 1: 32, 2: 16, 3: lower or not flit mode) and is enumerated. Narrower or slower than R443
allows it is held down; narrower or slower than configured it is DEGRADED under cause 0x106. -/
def execPcieLinkTrained (p lanes rate : Nat) (s : State) : Host.Outcome State Fault Refusal := run s <|
  let md := s.portMode p
  let full := if s.x16 p then 16 else 8
  let low := lanes < full
  let slow := s.r F.BRIM_OCTET.MAX_RATE [p / 64, octetOf p] < rate
  if (md ≠ mdPcie ∧ md ≠ mdCxl) ∨ ¬ s.portOn p ∨ (s.port p).step = 0 ∨ (s.port p).off ∨ s.link p = lkFenced then .skip
  else if lanes < 8 ∨ 2 < rate ∨ (md = mdCxl ∧ rate ≠ 0) then holdDown p
  else .all [
    wr F.BRIM_PORT.LANES [p / 64, p % 64] (min lanes full), wr F.BRIM_PORT.RATE [p / 64, p % 64] rate,
    wr F.BRIM_PORT.DEGRADED [p / 64, p % 64] (b2n (low || (decide (md = mdPcie) && slow))),
    Prog.when (low || (decide (md = mdPcie) && slow)) (.all [log { src := srcBrim (p / 64), cause := 0x106, sev := 1, obj0 := p }, health (s.linkObj p) 4]),
    onPort p (fun x => { x with since := s.time.now }), linkTrained p]

/-- PCIE_TRAINING_TIMEOUT (R447): a link is not in L0 within 100 ms of the start of training. -/
def execPcieTrainingTimeout (p : Nat) (s : State) : Host.Outcome State Fault Refusal := run s <|
  let md := s.portMode p
  if (md = mdPcie ∨ md = mdCxl) ∧ (s.port p).step = 1 ∧ s.link p = lkTraining then attemptFails p else .skip

/-- PCIE_MARGIN_CHECK (R451): lanes are margined, and a low lane sends the link to Recovery. -/
def execPcieMarginCheck (p : Nat) (margins : List Nat) (s : State) : Host.Outcome State Fault Refusal := run s <|
  let md := s.portMode p
  if (md ≠ mdPcie ∧ md ≠ mdCxl) ∨ s.link p ≠ lkUp then .skip
  else .all [setMargins p margins,
    Prog.when (margins.any (fun x => decide (x < s.r F.BRIM_LINK_CTRL.MARGIN_MIN [p / 64]))) (enterRecovery p)]

/-- PCIE_PERIODIC_RETRAIN (R451): RETRAIN_S has passed since the last equalization; 0 for never. -/
def execPciePeriodicRetrain (p : Nat) (s : State) : Host.Outcome State Fault Refusal := run s <|
  let md := s.portMode p
  if (md ≠ mdPcie ∧ md ≠ mdCxl) ∨ s.r F.BRIM_PCIE_CTRL.RETRAIN_S [p / 64] = 0 then .skip else enterRecovery p

/-- PCIE_RECOVERY_COMPLETE (R451): the link is back in L0 with its equalization redone. -/
def execPcieRecoveryComplete (p : Nat) (s : State) : Host.Outcome State Fault Refusal := run s <|
  if s.link p = lkRecovery then .all [setLink p lkUp, onPort p (fun x => { x with since := s.time.now })] else .skip

/-- PCIE_RECOVERY_TIMEOUT (R451): a link not back in L0 within 32 ms goes down under cause 0x114. -/
def execPcieRecoveryTimeout (p : Nat) (s : State) : Host.Outcome State Fault Refusal := run s <|
  if s.link p = lkRecovery then portFell p 0x114 else .skip

/-- IDE_CHECK_FAIL (R455): a CXL IDE check failure takes the link down under cause 0x121. -/
def execIdeCheckFail (p : Nat) (s : State) : Host.Outcome State Fault Refusal := run s <|
  if s.ideOn p ∧ (s.link p = lkUp ∨ s.link p = lkRecovery) then portFell p 0x121 else .skip

/-- HBM_RETRAIN (R452): a stack retrains a channel; a margin below the threshold raises the stack's health score under cause 0x130. -/
def execHbmRetrain (stack margin : Nat) (s : State) : Host.Outcome State Fault Refusal := run s <|
  if 6 ≤ stack then .skip
  else Prog.when (decide (margin < s.r F.FELT_HBM_TRAIN.MARGIN_MIN [])) (.all [
    log { src := srcFelt, cause := 0x130, sev := 0, obj0 := stack, obj1 := margin }, health (objHbm stack) 3])

/-! ### The fence ordered set (R456 to R460) -/

/-- The REASON of a sequence ordered set, where it is a fence ordered set (R456). -/
def fenceReason (b : FenceSet) : Option Nat := if b.type = 0x4B ∧ b.o = 0 ∧ b.d1 / 16 = 0xF then some (bits b.d2 4 4) else none

/-- The fence of a port is released (R458, R460): it returns to data at once, or trains where its lock was lost; a CXL link stays Disabled until its agent is registered again (R462). -/
def releasePort (p : Nat) : Prog := rd fun s =>
  let x := s.port p
  if x.fence ≠ some 1 then .skip
  else if s.portMode p = mdCxl then .all [wr F.TM_PORT.FENCED [p] 0, setLink p lkDown, onPort p (fun y => { y with fence := none, off := true })]
  else if x.lost then .all [wr F.TM_PORT.FENCED [p] 0, wr F.TM_PORT.UP [p] 0, setLink p lkDown, onPort p (fun y => { y with fence := none, lost := false }), trainPort p]
  else .all [wr F.TM_PORT.FENCED [p] 0, setLink p lkUp, onPort p (fun y => { y with fence := none })]

/-- The connections that use a port (R459). -/
def State.connsOn (s : State) (p : Nat) : List Nat :=
  (s.btp.conns.filter (fun e => decide (e.2.st = .open ∨ e.2.st = .closing ∨ e.2.st = .created) && decide (connDie e.1 = p / 64) && bit e.2.portSet (p % 64))).map (·.1)

/-- The connections of a port end with a status under a cause, whose record names the switch that sends the fence (R84, R459, R491). -/
def fenceConns (p status cause from' : Nat) : Prog := rd fun s => .all [
  log { src := srcBrim (p / 64), cause := cause, sev := 2, status := status, obj0 := from', obj1 := p },
  Prog.each (s.connsOn p) (fun c => connError c status)]

/-- The switch that sends a fence ordered set: its STAGE_ID and SWITCH_INDEX (R456). -/
def fenceFrom (b : FenceSet) : Nat := swName (bits b.d2 0 4 * 256 + b.d3 % 256) (bits b.d1 0 4)

/-- FENCE_ORDERED_SET_RECEIVE (R456, R459): four identical fence ordered sets have arrived on a port. REASON 0 ends what was sent to the switch that resets; REASON 1 ends what is open on the
port's connections and flushes its queues; another REASON is ignored, and so is a set that is no fence ordered set.
[Marks: DESIGN CHOICE, log entry 47.] -/
def execFenceOrderedSetReceive (p : Nat) (b : FenceSet) (s : State) : Host.Outcome State Fault Refusal := run s <|
  let md := s.portMode p
  Prog.opt (fenceReason b) fun reason =>
  if 512 ≤ p ∨ (md ≠ mdEth ∧ md ≠ mdMirror) ∨ 1 < reason ∨ (s.port p).rxFence = some reason then .skip
  else .all [
    onPort p (fun x => { x with rxFence := some reason }),
    Prog.when (decide (md = mdMirror ∧ reason = 0)) (toSolo true),
    if reason = 0 then fenceConns p stReset 0x870 (fenceFrom b)
    else .all [fenceConns p stFenced 0x871 (fenceFrom b), flushPort p]]

/-- FENCE_ORDERED_SET_END (R459, R460): the set stops. After REASON 0 the port goes down and its queues are flushed, though a port that is itself held in fence stays FENCED and trains at its release; after REASON 1 it returns to service. -/
def execFenceOrderedSetEnd (p : Nat) (s : State) : Host.Outcome State Fault Refusal := run s <|
  match (s.port p).rxFence with
  | none => .skip
  | some reason => .all [
      Prog.when (decide (reason = 0)) (if s.link p = lkFenced then .all [flushPort p, onPort p (fun x => { x with lost := true })] else .all [takeDown p, startPort p]),
      onPort p (fun x => { x with rxFence := none })]

/-- FENCE_HOLD_EXPIRY (R457): after FENCE_HOLD_US the transmitters of a port that sends REASON 0 go to electrical idle, and it stays down until bring-up. -/
def execFenceHoldExpiry (p : Nat) (s : State) : Host.Outcome State Fault Refusal := run s <|
  if (s.port p).fence = some 0 then takeDown p else .skip

/-! ### Registration of an agent (R182, R462) -/

/-- An agent's registration takes effect; the link of a registered agent leaves Disabled and trains (R462). -/
def agentEnter (n : Nat) : Prog := .all [agentCommit n, rd fun s =>
  let p := s.agentPort n
  Prog.when (s.rb F.HITCH_AGENT.VALID [n] && (s.port p).off) (.all [onPort p (fun x => { x with off := false }), startPort p])]

/-- AGENT_LOSS_WALK_COMPLETE (R180): every line the agent held is freed, those it owned poisoned; its STATE becomes LOST, and a held commit of its
registration takes effect (R182). -/
def execAgentLossWalkComplete (n : Nat) (s : State) : Host.Outcome State Fault Refusal := run s <|
  if s.agentSt n ≠ agRecalling then .skip
  else .all [
    Prog.each (s.linesOf n) purgeLine, driveWaiting,
    wr F.HITCH_AGENT.STATE [n] agLost,
    Prog.when (s.rb F.HITCH_CTRL.LOST_INT_EN []) (msix 2),
    Prog.when (s.hitch.heldValid.contains n) (.all [.eff (.heldValid (s.hitch.heldValid.erase n)), agentEnter n])]

end Sys2Proof.Machine
end

