-- ==== Sys2Proof/Machine/Xsvc.lean ====
section
/-! DEFINITION. Fabric attention and retrieval (R324 to R340): requests cut into work items, their dispatch to kernel contexts, the numerics of partials
and scores, responses, and shadow runs. -/
namespace Sys2Proof.Machine
open Sys2Proof

/-! ### Attention requests (R326 to R333) -/

/-- Blocks of the query rows. -/
def Attn.qBlocks (a : Attn) : Nat := a.nq * a.nh * (a.d / 32)
/-- Offset of the row scales in the request body. -/
def Attn.scalesAt (a : Attn) : Nat := a.qBlocks * blockBytes a.kfmt
/-- Offset of the mask table. -/
def Attn.maskAt (a : Attn) : Nat := a.scalesAt + pad64 a.qBlocks
/-- Bytes of a record (R333). -/
def Attn.recBytes (a : Attn) : Nat := 8 + 4 * a.d

/-- An attention request keeps the limits of R326 and R327.
[Marks: DESIGN CHOICE, log entry 44.] -/
def Attn.ok (a : Attn) : Bool :=
  let mx (f : Nat) := decide (6 ≤ f ∧ f ≤ 10)
  decide (a.list % 8 = 0 ∧ a.nh % a.nkv = 0 ∧ a.dlog ≤ 2 ∧ 1 ≤ a.npages ∧ a.nsplit ≤ a.npages) && mx a.kfmt && mx a.vfmt &&
  decide (a.body.length = a.maskAt + 16 * a.nq ∧ a.body.length ≤ 524288) &&
  decide (pad64 (8 * a.nsplit) + a.nsplit * a.nq * a.nh * a.recBytes ≤ 2 ^ 24)

/-- Pages of split j: first and one past the last (R332). -/
def Attn.split (a : Attn) (j : Nat) : Nat × Nat := (j * a.npages / a.nsplit, (j + 1) * a.npages / a.nsplit)

/-- A page header agrees with the request (R328). -/
def Attn.pageOk (a : Attn) (pg : List Byte) : Bool :=
  decide (byteAt pg 0 = a.kfmt * 16 + a.vfmt ∧ byteAt pg 2 % 4 = a.dlog ∧ byteAt pg 3 = a.nkv - 1)

/-- exp2 of an FP32 encoding. -/
def exp2w (v : Nat) : Nat := exp2 (Config.exp2Up (BitVec.ofNat 32 v)) (fp32.dec v)
/-- Product of FP32 encodings, rounded to nearest even. -/
def mulw (a b : Nat) : Nat := fp32.enc 0 ((fp32.dec a).mul (fp32.dec b))
/-- Difference of FP32 encodings. -/
def subw (a b : Nat) : Nat := fp32.enc 0 ((fp32.dec a).add 0 (fp32.dec b).neg)
/-- a * b + c, rounded once. -/
def fmaw (a b c : Nat) : Nat := fp32.enc 0 (((fp32.dec a).mul (fp32.dec b)).add 0 (fp32.dec c))

/-- -∞ as FP32. -/
def negInf : Nat := 0xFF800000

/-- The partial of a query and head (R330): m, l and o. -/
structure Partial where
  m : Nat
  l : Nat
  o : List Nat
  deriving DecidableEq, Repr

/-- The partial of no token. -/
def Attn.none (a : Attn) : Partial := { m := negInf, l := 0, o := List.replicate a.d 0 }

/-- Token t of a page is valid for query i (R329). -/
def Attn.valid (a : Attn) (pg : List Byte) (i t : Nat) : Bool :=
  let pos := (leAt pg 4 4 + t) % 2 ^ 32
  let m (k : Nat) := leAt a.body (a.maskAt + 16 * i + 4 * k) 4
  decide (t < byteAt pg 1) && (decide (m 0 ≤ pos ∧ pos ≤ m 1) || decide (m 2 ≤ pos ∧ pos ≤ m 3))

/-- q · k of a query row and a token (R330): D / 32 matrix steps from +0.0. -/
def Attn.qk (a : Attn) (kslab : List Byte) (row t : Nat) : Nat :=
  (List.range (a.d / 32)).foldl (fun c b =>
    let qb := row * (a.d / 32) + b
    let kbk := t * (a.d / 32) + b
    mxMma a.kfmt (fp32.dec c) (mxBlock a.kfmt qb a.body) (mxBlock a.kfmt kbk kslab) (byteAt a.body (a.scalesAt + qb)) (scaleByte a.kfmt (2 * a.d) kbk kslab)) 0

/-- One page added to the partial of query i and head h (R330, R331). -/
def Attn.page (a : Attn) (i h : Nat) (x : Partial) (pg : List Byte) : Partial :=
  let g := h / (a.nh / a.nkv)
  let slab := 64 + g * (a.kb + a.vb)
  let ks := (pg.drop slab).take a.kb
  let vs := (pg.drop (slab + a.kb)).take a.vb
  let c := mulw a.scale (leAt pg 8 4)
  let sv := leAt pg 12 4
  let s := (List.range 64).map (fun t => mulw (a.qk ks (i * a.nh + h) t) c)
  let ok := s.zipIdx.map (fun e => a.valid pg i e.2 &&
    (!a.sparse || (!(fp32.dec e.1).isNaN && !(fp32.dec a.tau).isNaN && !(fp32.dec e.1).lt (fp32.dec a.tau))))
  if ok.all (!·) then x
  else
    let mn := (s.zip ok).foldl (fun m e => if e.2 then fp32.enc 0 ((fp32.dec m).max (fp32.dec e.1)) else m) x.m
    let al := if x.m = negInf then 0 else exp2w (subw x.m mn)
    let p := (s.zip ok).map (fun e => if e.2 then exp2w (subw e.1 mn) else 0)
    let q0 := mxQuant a.vfmt 0 true ((p.take 32).map fp32.dec)
    let q1 := mxQuant a.vfmt 0 true ((p.drop 32).map fp32.dec)
    let step (d j : Nat) (q : Nat × List Nat) (c : Nat) : Nat :=
      mxMma a.vfmt (fp32.dec c) (q.2.map (mxDec a.vfmt)) (mxBlock a.vfmt (2 * d + j) vs) q.1 (scaleByte a.vfmt (2 * a.d) (2 * d + j) vs)
    { m := mn, l := fmaw x.l al (reduceAdd 0 p)
      o := x.o.zipIdx.map (fun e => fmaw sv (step e.2 1 q1 (step e.2 0 q0 0)) (mulw e.1 al)) }

/-- The bytes of a record (R333). -/
def Partial.bytes (x : Partial) : List Byte := leBytes 4 x.m ++ leBytes 4 x.l ++ x.o.flatMap (leBytes 4)

/-- The records of a split over its pages. -/
def Attn.records (a : Attn) (pages : List (List Byte)) : List Byte :=
  (List.range (a.nq * a.nh)).flatMap (fun r => (pages.foldl (a.page (r / a.nh) (r % a.nh)) a.none).bytes)

/-- Bytes cut into n pieces of a length. -/
def pieces (len : Nat) : Nat → List Byte → List (List Byte)
  | 0, _ => []
  | n + 1, bs => bs.take len :: pieces len n (bs.drop len)

/-- The response body: split table and records (R333). -/
def Attn.response (a : Attn) (items : List Item) : List Byte :=
  let tab := items.flatMap (fun i => leBytes 4 (i.st.getD 0) ++ leBytes 4 i.pages)
  tab ++ List.replicate (pad64 tab.length - tab.length) 0 ++
    items.flatMap (fun i => if i.st = some stOk then i.data else (List.replicate (a.nq * a.nh) a.none).flatMap Partial.bytes)

/-! ### Retrieval requests (R335 to R338) -/

/-- A retrieval request keeps the limits of R335.
[Marks: DESIGN CHOICE, log entry 44.] -/
def Retr.ok (a : Retr) : Bool :=
  decide (a.table % 64 = 0 ∧ 1 ≤ a.nrows ∧ a.nrows ≤ 2 ^ 31 ∧ a.dlog ≤ 4 ∧ a.k ≤ 64 ∧ a.nq ≤ 64 ∧ a.nq * a.k ≤ 1024) &&
  [3, 4, 9, 10, 11].contains a.fmt && decide (a.body.length = panelBytes a.fmt (a.nq * a.nb) ∧ a.body.length ≤ 8192)

/-- The score of query q against row r of a tile (R336). -/
def Retr.score (a : Retr) (tile : List Byte) (q r : Nat) : Nat :=
  (List.range a.nb).foldl (fun c b =>
    let i := q * a.nb + b
    let j := r * a.nb + b
    if a.fmt ≤ 4 then f16Mma (fp32.dec c) (prodList (fltBlock a.fmt i a.body) (fltBlock a.fmt j tile))
    else mxMma a.fmt (fp32.dec c) (mxBlock a.fmt i a.body) (mxBlock a.fmt j tile) (scaleByte a.fmt (a.nq * a.nb) i a.body) (scaleByte a.fmt (64 * a.nb) j tile)) 0

/-- Ranking of R281: NaN last, higher scores first, then lower indices. -/
def ranksBefore (x y : Nat × Nat) : Bool :=
  let a := fp32.dec x.1
  let b := fp32.dec y.1
  if a.isNaN ≠ b.isNaN then !a.isNaN
  else if ¬ a.isNaN ∧ ¬ a.eq b then b.lt a
  else decide (x.2 < y.2)

/-- A candidate put into a ranked list. -/
def rankIns (x : Nat × Nat) : List (Nat × Nat) → List (Nat × Nat)
  | [] => [x]
  | y :: ys => if ranksBefore x y then x :: y :: ys else y :: rankIns x ys

/-- A ranked list with the first k of it and of more candidates. -/
def rankMerge (k : Nat) (l cs : List (Nat × Nat)) : List (Nat × Nat) := cs.foldl (fun l c => (rankIns c l).take k) l

/-- The ranked rows of a query over the tiles of an item that starts at tile t0. -/
def Retr.rank (a : Retr) (t0 : Nat) (tiles : List (List Byte)) (q : Nat) : List (Nat × Nat) :=
  tiles.zipIdx.foldl (fun l e =>
    let base := 64 * (t0 + e.2)
    rankMerge a.k l ((List.range (min 64 (a.nrows - base))).map (fun r =>
      let v := a.score e.1 q r
      (if (fp32.dec v).isNaN then fp32.nan else v, base + r)))) []

/-- A ranked list as k entries of SCORE and INDEX, padded (R337). -/
def rankBytes (k : Nat) (l : List (Nat × Nat)) : List Byte :=
  (l ++ List.replicate (k - l.length) (negInf, 0xFFFFFFFF)).flatMap (fun (e : Nat × Nat) => leBytes 4 e.1 ++ leBytes 4 e.2)

/-- The rows of a query in the result of an item. -/
def rankOf (k q : Nat) (data : List Byte) : List (Nat × Nat) :=
  ((List.range k).map (fun e => (leAt data (8 * (q * k + e)) 4, leAt data (8 * (q * k + e) + 4) 4))).filter (fun (e : Nat × Nat) => decide (e.2 ≠ 0xFFFFFFFF))

/-- The response payload: the items' lists merged, query by query (R337). -/
def Retr.response (a : Retr) (items : List Item) : List Byte :=
  (List.range a.nq).flatMap (fun q => rankBytes a.k (items.foldl (fun l i => rankMerge a.k l (rankOf a.k q i.data)) []))

/-! ### The dispatcher (R325) -/

/-- Work items. -/
def State.items (s : State) : List (Nat × Item) := s.fab.items.filterMap (fun e => e.2.map (fun x => (e.1, x)))

/-- Items that wait in the queue. -/
def State.queued (s : State) : List (Nat × Item) := s.items.filter (fun e => e.2.op.isNone && e.2.st.isNone)

/-- The item with a number is one of those that a shadow run repeats: one in SVC_N (R340). -/
def State.sampled (s : State) (n : Nat) : Bool := decide (s.r F.FELT_SHADOW_CFG.SVC_N [] ≠ 0 ∧ n % s.r F.FELT_SHADOW_CFG.SVC_N [] = 0)

/-- Queue items that n items of a request take, their shadow items among them (R325, R340). -/
def State.itemsOf (s : State) (n : Nat) : Nat := n + (List.range n).countP (fun k => s.sampled (s.fab.count + 1 + k))

/-- The items of a request enter the queue, one in SVC_N of them with a shadow item (R340).
[Marks: DESIGN CHOICE, log entry 44.] -/
def addItems (r p : Nat) (attn : Bool) : List Nat → Prog
  | [] => .skip
  | j :: js => fresh fun i => rd fun s =>
    let n := s.fab.count + 1
    let it : Item := { req := r, part := p, attn := attn, ix := j }
    .all [
      .eff (.item i (some it)), .eff (.itemCount n),
      Prog.when (s.sampled n) (fresh fun k => .eff (.item k (some { it with shadow := some i }))),
      addItems r p attn js]

/-- An attention or retrieval request is checked and cut into n items, or ends (R325, R326, R335). Its shadow items count as its items in both limits: they occupy
queue items like any other (R340).
[Marks: DESIGN CHOICE, log entry 44.] -/
def takeService (r : Nat) (q : Req) (attn limits : Bool) (n : Nat) : Prog := rd fun s =>
  if s.r F.CROWN_XSVC.STATE [q.part] ≠ 2 ∨ s.kernelCount q.part attn = 0 then refuse r stDenied 0x561 q.part
  else if ¬ limits then refuse r stDenied 0x560 q.part
  else if 16384 < s.queued.length + s.itemsOf n ∨ s.r F.FELT_XSVC_QUOTA.MAX_ITEMS [q.part] < s.queued.countP (fun e => decide (e.2.part = q.part)) + s.itemsOf n then
    .all [count F.FELT_XSVC_BUSY_COUNT.COUNT [], respond r stBusy []]
  else .all [.eff (.req r (some { q with wait := .launch })), addItems r q.part attn (List.range n)]

/-- ATTN_REQ (R326): the request is dispatched when its body has arrived. -/
def execAttnReq (r : Nat) (s : State) : Host.Outcome State Fault Refusal := run s <|
  performReq r 0x28 fun q => if q.rcv < q.want then .skip else takeService r q true q.attn.ok q.attn.nsplit

/-- RETR_REQ (R335): the table is cut into items of 1,024 tiles (R337). -/
def execRetrReq (r : Nat) (s : State) : Host.Outcome State Fault Refusal := run s <|
  performReq r 0x2A fun q => takeService r q false q.retr.ok (cdiv q.retr.tiles 1024)

/-- The PARKED kernel context that has been parked longest; for a shadow item one of another engine than the first run's, of another die where there is one
(R325, R340). -/
def State.kernelFor (s : State) (it : Item) : Option Nat :=
  let idle := (s.kernels it.part it.attn).filter (fun c => decide ((s.ctx c).st = .parked) && (s.ctx c).zero.isNone && s.engAvail (ctxEng c))
  let longest (cs : List Nat) : Option Nat := cs.foldl (fun b c => match b with
    | none => some c
    | some d => if (s.ctx c).parkedAt < (s.ctx d).parkedAt then some c else some d) none
  match it.shadow, it.ctx with
  | none, _ => longest idle
  | some _, none => none
  | some _, some f => match longest (idle.filter (fun c => decide (ctxDie c ≠ ctxDie f))) with
    | some c => some c
    | none => longest (idle.filter (fun c => decide (ctxEng c ≠ ctxEng f)))

/-- WORK_ITEM_DISPATCH (R325): the first queued item of a partition's kernel for which a context is PARKED is handed to it. Items of a request that has ended are
dropped, with the shadow items of those that no context ran.
[Marks: DESIGN CHOICE, log entry 44.] -/
def execWorkItemDispatch (part : Nat) (attn : Bool) (s : State) : Host.Outcome State Fault Refusal := run s <|
  let mine := s.queued.filter (fun e => decide (e.2.part = part) && (e.2.attn == attn))
  let dead := mine.filter (fun e => (s.req e.2.req).isNone && (e.2.shadow.isNone || e.2.ctx.isNone))
  .all [
    Prog.each dead (fun e => .eff (.item e.1 none)),
    match (mine.filter (fun e => !dead.any (fun d => decide (d.1 = e.1)))).find? (fun e => (s.kernelFor e.2).isSome) with
    | none => .skip
    | some e => Prog.opt (s.kernelFor e.2) fun c => fresh fun o =>
      let tag := match s.req e.2.req with
        | some q => (match q.src with | .conn n => (s.conn n).tag | _ => 0)
        | none => 0
      .all [
        .eff (.order (s.eng.order + 1)),
        .eff (.ctx c { s.ctx c with st := .ready, issuedAt := s.eng.order + 1, monAt := s.time.now }),
        .eff (.op o (some { ctx := c, pc := 0, kind := .kernel, part := part, a := e.1, d := tag })),
        .eff (.item e.1 (some { e.2 with op := some o, ctx := if e.2.shadow.isNone then some c else e.2.ctx })),
        Prog.each (s.items.filter (fun f => decide (f.2.shadow = some e.1))) (fun f => .eff (.item f.1 (some { f.2 with ctx := some c })))]]

/-- A kernel context has ended its item: it returns to PARKED after zeroing, or is freed where more are placed than configured (R324, R333). -/
def kernelIdle (c : Nat) : Prog := rd fun s =>
  if (s.ctx c).st ≠ .ready then .skip
  else if s.excess (s.ctx c) ∨ s.rb F.CROWN_HEALTH.FENCED [ctxEng c] then freeCtx c
  else startZero c .parked .park

/-- An item ends with a status, its finished pages and its results; a failure is recorded (R334, R338). -/
def itemEnd (i : Nat) (it : Item) (st cause pages : Nat) (data : List Byte) : Prog := rd fun s =>
  let c := it.ctx
  .all [
    Prog.when (decide (st ≠ stOk)) (log { src := srcFelt, cause := cause, sev := 2, status := st, part := some it.part, ctx := c, obj0 := it.req, obj1 := it.ix
                                          link := match c with | some n => s.lastSev2 n | none => 0 }),
    .eff (.item i (some { it with op := none, st := some st, pages := pages, data := data })),
    Prog.opt it.op (fun o => .all [.eff (.op o none), dropUnit o, Prog.opt c (fun n => kernelIdle n)])]

/-- A request all of whose items have ended is answered (R333, R338). -/
def itemsDone (r : Nat) : Prog := rd fun s =>
  let its := (s.items.filter (fun e => decide (e.2.req = r) && e.2.shadow.isNone)).map (·.2)
  match s.req r with
  | none => .skip
  | some q =>
    let bad := its.filterMap (fun i => if i.st = some stOk then none else i.st)
    if its.any (fun i => i.st.isNone) ∨ its.isEmpty then .skip
    else .all [
      Prog.each (s.items.filter (fun e => decide (e.2.req = r) && e.2.shadow.isNone)) (fun e => .eff (.item e.1 none)),
      if q.op = 0x28 then respond r (bad.headD stOk) (q.attn.response its)
      else respond r (bad.headD stOk) (if bad.isEmpty then q.retr.response its else [])]

/-- A kernel context reads the pages or tiles of its item one after another and computes the result (R325, R330, R336); `t` is what a tier answers at page or tile
`tl` of the item. The first argument bounds the steps.
[Marks: DESIGN CHOICE, log entry 44.] -/
def kernelRun (i o : Nat) (it : Item) (q : Req) (t : TierRead) (tl : Nat) (far : List Byte) : Nat → Prog
  | 0 => .skip
  | k + 1 => rd fun s =>
    match s.aop o with
    | none => .skip
    | some p =>
      let again := kernelRun i o it q t tl far k
      let tt : TierRead := if p.b = tl then t else .ok
      let save (y : AOp) : Prog := .seq (.eff (.op o (some y))) again
      if it.attn then
        let a := q.attn
        let (lo, hi) := a.split it.ix
        if hi ≤ lo + p.b then itemEnd i it stOk 0 (hi - lo) (a.records (pieces a.pageBytes (hi - lo) p.buf))
        else if p.c = 0 then unitWait o p (readReq (a.list + 8 * (lo + p.b)) 8) .ok far (fun y st bs =>
          if st = stOk then save { y with c := 1, fn := ofLe bs } else itemEnd i it st 0x564 p.b []) again
        else if p.fn % 64 ≠ 0 then itemEnd i it stDenied 0x564 p.b []
        else unitWait o p (readReq p.fn a.pageBytes) tt (far.drop (a.pageBytes * p.b)) (fun y st bs =>
          if st ≠ stOk then itemEnd i it st 0x564 p.b []
          else if a.pageOk bs then save { y with c := 0, b := y.b + 1, buf := y.buf ++ bs } else itemEnd i it stDenied 0x563 p.b []) again
      else
        let a := q.retr
        let n := min 1024 (a.tiles - 1024 * it.ix)
        if n ≤ p.b then itemEnd i it stOk 0 n ((List.range a.nq).flatMap (fun j => rankBytes a.k (a.rank (1024 * it.ix) (pieces a.tileBytes n p.buf) j)))
        else unitWait o p (readReq (a.table + a.tileBytes * (1024 * it.ix + p.b)) a.tileBytes) tt (far.drop (a.tileBytes * p.b)) (fun y st bs =>
          if st = stOk then save { y with b := y.b + 1, buf := y.buf ++ bs } else itemEnd i it st 0x564 p.b []) again

/-- WORK_ITEM_COMPLETE (R333): a kernel context does its item as far as its reads allow, and ends it; once all items of the request have ended it is answered. `e`: an
uncorrectable error of engine memory faults the context (R334).
[Marks: DESIGN CHOICE, log entry 44.] -/
def execWorkItemComplete (i : Nat) (t : TierRead) (tl : Nat) (far : List Byte) (e : Ecc) (s : State) : Host.Outcome State Fault Refusal := run s <|
  match SMap.get none s.fab.items i with
  | none => .skip
  | some it =>
    if it.shadow.isSome then .skip
    else match s.req it.req, it.op, it.ctx with
      | none, _, _ => .all [itemEnd i it stOk 0 0 [], .eff (.item i none)]
      | some _, none, _ => .all [Prog.when (decide (it.st = some stTimeout)) (itemEnd i it stTimeout 0x564 0 []), itemsDone it.req]
      | some q, some o, some c =>
        if e = .uncorrectable then .all [eccUncorrectable c, .eff (.op o none), dropUnit o, itemEnd i { it with op := none } stUncorr 0x564 0 [], itemsDone it.req]
        else .all [Prog.when (decide (e = .corrected)) (eccCorrected c), kernelRun i o it q t tl far 4096, itemsDone it.req]
      | _, _, none => .skip

/-! ### Shadow runs (R340, R517) -/

/-- A mismatch is recorded, counted and raises the health scores of the engines it names.
[Marks: DESIGN CHOICE, log entry 11; DESIGN CHOICE, log entry 12; DESIGN CHOICE, log entry 44.] -/
def shadowMiss (src cause obj0 obj1 : Nat) (objs : List Nat) : Prog := .all [
  log { src := src, cause := cause, sev := 0, obj0 := obj0, obj1 := obj1 }, Prog.each objs (fun o => health o 7 obj1)]

/-- SHADOW_COMPARE (R517): a shadow run completes and is compared with the first; a mismatch is recorded under 0x910, 0x911 or 0x912.
[Marks: DESIGN CHOICE, log entry 6.] -/
def execShadowCompare (which : ShadowRun) (mismatch : Bool) (s : State) : Host.Outcome State Fault Refusal := run s <|
  match which with
  | .item i => match SMap.get none s.fab.items i with
    | none => .skip
    | some it => match it.shadow, it.op, it.ctx with
      | some _, some o, some f =>
        let c := match s.aop o with | some p => p.ctx | none => f
        .all [
          .eff (.op o none), .eff (.item i none), kernelIdle c,
          Prog.when mismatch (.all [count F.FELT_SHADOW_MISMATCH_COUNT.COUNT [],
            shadowMiss srcFelt 0x910 (f + c * 2 ^ 32) (s.r F.PWR_TEMP.TEMP [ctxDie c]) [objEngine (ctxEng f), objEngine (ctxEng c)]])]
      | some _, none, _ => if it.st.isSome then .eff (.item i none) else .skip
      | _, _, _ => .skip
  | .granule n g => Prog.when (mismatch && decide (s.r F.FELT_SHADOW_CFG.RED_N [] ≠ 0) && decide (s.r F.FELT_COLL.KIND [n] = 0) && (s.coll n).holds)
      (.all [count F.FELT_SHADOW_MISMATCH_COUNT.COUNT [], shadowMiss srcFelt 0x911 (n + g * 2 ^ 32) (s.r F.PWR_TEMP.TEMP [16]) [objFelt]])
  | .mma e f => Prog.when (mismatch && decide (s.r F.SPL_SHADOW_CFG.MMA_N [e / 64] ≠ 0) && decide (e / 4 = f / 4 ∧ e ≠ f))
      (.all [count F.SPL_SHADOW_MISMATCH_COUNT.COUNT [e / 64],
        shadowMiss (srcEng (e / 64)) 0x912 (e + f * 2 ^ 32) (s.r F.PWR_TEMP.TEMP [e / 64]) [objEngine e, objEngine f]])

/-- MMA_SHADOW_SKIP (R517): a shadow check of an `mma` on a die that finds no matrix slot is skipped and counted. -/
def execMmaShadowSkip (die : Nat) (s : State) : Host.Outcome State Fault Refusal := run s <|
  Prog.when (decide (s.r F.SPL_SHADOW_CFG.MMA_N [die] ≠ 0)) (count F.SPL_SHADOW_SKIP_COUNT.COUNT [die])

/-! ### Placement of kernels (R324) -/

/-- What a kernel needs. -/
def kernelNeed (attn : Bool) : Need :=
  if attn then { atiles := 4, chk := false, scr := 16, clu := 0, code := 2, shared := false, prog := kernAttn }
  else { atiles := 2, chk := false, scr := 8, clu := 0, code := 1, shared := false, prog := kernRetr }

/-- Kernel instances of a partition brought to a number: more are placed, and idle ones above it are freed; others follow as they become idle. None: the
placement does not fit. -/
def State.kernelPlace (s : State) (p : Nat) (attn : Bool) (n : Nat) : Option (List Eff × List Nat) :=
  let have' := (s.kernels p attn).length
  placeAll (fun t w => t.bestSpot (kernelNeed attn) w 255) (kernelNeed attn)
    (List.replicate (n - have') { part := p, mode := true, autoRearm := true, xsvc := true }) [] s

/-- Idle kernel contexts above a number are freed. -/
def kernelTrim (p : Nat) (attn : Bool) (n : Nat) : Prog := rd fun s =>
  let ks := s.kernels p attn
  Prog.each ((ks.filter (fun c => decide ((s.ctx c).st = .parked))).take (ks.length - n)) freeCtx

/-- A commit of CROWN_XSVC_p places or frees kernels (R324).
[Marks: DESIGN CHOICE, log entry 44.] -/
def xsvcCommit (p : Nat) : Prog := rd fun s =>
  let na := s.r F.CROWN_XSVC.ATTN_CTX [p]
  let nr := s.r F.CROWN_XSVC.RETR_CTX [p]
  let no : Prog := .all [wr F.CROWN_XSVC.STATE [p] 3, log { src := srcCrown, cause := 0x561, sev := 0, part := some p }]
  match s.kernelPlace p true na with
  | none => no
  | some a => match (s.after a.1).kernelPlace p false nr with
    | none => no
    | some b => .all [doPlace a, doPlace b, kernelTrim p true na, kernelTrim p false nr, wr F.CROWN_XSVC.STATE [p] (if na = 0 ∧ nr = 0 then 0 else 2)]

end Sys2Proof.Machine
end

