-- ==== Sys2Proof/Machine/Part.lean ====
section
/-! DEFINITION. Partitions (R465 to R471), their fence, removal and watchdog, and the life-cycle and debug commands (R482, R483). -/
namespace Sys2Proof.Machine
open Sys2Proof

/-- A field takes its reset value. -/
def wrReset (f : Fld) (ix : List Nat) : Prog := wr f ix f.rst

/-! ### Completion of a command (R467)
A command written once a switch reset has begun starts nothing: its register returns to its reset value at the end of the reset. -/

/-- A partition command completes with a RESULT of R212; one that is refused is recorded under cause 0x601. -/
def partDone (p : Nat) (bit : Fld) (res : Nat) : Prog := .all [
  wr bit [p] 0, wr F.CROWN_PART_CTRL.DONE [p] 1, wr F.CROWN_PART_CTRL.RESULT [p] res,
  Prog.when (decide (res ≠ pgDone)) (log { src := srcCrown, cause := 0x601, sev := 0, part := some p, obj0 := p, obj1 := res }), msix 0]

/-! ### CREATE (R467) -/

/-- The knot slice of CROWN_PART_CFG_p keeps the checks of R365: at most 16,384 knots, none past 0xFFFF, and none of another partition's slice. -/
def State.sliceOk (s : State) (p : Nat) : Bool :=
  let b := s.r F.CROWN_PART_CFG.KNOT_BASE [p]
  let n := s.r F.CROWN_PART_CFG.KNOT_COUNT [p]
  decide (n ≤ 16384) && decide (b + n ≤ 65536) && (List.range 16).all (fun o =>
    let c := s.r F.KNOT_SLICE.BASE [o]
    let m := s.r F.KNOT_SLICE.COUNT [o]
    decide (o = p) || decide (n = 0) || decide (m = 0) || decide (b + n ≤ c) || decide (c + m ≤ b))

/-- The lent tags of CROWN_PART_CFG_p keep the checks of R381: none reaches 0xFFFE, and none is lent to another partition.
[Marks: DEDUCED, log entry 48.] -/
def State.lendOk (s : State) (p : Nat) : Bool :=
  let b := s.r F.CROWN_PART_CFG.TAG_BASE [p]
  let n := s.r F.CROWN_PART_CFG.TAG_COUNT [p]
  decide (0xF000 + b + n ≤ 0xFFFE) && (List.range 16).all (fun o =>
    let c := s.r F.CLEAT_LEND.TAG_BASE [o]
    let m := s.r F.CLEAT_LEND.TAG_COUNT [o]
    decide (o = p) || decide (n = 0) || decide (m = 0) || decide (b + n ≤ c) || decide (c + m ≤ b))

/-- The RESULT of CREATE in state FREE (R467); no partition can be created outside life-cycle state PRODUCTION (R482).
[Marks: DEDUCED, log entry 48.] -/
def State.createResult (s : State) (p : Nat) : Nat :=
  let others := ((List.range 16).filter (fun o => decide (o ≠ p))).map (fun o => s.r F.CLEAT_LEND.MAX_ENTRIES [o])
  if s.r F.CROWN_LC_STATUS.LC_STATE [] ≠ 1 then pgWrongState
  else if ¬ s.sliceOk p ∨ ¬ s.lendOk p ∨ ¬ isRightsTag (s.r F.CROWN_PART_CFG.RIGHTS_TAG [p]) ∨ s.r F.CROWN_KEY_EPOCH.EPOCH [p] = 0xFFFFFFFF then pgBadArg
  else if cleatCap - s.r F.CLEAT_CFG.SYS_MIN [] < others.sum + s.r F.CROWN_PART_CFG.MAX_ENTRIES [p] then pgNoResource
  else pgDone

/-- The registers that Crown firmware writes for a partition, from CROWN_PART_CFG_p (R465).
[Marks: DEDUCED, log entry 48.] -/
def partWrite (p : Nat) : Prog := rd fun s => .all [
  Prog.each (List.range 8) (fun d => .all [
    wr F.SPL_PART_ACCESS.CLEAT_TAG [d, p] (s.r F.CROWN_PART_CFG.RIGHTS_TAG [p]), wr F.SPL_PART_ACCESS.MEM [d, p] (s.r F.CROWN_PART_CFG.MEM [p]),
    wr F.SPL_PART_ACCESS.TRIGGER [d, p] (s.r F.CROWN_PART_CFG.TRIGGER [p]), wr F.SPL_PART_ACCESS.BULK [d, p] (s.r F.CROWN_PART_CFG.BULK [p]),
    wr F.SPL_PART_ACCESS.NEAR [d, p] (s.r F.CROWN_PART_CFG.NEAR [p]), wr F.SPL_PART_ACCESS.VALID [d, p] 1]),
  wr F.KNOT_SLICE.BASE [p] (s.r F.CROWN_PART_CFG.KNOT_BASE [p]), wr F.KNOT_SLICE.COUNT [p] (s.r F.CROWN_PART_CFG.KNOT_COUNT [p]),
  wr F.CLEAT_LEND.TAG_BASE [p] (s.r F.CROWN_PART_CFG.TAG_BASE [p]), wr F.CLEAT_LEND.TAG_COUNT [p] (s.r F.CROWN_PART_CFG.TAG_COUNT [p]),
  wr F.CLEAT_LEND.MAX_ENTRIES [p] (s.r F.CROWN_PART_CFG.MAX_ENTRIES [p])]

/-- PARTITION_CREATE (R467): CREATE of a FREE partition is checked, and the partition is ACTIVE with its rights, knot slice and lent tags; its view's record ring begins
empty (R497). -/
def execPartitionCreate (p : Nat) (s : State) : Host.Outcome State Fault Refusal := run s <|
  if 16 ≤ p ∨ s.rb F.CROWN_PART_CTRL.CREATE [p] ∨ s.boot.pend.isSome then .skip
  else if s.partSt p = ptCreating then partDone p F.CROWN_PART_CTRL.CREATE pgDone
  else if s.partSt p ≠ ptFree then partDone p F.CROWN_PART_CTRL.CREATE pgWrongState
  else if s.createResult p ≠ pgDone then partDone p F.CROWN_PART_CTRL.CREATE (s.createResult p)
  else .all [partWrite p, .eff (.logPartClear p), setPart p ptActive,
    Prog.each [F.KNOT_SLICE.BASE, F.KNOT_SLICE.COUNT, F.CLEAT_LEND.TAG_BASE, F.CLEAT_LEND.TAG_COUNT, F.CLEAT_LEND.MAX_ENTRIES] (fun f => regChange f [p]),
    partDone p F.CROWN_PART_CTRL.CREATE pgDone]

/-! ### The fence (R468) -/

/-- The operations of a context that is fenced: as for a reset, and a work item that a kernel context runs goes back to wait for the drain limit (R219, R468).
[Marks: DEDUCED, log entry 48.] -/
def fenceOps (c : Nat) : Prog := rd fun s => Prog.each (s.opsOf c) fun e =>
  if e.2.kind = .kernel then .all [.eff (.op e.1 none), dropUnit e.1, rd fun t => match SMap.get none t.fab.items e.2.a with
    | some i => .eff (.item e.2.a (some { i with op := none }))
    | none => .skip]
  else killOp e.1 e.2

/-- The contexts that a partition holds. -/
def State.partCtxs (s : State) (p : Nat) : List Nat :=
  (SMap.keys s.eng.ctxs).filter (fun c => (s.ctx c).placed && decide ((s.ctx c).part = p) && decide ((s.ctx c).zero ≠ some .free))

/-- One sample of every engine of a list, naming a context each, all of one reset record (R503). -/
def sampleAll (level rid : Nat) (named : List (Nat × Nat)) : Prog := .all [
  Prog.each (named.take 256) (fun e => rd fun s => samplePut { s.sampleOf e.1 e.2 level with rid := rid }),
  Prog.when (decide (256 < named.length)) (.all [count F.LOG_SAMPLE_SKIP_COUNT.COUNT [] (named.length - 256),
    log { src := srcHang, cause := 0x533, sev := 0, obj0 := named.length - 256, link := rid }])]

/-- The engines that hold a context of a partition, with its lowest context on each, ascending (R503). -/
def State.partEngines (s : State) (p : Nat) : List (Nat × Nat) :=
  (s.partCtxs p).foldl (fun l c => if l.any (fun e => decide (e.1 = ctxEng c)) then l else l ++ [(ctxEng c, c)]) []

/-- FENCING begins: what R468 lists happens at one instant, under cause 0x602; requests admitted before may still complete.
[Marks: DEDUCED, log entry 48.] -/
def partFence (p link : Nat) : Prog := rd fun s =>
  let rid := s.nextRid srcCrown
  let cs := s.partCtxs p
  let es := s.partEngines p
  .all [
    setPart p ptFencing,
    log { src := srcCrown, cause := 0x602, sev := 2, status := stFenced, part := some p, obj0 := p, link := link
          sample := if es.isEmpty then none else some s.log.nextSample },
    Prog.each (s.btp.conns.filter (fun e => decide (e.2.part = p) && decide (e.2.st ≠ .free))) (fun e => .eff (.conn e.1 { e.2 with st := .fenced, chkRx := 0, chkTx := 0 })),
    Prog.each (s.btp.qps.filter (fun e => e.2.live && decide (e.2.part = p))) (fun e => .eff (.qp e.1 { e.2 with err := true })),
    Prog.each cs (fun c => .all [fenceOps c, rd fun t => .eff (.ctx c { t.ctx c with st := .fenced, halting := false })]),
    sampleAll 2 rid es,
    Prog.each ((s.portsOn).filter (s.owns p)) (fun q => fencePort q 1),
    breakKnots (s.sliceKnots p) p (some p) none rid,
    Prog.each (s.hitch.combs.filterMap (fun e => match e.2 with | some x => if x.part = p then some (e.1, x) else none | none => none)) (fun e => .all [
      .eff (.comb e.1 none), Prog.each e.2.parts (fun r => cut r stFenced 0 0)]),
    rd fun t => .eff (.ingress (t.hitch.ingress.filter (fun e => !t.ofPart p e))),
    Prog.each (s.pool.exts.filter (fun e => decide (e.2.part = p) && decide (e.2.st ≠ .free))) (fun e => abortMigs e.2),
    collFence p, flushPart p, dropLaunches (fun l => l.part = p), partCheck p]

/-- PARTITION_FENCE (R467, R468): FENCE of an ACTIVE partition begins its fence; in a state past it the command is DONE without effect. -/
def execPartitionFence (p : Nat) (s : State) : Host.Outcome State Fault Refusal := run s <|
  if 16 ≤ p ∨ s.rb F.CROWN_PART_CTRL.FENCE [p] ∨ s.boot.pend.isSome then .skip
  else if s.partSt p = ptFree then partDone p F.CROWN_PART_CTRL.FENCE pgWrongState
  else if s.partSt p = ptActive then .all [wr F.CROWN_PART_CTRL.FENCE [p] 1, partFence p 0]
  else partDone p F.CROWN_PART_CTRL.FENCE pgDone

/-! ### Removal (R469) -/

/-- No packet of a partition that waits in a response queue leaves the switch any more (R471). -/
def dropPackets (p : Nat) : Prog := rd fun s => Prog.each s.btp.respQs fun e =>
  .eff (.respQ e.1 (e.2.filter (fun m => match m with | .btp c _ _ _ _ _ => decide ((s.conn c).part ≠ p) | _ => true)))

/-- Steps 2 and 3 of removal: every extent of the partition is DRAINED, and its connections, queue pairs, service mode, contexts and programs are gone. -/
def removal (p : Nat) : Prog := rd fun s => .all [
  dropPackets p,
  Prog.each (s.pool.exts.filter (fun e => decide (e.2.part = p))) (fun e => match e.2.st with
    | .active | .draining | .recovering => .all [.eff (.ext e.1 { e.2 with st := .drained }), extChange e.1,
        endPrefetch (fun f => f.ext = e.1) stRevoked 0x301, abortMigs e.2]
    | .adding => .all [.eff (.ext e.1 {}), extChange e.1, cleatDrop e.1, Prog.opt e.2.slot (fun m => mboxDone m mbWrongState []), mboxNext]
    | _ => .skip),
  Prog.each (s.btp.conns.filter (fun e => decide (e.2.part = p) && decide (e.2.st ≠ .free))) (fun e => .all [
    Prog.each (s.outsOn e.1) (fun t => .eff (.out t none)), .eff (.conn e.1 {})]),
  Prog.each (s.btp.qps.filter (fun e => e.2.live && decide (e.2.part = p))) (fun e => .eff (.qp e.1 {})),
  svcOff p, .eff (.svc p {}),
  rd fun t => Prog.each (t.partCtxs p) freeCtx,
  Prog.each (s.eng.progs.filterMap (fun e => match e.2 with | some x => if x.part = p then some e.1 else none | none => none)) (fun g => .eff (.prg g none))]

/-- The time at which a removal began is kept for its record.
[Marks: DEDUCED, log entry 48.] -/
def removeBegins (p : Nat) : Prog := rd fun s => .all [
  wr F.CROWN_PART_CTRL.REMOVE [p] 1, .eff (.boot { s.boot with started := SMap.set 0 s.boot.started p s.time.now })]

/-- PARTITION_REMOVE (R467, R469): REMOVE of an ACTIVE partition fences it first; a FENCED one is REMOVING at once; one in FENCING is removed once it is FENCED. -/
def execPartitionRemove (p : Nat) (s : State) : Host.Outcome State Fault Refusal := run s <|
  if 16 ≤ p ∨ s.rb F.CROWN_PART_CTRL.REMOVE [p] ∨ s.boot.pend.isSome then .skip
  else if s.partSt p = ptActive then .all [removeBegins p, partFence p 0]
  else if s.partSt p = ptFencing then removeBegins p
  else if s.partSt p = ptFenced then .all [removeBegins p, setPart p ptRemoving, removal p]
  else partDone p F.CROWN_PART_CTRL.REMOVE pgDone

/-- FENCE_DRAIN_EXPIRY (R468, R469): FENCE_DRAIN_US after the start of FENCING every request still open ends with PARTITION_FENCED under cause 0x603, and the partition is
FENCED; where a REMOVE waits, removal goes on. -/
def execFenceDrainExpiry (p : Nat) (s : State) : Host.Outcome State Fault Refusal := run s <| .all [
  Prog.when (decide (s.partSt p = ptFencing)) (.all [
    Prog.each (s.reqsWith (fun q => decide (q.part = p))) (fun e => cut e.1 stFenced 0x603 p),
    Prog.each (s.items.filter (fun e => decide (e.2.part = p))) (fun e => .eff (.item e.1 none)),
    rd fun t => if t.partSt p = ptFencing then partFenced p else .skip]),
  rd fun t => if t.partSt p = ptRemoving then removal p else .skip]

/-- The trays that hold a floor slot of a partition. -/
def State.floorTrays (s : State) (p : Nat) : List Nat :=
  ((s.pool.exts.filter (fun e => decide (e.2.part = p) && decide (e.2.st ≠ .free))).flatMap (fun e => e.2.floors.flatMap (fun k =>
    match s.sset k.1 with | some y => y.trays | none => []))).eraseDups

/-- KEY_STATE_RECORD_DURABLE (R469, R473): the key state record that names e + 1 is written, and the partner has acknowledged it or 100 µs have passed. The epoch advances,
the partition is SCRUBBING, each tray that holds a floor slot of it records e + 1 in its key header, and the release of its extents starts. -/
def execKeyStateRecordDurable (p : Nat) (s : State) : Host.Outcome State Fault Refusal := run s <|
  if s.partSt p ≠ ptRemoving then .skip
  else .all [
    removal p,
    rd fun t =>
      let e := t.r F.CROWN_KEY_EPOCH.EPOCH [p] + 1
      .all [wr F.CROWN_KEY_EPOCH.EPOCH [p] e,
        regChange F.CROWN_KEY_EPOCH.EPOCH [p],
        .eff (.boot { t.boot with keys := SMap.set {} t.boot.keys p { SMap.get {} t.boot.keys p with epoch := e, devId := t.devId } }),
        Prog.each (t.floorTrays p) (fun y => send (.tray y trayKey [p, e]))],
    setPart p ptScrubbing,
    rd fun t => Prog.each (t.pool.exts.filter (fun e => decide (e.2.part = p))) (fun e => releaseExtent e.1 true)]

/-- The indices of the entries of a table with VALID = 1 that name a partition. -/
def State.naming (s : State) (valid part : Fld) (p : Nat) : List (List Nat) := (s.listedIx valid).filter (fun ix => decide (s.r part ix = p))

/-- The fields of a TM_Q entry. -/
def tmqFlds : List Fld := [F.TM_Q.VALID, F.TM_Q.PARTITION, F.TM_Q.PORT, F.TM_Q.STRICT, F.TM_Q.ALPHA, F.TM_Q.ECN_EN, F.TM_Q.MIN_CELLS, F.TM_Q.WEIGHT, F.TM_Q.BURST_KIB,
  F.TM_Q.ECN_KMIN, F.TM_Q.ECN_KMAX, F.TM_Q.CIR, F.TM_Q.ECN_PMAX, F.TM_Q.PIR, F.TM_Q.CBS_KIB, F.TM_Q.PBS_KIB]
/-- The fields of a TM_MCG entry. -/
def tmMcgFlds : List Fld := [F.TM_MCG.VALID, F.TM_MCG.PARTITION, F.TM_MCG.FIRST, F.TM_MCG.COUNT]
/-- The fields of a TM_INPORT entry. -/
def tmInportFlds : List Fld := [F.TM_INPORT.PROFILE, F.TM_INPORT.PARTITION, F.TM_INPORT.SHARED, F.TM_INPORT.POL_BASE]
/-- The configuration fields of a knot (R366, W0 to W3). -/
def knotFlds : List Fld := [F.KNOT.VALID, F.KNOT.TYPE, F.KNOT.STAGE, F.KNOT.HOME_INDEX, F.KNOT.OWNER_CTX_EN, F.KNOT.OWNER_CTX, F.KNOT.TRIG_EN, F.KNOT.TARGET,
  F.KNOT.TRIG_PROG, F.KNOT.MEMBER_MASK, F.KNOT.INIT]

/-- Step 6 of removal: the resources of a partition are cleared and its ports leave the fence (R462, R469).
[Marks: DEDUCED, log entry 48.] -/
def clearPart (p : Nat) : Prog := rd fun s =>
  let ports := s.portsOn.filter (s.owns p)
  let knots := (s.listed F.KNOT.VALID).filter (fun n => decide (s.knotPart n = some p))
  let agents := (s.listed F.HITCH_AGENT.VALID).filter (fun n => decide (s.agentPart n = p))
  .all [
    Prog.each (((s.cleat.ents.filter (fun e => s.lent p e.tag)).map (·.tag)).eraseDups) (fun t => cleatSys { op := 3, tag := t, lo := 0, hi := 0, res := 0 }),
    Prog.each ports releasePort,
    Prog.each (s.naming F.TM_Q.VALID F.TM_Q.PARTITION p) (fun ix => .all [Prog.each tmqFlds (fun f => wrReset f ix), .eff (.tmq (ix.headD 0) {})]),
    Prog.each (s.naming F.TM_MCG.VALID F.TM_MCG.PARTITION p) (fun ix => Prog.each tmMcgFlds (fun f => wrReset f ix)),
    Prog.each (s.naming F.TM_VLAN.VALID F.TM_VLAN.PARTITION p) (fun ix => .all [wrReset F.TM_VLAN.PARTITION ix, wrReset F.TM_VLAN.VALID ix]),
    Prog.each (ports.filter (fun q => decide (s.portMode q = mdEth))) (fun q => Prog.each tmInportFlds (fun f => wrReset f [q / 64, q % 64])),
    Prog.each (s.naming F.FELT_COLL.VALID F.FELT_COLL.PARTITION p) (fun ix => .all [wrReset F.FELT_COLL.VALID ix, collEnter (ix.headD 0)]),
    Prog.each knots (fun n => .all [Prog.each knotFlds (fun f => .all [wrReset f [n], regChange f [n]]), .eff (.knot n {})]),
    Prog.each (s.knotsIn.filter (fun n => decide (s.knotPart n = some p))) (fun n => .all [.eff (.knot n {}), knotChange n]),
    Prog.each ((SMap.keys s.hitch.txns).filter (fun l => (match s.dirAt l with | some x => decide (x.part = p) | none => false) ||
      (match s.txnAt l with | some t => decide (s.kindPart t.kind = some p) | none => false))) (fun l => .eff (.txn l none)),
    Prog.each agents (fun n => .all [wr F.HITCH_AGENT.VALID [n] 0, wr F.HITCH_AGENT.STATE [n] agAbsent]),
    Prog.each (s.hitch.dir.filterMap (fun e => match e.2 with | some x => if x.part = p then some e.1 else none | none => none)) (fun l => .all [.eff (.dir l none), dirChange l]),
    driveWaiting,
    Prog.each (List.range 8) (fun d => Prog.each [F.SPL_PART_ACCESS.CLEAT_TAG, F.SPL_PART_ACCESS.MEM, F.SPL_PART_ACCESS.TRIGGER, F.SPL_PART_ACCESS.BULK,
      F.SPL_PART_ACCESS.NEAR, F.SPL_PART_ACCESS.VALID] (fun f => wrReset f [d, p])),
    Prog.each [F.KNOT_SLICE.BASE, F.KNOT_SLICE.COUNT, F.CLEAT_LEND.TAG_BASE, F.CLEAT_LEND.TAG_COUNT, F.CLEAT_LEND.MAX_ENTRIES, F.CROWN_XSVC.ATTN_CTX,
      F.CROWN_XSVC.RETR_CTX, F.CROWN_XSVC.STATE, F.FELT_COLL_CAP.CELLS, F.FELT_COLL_CAP.EXACT_GRAN] (fun f => wrReset f [p])]

/-- PARTITION_SCRUB_COMPLETE (R469): the zero fill of every extent has ended; the partition's resources are cleared and it is FREE, recorded under cause 0x604 with the
start and end times of the removal.
[Marks: DEDUCED, log entry 48.] -/
def execPartitionScrubComplete (p : Nat) (s : State) : Host.Outcome State Fault Refusal := run s <|
  if s.partSt p ≠ ptScrubbing then .skip
  else .all [
    Prog.each (s.pool.exts.filter (fun e => decide (e.2.part = p) && decide (e.2.st ≠ .free))) (fun e => freeExtent e.1),
    clearPart p, setPart p ptFree,
    rd fun t => .all [
      log { src := srcCrown, cause := 0x604, sev := 2, part := some p, obj0 := SMap.get 0 t.boot.started p, obj1 := t.time.now % 2 ^ 32 },
      .eff (.boot { t.boot with started := SMap.set 0 t.boot.started p 0 })],
    partDone p F.CROWN_PART_CTRL.REMOVE pgDone]

/-! ### The partition watchdog (R498) -/

/-- Whether a partition holds a request at a unit of the switch, one that waits for another switch apart.
[Marks: DESIGN CHOICE, log entry 43.] -/
def State.holdsReq (s : State) (p : Nat) : Bool := !(s.reqsWith (fun q => decide (q.part = p) && (match q.wait with | .sent _ => false | _ => true))).isEmpty

/-- PARTITION_WATCHDOG_EXPIRY (R498, R500): the held requests of a partition have made no progress for the partition watchdog; it is recorded under cause 0x630, and with PART_EN the
partition is fenced. -/
def execPartitionWatchdogExpiry (p : Nat) (s : State) : Host.Outcome State Fault Refusal := run s <|
  if 16 ≤ p ∨ s.partSt p ≠ ptActive ∨ ¬ s.holdsReq p ∨ s.boot.pend.isSome then .skip
  else .all [log { src := srcHang, cause := 0x630, sev := if s.rb F.CROWN_WDT_CTRL.PART_EN [] then 2 else 0, part := some p, obj0 := p },
    Prog.when (s.rb F.CROWN_WDT_CTRL.PART_EN []) (partFence p (s.nextRid srcHang))]

/-! ### Life cycle and debug (R482, R483) -/

/-- Whether every partition is FREE. -/
def State.allFree (s : State) : Bool := (List.range 16).all (fun p => decide (s.partSt p = ptFree))

/-- LC_TRANSITION (R482): a token for a life-cycle state arrives; `tokenOk` says whether it is signed under the Farnil root and bound to the part's DevID and to a Crown nonce. The state
moves forward only, while every partition is FREE and TIER_EN is 0.
[Marks: DESIGN CHOICE, log entry 49.] -/
def execLcTransition (lc : Nat) (tokenOk : Bool) (s : State) : Host.Outcome State Fault Refusal := run s <|
  if tokenOk ∧ s.r F.CROWN_LC_STATUS.LC_STATE [] < lc ∧ lc ≤ 3 ∧ s.allFree ∧ ¬ s.rb F.TIER_CTRL.TIER_EN [] then
    .all [.eff (.boot { s.boot with lc := lc }), wr F.CROWN_LC_STATUS.LC_STATE [] lc]
  else log { src := srcCrown, cause := 0x621, sev := 0, obj0 := lc }

/-- DEBUG_UNLOCK (R483): a token unlocks the debug port of a part in PRODUCTION, while every partition is FREE; DEBUG_STATE is 1 until power-on reset.
[Marks: DESIGN CHOICE, log entry 49.] -/
def execDebugUnlock (tokenOk : Bool) (s : State) : Host.Outcome State Fault Refusal := run s <|
  if tokenOk ∧ s.r F.CROWN_LC_STATUS.LC_STATE [] = 1 ∧ s.allFree then
    .all [wr F.CROWN_LC_STATUS.DEBUG_STATE [] 1, log { src := srcCrown, cause := 0x620, sev := 0 }]
  else log { src := srcCrown, cause := 0x621, sev := 0 }

/-- DEBUG_ACCESS (R482, R483): an open or unlocked debug port serves the access, with a free value; a locked or closed one answers the fixed locked response, the empty message.
[Marks: DESIGN CHOICE, log entry 49.] -/
def execDebugAccess (s : State) : Host.Outcome State Fault Refusal := run s <|
  let lc := s.r F.CROWN_LC_STATUS.LC_STATE []
  if lc = 0 ∨ lc = 2 ∨ (lc = 1 ∧ s.rb F.CROWN_LC_STATUS.DEBUG_STATE []) then
    .seq (.eff .drawFree) (send (.debug [(Config.freeValue s.free).toNat]))
  else send (.debug [])

end Sys2Proof.Machine
end

