-- ==== Sys2Proof/Machine/Mirror.lean ====
section
/-! DEFINITION. The mirrored pair (R444, R508 to R516): the link and its stream of updates, restore of a domain, adoption, and the decay of health scores (R520). -/
namespace Sys2Proof.Machine
open Sys2Proof

/-! ### The link (R444) -/

/-- The port of the mirror link: an enabled port whose octet has MODE MIRROR. -/
def State.mirrorPort (s : State) : Option Nat := s.portsOn.find? (fun p => decide (s.portMode p = mdMirror))

/-- Whether the mirror link is up. -/
def State.mirrorUp (s : State) : Bool := decide (0 < s.mir.octs)

/-- MIRROR_LINK_UP (R509): the mirror port is UP with both octets. With MIRROR_EN = 1 RESYNC starts, but for a domain that is LOST or being adopted; journal groups that the
partner has not acknowledged are sent again (R146).
[Marks: DESIGN CHOICE, log entry 50.] -/
def execMirrorLinkUp (s : State) : Host.Outcome State Fault Refusal := run s <|
  match s.mirrorPort with
  | none => .skip
  | some p =>
    if s.link p ≠ lkUp then .skip
    else .all [.eff (.mir { s.mir with octs := 2 }),
      Prog.when (s.rb F.CROWN_MIRROR_CTRL.MIRROR_EN [] && decide (s.mirror ≠ mirLost ∧ s.mirror ≠ mirAdopting)) toResync,
      Prog.each s.pool.flash (fun e => Prog.each e.2.owed (fun _ => flashChange e.1))]

/-- The mirror link is lost under cause 0x118: its port goes down and trains again, and the pair is SOLO.
[Marks: DESIGN CHOICE, log entry 50.] -/
def mirrorLost (partnerLost : Bool) : Prog := rd fun s =>
  match s.mirrorPort with
  | none => .skip
  | some p => if ¬ s.mirrorUp then .skip else .all [
      log { src := srcBrim (p / 64), cause := 0x118, sev := 1, obj0 := p },
      count F.PORT_LINK_DOWN_COUNT.COUNT [p / 64, p % 64], Prog.when (!partnerLost) (health objMirror 4),
      mirrorDown partnerLost, takeDown p, startPort p]

/-- MIRROR_LINK_DOWN (R444): both octets lose PCS lock; `partnerLost` says that the partner was lost abruptly, which keeps the copies complete (R512). -/
def execMirrorLinkDown (partnerLost : Bool) (s : State) : Host.Outcome State Fault Refusal := run s (mirrorLost partnerLost)

/-- MIRROR_ACK_TIMEOUT (R444): no acknowledgment has advanced for DOWN_US. -/
def execMirrorAckTimeout (partnerLost : Bool) (s : State) : Host.Outcome State Fault Refusal := run s <|
  if s.mir.out.isEmpty then .skip else mirrorLost partnerLost

/-- MIRROR_OCTET_LOST (R444): one octet loses lock; the link runs at half rate, DEGRADED under cause 0x119. -/
def execMirrorOctetLost (s : State) : Host.Outcome State Fault Refusal := run s <|
  match s.mirrorPort with
  | none => .skip
  | some p => if s.mir.octs ≠ 2 then .skip else .all [
      .eff (.mir { s.mir with octs := 1 }), wr F.BRIM_PORT.DEGRADED [p / 64, p % 64] 1,
      log { src := srcBrim (p / 64), cause := 0x119, sev := 1, obj0 := p }, health objMirror 4]

/-- MIRROR_OCTET_RETURN (R444): a lost octet has lock again, and the link runs at full rate. -/
def execMirrorOctetReturn (s : State) : Host.Outcome State Fault Refusal := run s <|
  match s.mirrorPort with
  | none => .skip
  | some p => if s.mir.octs ≠ 1 then .skip else .all [.eff (.mir { s.mir with octs := 2 }), wr F.BRIM_PORT.DEGRADED [p / 64, p % 64] 0]

/-! ### The stream of updates (R510) -/

/-- An update applied to a copy of a domain. -/
def Domain.apply (d : Domain) (u : DomUpd) : Domain :=
  match u with
  | .dir l x => { d with dir := SMap.set none d.dir l x }
  | .knot n x => { d with knots := SMap.set {} d.knots n x }
  | .cleat l => { d with cleat := l }
  | .ext e x => { d with exts := SMap.set {} d.exts e x }
  | .page p x => { d with pages := SMap.set {} d.pages p x }
  | .route b x => { d with routes := SMap.set none d.routes b x }
  | .tray t x => { d with trays := SMap.set none d.trays t x }
  | .sset k x => { d with sets := SMap.set none d.sets k x }
  | .rows l => { d with rows := l }
  | .flash t x => { d with flash := SMap.set {} d.flash t x }
  | .reg k v => { d with regs := SMap.ins d.regs k v }

/-- MIRROR_FRAME_RECEIVE (R444, R510): a frame with link sequence number `seq` and the acknowledgment that every frame below `ack` has arrived. The next frame in sequence is applied to the copy
of the partner's domain and acknowledged; any other is acknowledged again and left for the replay. A frame that carries nothing but the acknowledgment takes no number. -/
def execMirrorFrameReceive (seq ack : Nat) (body : MirBody) (s : State) : Host.Outcome State Fault Refusal := run s <|
  let out := s.mir.out.filter (fun e => decide (ack ≤ e.1))
  if ¬ s.mirrorUp ∨ s.boot.pend.isSome then .skip
  else match body with
    | .none => .eff (.mir { s.mir with out := out })
    | .update n u =>
      if seq = s.mir.rx then
        .all [.eff (.mir { s.mir with out := out, rx := seq + 1, held := some { (s.mir.held.getD {}).apply u with seq := n } }), send (.mirrorAck (seq + 1))]
      else .all [.eff (.mir { s.mir with out := out }), send (.mirrorAck s.mir.rx)]

/-- MIRROR_REPLAY_TIMER (R444): the first frame left unacknowledged for 2 µs and all after it are sent again. -/
def execMirrorReplayTimer (s : State) : Host.Outcome State Fault Refusal := run s <|
  if s.mirrorUp then Prog.each s.mir.out (fun e => send (.mirror e.1 e.2.1 e.2.2)) else .skip

/-- MIRROR_UPDATE_ACK (R510): the partner acknowledges every update up to number n; ACK_SEQ is above the number of the last one acknowledged.
[Marks: DESIGN CHOICE, log entry 50.] -/
def execMirrorUpdateAck (n : Nat) (s : State) : Host.Outcome State Fault Refusal := run s <|
  if (s.mirror = mirPaired ∨ s.mirror = mirResync) ∧ s.r F.CROWN_MIRROR_ACK_SEQ.SEQ [] ≤ n ∧ n ≤ s.r F.CROWN_MIRROR_TX_SEQ.SEQ [] then
    wr F.CROWN_MIRROR_ACK_SEQ.SEQ [] (n + 1)
  else .skip

/-- RESYNC_COMPLETE (R508, R509): both full copies have crossed the link, and the pair is PAIRED under cause 0x881; a copy of the partner's domain that does not fit leaves the pair SOLO under cause
0x883. -/
def execResyncComplete (held : Option Domain) (s : State) : Host.Outcome State Fault Refusal := run s <|
  if s.mirror ≠ mirResync then .skip
  else match held with
    | none => .all [log { src := srcCrown, cause := 0x883, sev := 1 }, toSolo false]
    | some d => .all [
        wr F.CROWN_MIRROR_STATUS.STATE [] mirPaired, wr F.CROWN_MIRROR_STATUS.OWN_COPY [] 1, wr F.CROWN_MIRROR_STATUS.HELD [] 1,
        wr F.CROWN_MIRROR_STATUS.SOLO_MARK [] 0, .eff (.mir { s.mir with held := some d }),
        Prog.each s.pool.flash (fun e => .eff (.flash e.1 { e.2 with owed := [], par := e.2.map })), log { src := srcCrown, cause := 0x881, sev := 0 }]

/-! ### The domain of this switch (R508) -/

/-- The register fields of a domain: knot, Cleat lend and partition configuration, partition states and epochs, FELT_STAGE and FELT_ROUTE_EPOCH. -/
def domainFlds : List Fld := knotFlds ++ [F.KNOT_WINDOW.WIN_EN, F.KNOT_WINDOW.BASE, F.KNOT_SLICE.BASE, F.KNOT_SLICE.COUNT, F.CLEAT_LEND.TAG_BASE, F.CLEAT_LEND.TAG_COUNT,
  F.CLEAT_LEND.MAX_ENTRIES, F.SPL_PART_ACCESS.CLEAT_TAG, F.SPL_PART_ACCESS.MEM, F.SPL_PART_ACCESS.TRIGGER, F.SPL_PART_ACCESS.BULK, F.SPL_PART_ACCESS.NEAR,
  F.SPL_PART_ACCESS.VALID, F.CROWN_PART_CFG.RIGHTS_TAG, F.CROWN_PART_CFG.MEM, F.CROWN_PART_CFG.TRIGGER, F.CROWN_PART_CFG.BULK, F.CROWN_PART_CFG.NEAR,
  F.CROWN_PART_CFG.KNOT_BASE, F.CROWN_PART_CFG.KNOT_COUNT, F.CROWN_PART_CFG.TAG_BASE, F.CROWN_PART_CFG.TAG_COUNT, F.CROWN_PART_CFG.MAX_ENTRIES,
  F.CROWN_PART_CFG.FENCE_DRAIN_US, F.CROWN_PART_CTRL.STATE, F.CROWN_KEY_EPOCH.EPOCH, F.FELT_STAGE.STAGE_ID, F.FELT_STAGE.SWITCH_INDEX, F.FELT_ROUTE_EPOCH.CURRENT,
  F.FELT_ROUTE_EPOCH.DRAIN_US]

/-- The field of a domain with a register key, and its indices. -/
def domainFld (k : Nat) : Option (Fld × List Nat) :=
  domainFlds.findSome? (fun f => if f.lo = k % 64 then (f.at? (k / 64)).map (fun ix => (f, ix)) else none)

/-- The domain of this switch. -/
def State.ownDomain (s : State) : Domain :=
  { devId := s.devId, seq := s.r F.CROWN_MIRROR_TX_SEQ.SEQ [], dir := s.hitch.dir, knots := s.knots.kn, cleat := s.cleat.ents, exts := s.pool.exts
    pages := s.pool.pages, routes := s.pool.routes, trays := s.pool.trays, sets := s.pool.sets, rows := s.pool.rows, flash := s.pool.flash
    regs := s.regs.eff.filter (fun e => (domainFld e.1).isSome) }

/-! ### Restore (R136, R155, R191, R362, R384, R473, R474, R487, R512) -/

/-- The state that an extent is restored in (R121, R136): an ACTIVE one is RECOVERING, or ACTIVE again where it has no recorded parity row and no flash floor.
[Marks: DESIGN CHOICE, log entry 36.] -/
def State.restored (s : State) (x : Ext) : Ext :=
  let rows := s.pool.rows.any (fun r => decide (r.1 = x.set1) || (decide (x.prot = 1) && decide (r.1 = x.set2)))
  let y := { x with openReq := 0, slot := none }
  match x.st with
  | .free | .adding => {}
  | .active | .recovering => { y with st := if rows ∨ s.coldFloor x then .recovering else .active }
  | .draining => { y with st := .drained }
  | _ => y

/-- The tables of a domain take the place of the switch's own, as after a switch reset: migrations are abandoned, extents take their states, knots are BROKEN, the directory is dropped with its EM
lines poisoned, and after a power cycle a page whose only copy was hot is POISONED. Extents of another identity are LOST. A flash tray that is attached keeps what lies on
it: its own journal gives its map (R155), at once where no extent on it is RECOVERING. The registered program of a knot is not restored (R362), and its owner context is
free (R219, R360).
[Marks: DESIGN CHOICE, log entry 36; DESIGN CHOICE, log entry 50.] -/
def restoreDomain (d : Domain) (dirOk powerLost : Bool) : Prog := rd fun s0 => .all [
  .eff (.domain d),
  Prog.each d.regs (fun e => Prog.opt (domainFld e.1) (fun f => Prog.when (decide (f.1 ≠ F.KNOT.TRIG_EN ∧ f.1 ≠ F.KNOT.TRIG_PROG)) (wr f.1 f.2 e.2))),
  rd fun s => Prog.each (s.pool.flash.filter (fun e => decide (0 < e.2.zones))) (fun e =>
    let own := s0.flash e.1
    .all [.eff (.flash e.1 (if 0 < own.zones then own else e.2).restart), send (.tray e.1 trayReport [])]),
  rd fun s => Prog.each s.pool.pages (fun e =>
    let x : Page := { e.2 with st := if e.2.st = .migrating then .valid else e.2.st }
    .eff (.page e.1 (match x.place with
      | .hot _ _ => if ¬ powerLost then x else if x.floorValid then { x with place := .floor, floorValid := false } else { x with st := .poisoned, place := .none }
      | _ => x))),
  rd fun s => Prog.each s.pool.exts (fun e => .eff (.ext e.1 (s.restored e.2))),
  rd fun s => Prog.each ((SMap.keys s.pool.flash).filter (fun t => !s.pool.exts.any (fun e => decide (e.2.st = .recovering) && e.2.floors.any (fun k =>
    match s.sset k.1 with | some y => y.trays.contains t | none => false)))) (fun t => trayRecovered t (.tray none)),
  rd fun s => .all [
    Prog.each (s.hitch.dir.filterMap (fun e => e.2.map (fun x => (e.1, x)))) (fun e => .all [
      Prog.when (e.2.em && dirOk) (poisonLine e.1 0x410 (e.2.holders.headD 0)), .eff (.dir e.1 none)]),
    Prog.when (!dirOk) (Prog.each (s.pool.exts.filter (fun e => e.2.coherent && decide (e.2.st ≠ .free))) (fun e => rd fun t => .all [
      .eff (.ext e.1 { t.ext e.1 with st := .lost }), log { src := srcFelt, cause := 0x430, sev := 2, status := stLost, obj0 := e.1, part := some e.2.part }]))],
  rd fun s => Prog.each s.knots.kn (fun e =>
    let freed := e.2.ownerFreed || s.rb F.KNOT.OWNER_CTX_EN [e.1]
    .eff (.knot e.1 { e.2 with st := if e.2.st = .active then .broken else e.2.st, waits := [], held := [], ownerFreed := freed })),
  .eff (.cleatFwd (d.cleat.filter (fun e => isFwdTag e.tag))),
  rd fun s => Prog.when (decide (d.devId ≠ s.devId)) (Prog.each (s.pool.exts.filter (fun e => decide (e.2.st ≠ .free))) (fun e => .all [
    .eff (.ext e.1 { e.2 with st := .lost }), log { src := srcCrown, cause := 0x60A, sev := 2, status := stLost, obj0 := e.1, part := some e.2.part }]))]

/-- The state that a partition is restored in (R473, R487): `ahead` says that the epoch after its own record was found. -/
def restoredPart (st : Nat) (ahead : Bool) : Nat :=
  if st = ptFree then ptFree
  else if st = ptRemoving then (if ahead then ptScrubbing else ptRemoving)
  else if st = ptScrubbing then ptScrubbing
  else ptFenced

/-- Partition states and epochs are restored: the highest epoch of the own record, the domain restored and `found`, the partner's copy and tray key headers; a record that is invalid or behind is
written again under cause 0x606, and a partition that was in service is fenced under cause 0x602, linked to the record of the reset (R523). States come from the domain, or from the record where there is no source. -/
def restoreParts (fromDomain recOk : Bool) (found : List Nat) : Prog := rd fun s => Prog.each (List.range 16) fun p =>
  let k := SMap.get {} s.boot.keys p
  let own := if recOk then k.epoch else 0
  let e := max own (max (if fromDomain then s.r F.CROWN_KEY_EPOCH.EPOCH [p] else 0) (found.getD p 0))
  let st := if fromDomain then s.partSt p else k.st
  .all [
    wr F.CROWN_KEY_EPOCH.EPOCH [p] e,
    rd fun t => .eff (.boot { t.boot with keys := SMap.set {} t.boot.keys p { SMap.get {} t.boot.keys p with epoch := e, devId := t.devId } }),
    Prog.when (!recOk || decide (k.epoch < e)) (log { src := srcCrown, cause := 0x606, sev := 0, part := if st = ptFree then none else some p, obj0 := p, obj1 := e }),
    Prog.when (decide (st = ptCreating ∨ st = ptActive)) (log { src := srcCrown, cause := 0x602, sev := 2, status := stFenced, part := some p, obj0 := p, link := (s.boot.pend.map (·.rid)).getD 0 }),
    setPart p (restoredPart st (decide (own < e))),
    rd fun t => Prog.when (decide (t.partSt p = ptScrubbing)) (Prog.each (t.pool.exts.filter (fun x => decide (x.2.part = p))) (fun x => .all [releaseAgain x.1 true, releaseExtent x.1 true])),
    rd fun t => Prog.when (decide (t.partSt p ≠ ptScrubbing)) (Prog.each (t.pool.exts.filter (fun x => decide (x.2.part = p))) (fun x => releaseAgain x.1 false))]

/-- A domain without a source is lost (R384, R515, R516): every VALID knot and every extent is LOST, the Cleat is empty, and the pair is LOST under cause 0x882.
[Marks: DESIGN CHOICE, log entry 36.] -/
def domainLost : Prog := rd fun s => .all [
  log { src := srcCrown, cause := 0x882, sev := 3, status := stLost },
  wr F.CROWN_MIRROR_STATUS.STATE [] mirLost,
  .eff (.domain { exts := (s.pool.exts.filter (fun e => decide (e.2.st ≠ .free ∧ e.2.st ≠ .adding))).map (fun e => (e.1, { e.2 with st := .lost, openReq := 0, slot := none }))
                  knots := s.knots.kn.map (fun e => (e.1, if e.2.st = .off then e.2 else { e.2 with st := .lost, waits := [], held := [] })) }),
  Prog.each (s.knots.kn.filter (fun e => decide (e.2.st ≠ .off))) (fun e => wr F.KNOT.VALID [e.1] 1),
  Prog.when (s.knots.kn.any (fun e => decide (e.2.st ≠ .off))) (log { src := srcFelt, cause := 0x516, sev := 3, status := stLost }),
  .eff (.cleatFwd [])]

/-! ### Adoption and a lost domain (R514, R516) -/

/-- MIRROR_ADOPT (R514): ADOPT in state OFF starts loading the survivor's copy; in any other state it completes with no effect. -/
def execMirrorAdopt (s : State) : Host.Outcome State Fault Refusal := run s <|
  if s.mirror = mirOff then .all [wr F.CROWN_MIRROR_CTRL.ADOPT [] 1, wr F.CROWN_MIRROR_STATUS.STATE [] mirAdopting] else .skip

/-- MIRROR_ADOPT_COMPLETE (R474, R514, R515): where the survivor has lost the copy, the domain is lost. Else the copy is loaded; extents of the old identity are LOST, knots BROKEN and partitions FENCED, and RESYNC follows, or SOLO where the link is down.
[Marks: DESIGN CHOICE, log entry 50.] -/
def execMirrorAdoptComplete (copy : Option Domain) (s : State) : Host.Outcome State Fault Refusal := run s <|
  if s.mirror ≠ mirAdopting then .skip
  else match copy with
  | none => .all [wr F.CROWN_MIRROR_CTRL.ADOPT [] 0, domainLost]
  | some d => .all [
    restoreDomain d true false, restoreParts true true [],
    wr F.CROWN_MIRROR_RESTORE_SEQ.SEQ [] d.seq, log { src := srcCrown, cause := 0x885, sev := 0 },
    wr F.CROWN_MIRROR_CTRL.ADOPT [] 0,
    if s.mirrorUp then toResync else .all [wr F.CROWN_MIRROR_STATUS.STATE [] mirSolo, log { src := srcCrown, cause := 0x884, sev := 1 }]]

/-- MIRROR_CLEAR_LOST (R516): a switch whose domain is lost moves to SOLO, or to RESYNC when the link is up. -/
def execMirrorClearLost (s : State) : Host.Outcome State Fault Refusal := run s <|
  if s.mirror ≠ mirLost then .skip
  else if s.mirrorUp then toResync
  else .all [wr F.CROWN_MIRROR_STATUS.STATE [] mirSolo, log { src := srcCrown, cause := 0x884, sev := 1 }]

/-! ### Health (R520) -/

/-- HEALTH_DECAY (R520): each second every score S falls by max(1, S >> DECAY_SHIFT), not below 0. -/
def execHealthDecay (s : State) : Host.Outcome State Fault Refusal := run s <|
  Prog.each (s.listed F.CROWN_HEALTH.SCORE) fun n =>
    let v := s.r F.CROWN_HEALTH.SCORE [n]
    wr F.CROWN_HEALTH.SCORE [n] (v - max 1 (v / 2 ^ s.r F.CROWN_HEALTH_CFG.DECAY_SHIFT []))

end Sys2Proof.Machine
end

