-- ==== Sys2Proof/Machine/Power.lean ====
section
/-! DEFINITION. The power governor (R42, R546) and the thermal limits (R547). -/
namespace Sys2Proof.Machine
open Sys2Proof

/-- Two lists of readings added element by element, the longer one's tail kept. -/
def addLists : List Nat → List Nat → List Nat
  | [], ys => ys
  | xs, [] => xs
  | x :: xs, y :: ys => (x + y) :: addLists xs ys

/-- POWER_SAMPLE (R546): module power in mW and the rail currents in units of 0.25 A enter the window.
[Marks: DESIGN CHOICE, log entry 16.] -/
def execPowerSample (mw : Nat) (rails : List Nat) (s : State) : Host.Outcome State Fault Refusal := run s <|
  .eff (.power { s.power with sum := s.power.sum + mw, rails := addLists s.power.rails (rails.take 19), n := s.power.n + 1 })

/-- The next duty D of R546 for a window of n readings whose sum is given in mW. -/
def nextDuty (sum n limit step hyst floor d : Nat) (therm : Bool) : Nat :=
  let l := limit * 1000 * n
  let st : Int :=
    if l < sum then -(cdiv (sum - l) (step * 1000 * n) : Nat)
    else if sum + hyst * 1000 * n < l ∧ ¬ therm then 1
    else 0
  let st := if therm then min st (-1) else st
  (max (floor : Int) (min 64 ((d : Int) + st))).toNat

/-- The governor sets AT_FLOOR; a change raises MSI-X vector 5 (R529). -/
def setAtFloor (b : Bool) : Prog := rd fun s =>
  Prog.when (decide (s.rb F.PWR_STATUS.AT_FLOOR [] ≠ b)) (.all [wr F.PWR_STATUS.AT_FLOOR [] (b2n b), msix 5])

/-- GOVERNOR_WINDOW (R546, R42): at the end of a window the averages are reported, D is set and sent to all compute dies, and a window at the
floor with P over the limit is recorded. With GOV_EN = 0, D is 64. A window without a reading changes nothing.
[Marks: DESIGN CHOICE, log entry 16.] -/
def execGovernorWindow (s : State) : Host.Outcome State Fault Refusal := run s <|
  let w := s.power
  let on := s.rb F.PWR_CTRL.GOV_EN []
  let l := s.r F.PWR_CTRL.LIMIT_W []
  let fl := s.r F.PWR_CTRL.DUTY_FLOOR []
  let d := s.r F.PWR_STATUS.DUTY []
  let d' := if on then nextDuty w.sum w.n l (s.r F.PWR_LOOP.STEP_W []) (s.r F.PWR_LOOP.HYST_W []) fl d (s.rb F.PWR_STATUS.THROTTLE [])
    else 64
  Prog.when (decide (0 < w.n)) (.all [
    .eff (.power { w with sum := 0, rails := [], n := 0 }),
    wr F.PWR_STATUS.POWER_W [] (min 4095 (w.sum / (1000 * w.n))),
    Prog.each w.rails.zipIdx (fun p => wr F.PWR_RAIL.CURRENT [p.2] (p.1 / w.n)),
    wr F.PWR_STATUS.DUTY [] d',
    send (.duty d'),
    setAtFloor (decide (d' = fl)),
    Prog.when (on && decide (d = fl ∧ l * 1000 * w.n < w.sum)) (log { src := srcCrown, cause := 0x720, sev := 1 })])

/-- The warning limit of die d in units of 0.25 °C (R547). -/
def State.warnAt (s : State) (d : Nat) : Nat := if 19 ≤ d then 340 else s.r F.PWR_THERM.WARN_C [] * 4

/-- The throttle limit of the logic dies in units of 0.25 °C; a value at or below WARN_C acts as WARN_C + 1 (R555). -/
def State.throttleAt (s : State) : Nat :=
  max (s.r F.PWR_THERM.THROTTLE_C []) (s.r F.PWR_THERM.WARN_C [] + 1) * 4

/-- The SOURCE that reports the temperature of die d (R490, R547): an HBM stack is reported by its controller on the Felt. -/
def tempSrc (d : Nat) : Nat :=
  if d < 8 then srcEng d else if d < 16 then srcBrim (d - 8) else if d = 17 then srcCrown else if d = 18 then srcHost else srcFelt

/-- The health object of die d; the Crown and host die have none (R518, R547). -/
def tempObj (d : Nat) : Option Nat :=
  if d < 8 then some (objCompute d) else if d < 16 then some (objBrim (d - 8)) else if d = 16 then some objFelt
  else if d < 19 then none else some (objHbm (d - 19))

/-- Every logic die is 2 °C below the throttle limit (R547). -/
def State.allCool (s : State) : Bool :=
  (List.range 19).all (fun d => decide (s.r F.PWR_TEMP.TEMP [d] + 8 ≤ s.throttleAt))

/-- TEMP_REPORT (R547): die d reports a temperature in units of 0.25 °C. A rise above warning is a THERMAL health event once per excursion, a
logic die's rise above throttle puts the thermal throttle in force until every logic die is 2 °C below it.
[Marks: DESIGN CHOICE, log entry 16.] -/
def execTempReport (d t : Nat) (s : State) : Host.Outcome State Fault Refusal := run s <|
  let t := t % 65536
  let wasWarm := bit s.power.warm d
  let isWarm := decide (s.warnAt d < t)
  let wasHot := bit s.power.hot d
  let isHot := decide (d < 19) && decide (s.throttleAt < t)
  Prog.when (decide (d < 25)) (.all [
    wr F.PWR_TEMP.TEMP [d] t,
    .eff (.power { s.power with warm := setBits s.power.warm d 1 (b2n isWarm), hot := setBits s.power.hot d 1 (b2n isHot) }),
    Prog.when (isWarm && !wasWarm) (.all [
      log { src := tempSrc d, cause := 0x740, sev := 0, obj0 := d, obj1 := t },
      Prog.opt (tempObj d) (fun o => health o 8 t)]),
    Prog.when (isHot && !wasHot) (.all [
      log { src := tempSrc d, cause := 0x741, sev := 1, obj0 := d, obj1 := t },
      wr F.PWR_STATUS.THROTTLE [] 1]),
    Prog.when (decide (isWarm ≠ wasWarm) || decide (isHot ≠ wasHot)) (msix 5),
    rd fun u => Prog.when (u.rb F.PWR_STATUS.THROTTLE [] && u.allCool) (wr F.PWR_STATUS.THROTTLE [] 0)])

end Sys2Proof.Machine
end

