-- ==== Sys2Proof/Machine/Roce.lean ====
section
/-! DEFINITION. RoCEv2 queue pairs (R88 to R90): RDMA writes and reads, acknowledgments and congestion notifications. -/
namespace Sys2Proof.Machine
open Sys2Proof

/-- NAK codes of the acknowledgment: PSN sequence error, invalid request, remote access error, remote operational error.
[Marks: PRESUMED, log entry 29.] -/
def nakSeq : Nat := 0
/-- Invalid request.
[Marks: PRESUMED, log entry 29.] -/
def nakInvalid : Nat := 1
/-- Remote access error.
[Marks: PRESUMED, log entry 29.] -/
def nakAccess : Nat := 2
/-- Remote operational error.
[Marks: PRESUMED, log entry 29.] -/
def nakOp : Nat := 3

/-- The requests that a queue pair holds open. -/
def State.openQp (s : State) (n : Nat) : List (Nat × Req) := s.reqsWith (fun q => decide (q.src = .qp n))

/-- A CE-marked packet is answered with a CNP, at most once per 50 µs (R89). -/
def qpCe (n : Nat) (ce : Bool) : Prog := rd fun s =>
  let x := s.qp n
  let due : Bool := match x.lastCnp with | none => true | some t => decide (50000 ≤ s.time.now - t)
  if ce ∧ due then .all [.eff (.qp n { x with lastCnp := some s.time.now }), send (roceMsg n .cnp)] else .skip

/-- A failed access of a queue pair (R90): NAK Remote Access Error under cause 0x840, and the queue pair enters its error state.
[Marks: PRESUMED, log entry 29.] -/
def qpAccessError (n psn rkey : Nat) : Prog := rd fun s => .all [
  log { src := srcBrim (qpDie n), cause := 0x840, sev := 2, obj0 := n, obj1 := rkey, part := some (s.qp n).part },
  .eff (.qp n { s.qp n with err := true }), send (roceMsg n (.nak psn nakAccess))]

/-- The fabric address and the ACCESS bits of a region that an R_Key names (R372 step 1): `error true` where the entry has an uncorrectable error (R380). -/
def State.rkey (s : State) (n k : Nat) : Except Bool (Nat × Nat) :=
  match s.look (s.qp n).tag k with
  | .hit e => if e.kind = 4 ∧ isRightsTag e.tag then .ok (e.result % 2 ^ 52, bits e.result 52 4) else .error false
  | .bad => .error true
  | .miss => .error false

/-- A request whose R_Key gives no region: an access error, or, where the entry could not be read, what BTP answers with BUSY (R90, R380). -/
def rkeyFails (n psn rkey : Nat) (bad : Bool) : Prog := rd fun s =>
  if bad then .all [
    log { src := srcFelt, cause := 0x381, sev := 2, status := stBusy, obj0 := n, obj1 := rkey, part := some (s.qp n).part }, send (roceMsg n (.nak psn nakOp))]
  else qpAccessError n psn rkey

/-- An RDMA access of n bytes becomes a request (R90, R372): a failure of the R_Key or of the rights is an access error, and any other check that fails
ends the request as under BTP.
[Marks: PRESUMED, log entry 29.] -/
def qpRequest (n psn rkey acc : Nat) (q : Req) : Prog := fresh fun r => rd fun s =>
  let x := s.qp n
  if acc &&& q.need ≠ q.need ∨ s.rights x.tag x.part q.addr q.len q.need false = .no then qpAccessError n psn rkey
  else
    let v : Verdict :=
      if x.maxOut ≠ 0 ∧ x.maxOut ≤ (s.openQp n).length then .refuse stBusy 0 n
      else if ¬ bit x.services 2 then .refuse stDenied 0x830 n
      else if s.fenced x.part then .refuse stFenced 0 n
      else s.resolve q x.tag 0x830
    admitReq r q v false

/-- Whether a queue pair takes a packet of a port (R63, R88, R89, R98): it is live and serves the port, RoCEv2 is on in its die, and the ICRC is right. -/
def State.qpTakes (s : State) (n port : Nat) (icrcOk : Bool) : Bool :=
  (s.qp n).live && bit (s.qp n).portSet port && s.rb F.BRIM_BTP_CTRL.ROCE_EN [qpDie n] && icrcOk && !s.portShut (64 * qpDie n + port)

/-- A packet of a live queue pair in order: a duplicate is acknowledged, a later PSN is answered with a NAK (R89).
[Marks: PRESUMED, log entry 29.] -/
def qpInOrder (n port psn : Nat) (icrcOk ce : Bool) (go : Qp → Prog) : Prog := rd fun s =>
  let x := s.qp n
  if ¬ s.qpTakes n port icrcOk ∨ x.err then .skip
  else .all [qpCe n ce, rd fun u =>
    let y := u.qp n
    let d := (psn + 2 ^ 24 - y.rxPsn) % 2 ^ 24
    if d = 0 then go y
    else if 2 ^ 23 ≤ d then send (roceMsg n (.ack psn))
    else send (roceMsg n (.nak y.rxPsn nakSeq))]

/-- ROCE_RDMA_WRITE (R89): one packet of an RDMA WRITE of at most the path MTU: its place in the message, and with the first its R_Key, virtual address and length.
The R_Key and its access hold for the packets that follow (R90).
[Marks: PRESUMED, log entry 29.] -/
def execRoceRdmaWrite (n port psn : Nat) (seg : WriteSeg) (icrcOk ce : Bool) (data : List Byte) (s : State) : Host.Outcome State Fault Refusal := run s <|
  qpInOrder n port psn icrcOk ce fun x => rd fun u =>
    let put (fa acc left rkey : Nat) : Prog := .all [
      .eff (.qp n { x with rxPsn := (psn + 1) % 2 ^ 24, wAddr := fa + data.length, wLeft := left - data.length, wAcc := acc, wKey := rkey }),
      if data.isEmpty then send (roceMsg n (.ack psn))
      else qpRequest n psn rkey acc {
        src := .qp n, op := 0x15, psn := psn, ord := 2, part := x.part, addr := u.hall fa, len := data.length
        want := data.length, rcv := data.length, segs := [(0, data)] }]
    if x.mtu < data.length then send (roceMsg n (.nak psn nakInvalid))
    else match seg with
    | .first k va len => (match u.rkey n k with
      | .error bad => rkeyFails n psn k bad
      | .ok (b, acc) => if len < data.length then send (roceMsg n (.nak psn nakInvalid)) else put (b + va) acc len k)
    | .next => if x.wLeft < data.length ∨ data.isEmpty then send (roceMsg n (.nak psn nakInvalid)) else put x.wAddr x.wAcc x.wLeft x.wKey

/-- ROCE_RDMA_READ_REQUEST (R89): up to 16 MiB, at most 16 outstanding; its response takes as many PSNs as it has packets of the path MTU.
[Marks: PRESUMED, log entry 29.] -/
def execRoceRdmaReadRequest (n port psn rkey va len : Nat) (icrcOk ce : Bool) (s : State) : Host.Outcome State Fault Refusal := run s <|
  qpInOrder n port psn icrcOk ce fun x => rd fun u =>
    if 2 ^ 24 < len ∨ 16 ≤ ((u.openQp n).filter (fun e => e.2.op = 0x14)).length then send (roceMsg n (.nak psn nakInvalid))
    else match u.rkey n rkey with
      | .error bad => rkeyFails n psn rkey bad
      | .ok (b, acc) => .all [
          .eff (.qp n { x with rxPsn := (psn + max 1 (cdiv len x.mtu)) % 2 ^ 24 }),
          if len = 0 then send (roceMsg n (.read psn []))
          else qpRequest n psn rkey acc { src := .qp n, op := 0x14, psn := psn, ord := 2, part := x.part, addr := u.hall (b + va), len := len }]

/-- ROCE_UNSUPPORTED_REQUEST (R89): answered with NAK Invalid Request.
[Marks: PRESUMED, log entry 29.] -/
def execRoceUnsupportedRequest (n port psn : Nat) (icrcOk ce : Bool) (s : State) : Host.Outcome State Fault Refusal := run s <|
  qpInOrder n port psn icrcOk ce fun _ => send (roceMsg n (.nak psn nakInvalid))

/-- PSNs of 24 bits: a is at or before b.
[Marks: PRESUMED, log entry 29.] -/
def psn24le (a b : Nat) : Bool := decide ((b + 2 ^ 24 - a % 2 ^ 24) % 2 ^ 24 < 2 ^ 23)

/-- ROCE_ACK_RECEIVE (R89): an acknowledgment retires the packets up to its PSN, a NAK has those from its PSN on sent again. -/
def execRoceAckReceive (n port psn : Nat) (nak icrcOk : Bool) (s : State) : Host.Outcome State Fault Refusal := run s <|
  let x := s.qp n
  if ¬ s.qpTakes n port icrcOk then .skip
  else if nak then .all [
    .eff (.qp n { x with out := x.out.filter (fun p => psn24le psn p.1) }),
    Prog.each (x.out.filter (fun p => psn24le psn p.1)) (fun p => send (roceMsg n (.read p.1 p.2)))]
  else .eff (.qp n { x with out := x.out.filter (fun p => !psn24le p.1 psn) })

/-- ROCE_CNP_RECEIVE (R89): a CNP halves the send rate. -/
def execRoceCnpReceive (n port : Nat) (icrcOk : Bool) (s : State) : Host.Outcome State Fault Refusal := run s <|
  let x := s.qp n
  if s.qpTakes n port icrcOk then .eff (.qp n { x with rate := rateAfter x.rate true }) else .skip

end Sys2Proof.Machine
end

