-- ==== Sys2Proof/Machine/Time.lean ====
section
/-! DEFINITION. The time base: the counter and its shadows (R37, R38), alignment to PPS_IN, trim and PPS_OUT (R549 to R552). -/
namespace Sys2Proof.Machine
open Sys2Proof

/-- One period of the local clock of a shadow's die in units of 1/120 ns (R37): 0.625 ns on the compute dies, 0.8 ns on the Brim dies, 5/6 ns on the Felt, and 1 ns on the host die, which runs on
CLK_CROWN. -/
def shadowPeriod (i : Nat) : Nat := if i < 8 then 75 else if i < 16 then 96 else if i = 16 then 100 else 120

/-- A shadow after one nanosecond, of whose local clock one period is p / 120 ns: it advances by one period, with its fraction held exactly, in every local cycle that ends in the nanosecond, or
holds its value (R37, R38).
[Marks: DESIGN CHOICE, log entry 1.] -/
def Shadow.tick (p : Nat) (h : Shadow) : Shadow :=
  let f := h.frac + (h.phase + 120) / p * p
  let g : Shadow := { h with phase := (h.phase + 120) % p }
  if 0 < h.hold then { g with hold := h.hold - 1 } else { g with val := (h.val + f / 120) % 2 ^ 64, frac := f % 120 }

/-- One CLK_CROWN cycle passes: the counter advances by 1 ns, and every shadow by its local cycles, while the module is powered (R37, R545).
[Marks: DESIGN CHOICE, log entry 1.] -/
def tick : Prog := rd fun s =>
  Prog.when (s.pins.pwrgdAux && s.pins.pwrgdMain)
    (.eff (.time { s.time with now := (s.time.now + 1) % 2 ^ 64, shadows := s.time.shadows.zipIdx.map (fun e => e.1.tick (shadowPeriod e.2)) }))

/-- A shadow whose reading differs from the counter by err ns (at most 4) takes a broadcast of it (R38): it holds its value while the counter
is behind, and never steps by more than 4 ns. The fraction is that of the value loaded, which is whole. -/
def Shadow.load (h : Shadow) (now : Nat) (err : Int) : Shadow :=
  let cur := max h.val (now + max (-4) (min 4 err)).toNat
  if now < cur then { h with val := cur, hold := cur - now, frac := 0 } else { h with val := min now (cur + 4), hold := 0, frac := 0 }

/-- TIME_BROADCAST (R37): every shadow loads the counter; `errs` gives how far each shadow's reading stands from it. -/
def execTimeBroadcast (errs : List Int) (s : State) : Host.Outcome State Fault Refusal := run s <| .all [
  send (.time s.time.now),
  .eff (.time { s.time with shadows :=
    s.time.shadows.zipIdx.map (fun p => p.1.load s.time.now ((errs[p.2]?).getD 0)) })]

/-- TIME_STATUS.STATE moves (R551); a change raises MSI-X vector 4 (R529). -/
def timeState (v : Nat) : Prog := rd fun s =>
  Prog.when (decide (s.r F.TIME_STATUS.STATE [] ≠ v)) (.all [wr F.TIME_STATUS.STATE [] v, msix 4])

/-- C's round to a whole multiple: half away from zero (R550). -/
def roundDiv (a : Int) (n : Nat) : Int :=
  if 0 ≤ a then (a + n / 2) / n else -((-a + n / 2) / n)

/-- The phase error e of an edge at counter C (R550). -/
def phaseError (c delay : Nat) : Int :=
  let x : Int := c - delay
  x - roundDiv x 1000000000 * 1000000000

/-- A trim held to its limits (R550). -/
def clampTrim (f : Int) (maxPpb : Nat) : Int :=
  let m : Int := min maxPpb 1000000
  max (-m) (min f m)

/-- An accepted edge: error, trim and state (R550, R551). On the fallback oscillator the counter stays in HOLDOVER.
[Marks: DESIGN CHOICE, log entry 15.] -/
def ppsAccept : Prog := rd fun s =>
  let e := phaseError s.time.now (s.r F.TIME_CTRL.DELAY_NS [])
  let fi := sext 64 (wrap 64 (s.time.fi - Int.tdiv e 8))
  let f := clampTrim (fi - Int.tdiv e 2) (s.r F.TIME_TRIM.TRIM_MAX_PPB [])
  let near := decide (e.natAbs ≤ s.r F.TIME_CTRL.LOCK_NS [])
  let n := if near then min 4 (s.time.inLock + 1) else 0
  let errWord := wrap 32 (max (-0x7fffffff) (min e 0x7fffffff))
  if s.rb F.CROWN_CLK_STATUS.FALLBACK_OSC [] then
    .all [.eff (.time { s.time with edge := some s.time.now }), wr F.TIME_STATUS.LAST_ERR_NS [] errWord]
  else
    .all [
      .eff (.time { s.time with fi := fi, f := f, inLock := n, edge := some s.time.now }),
      wr F.TIME_STATUS.LAST_ERR_NS [] errWord,
      if decide (n = 4) then
        .all [Prog.when (decide (s.r F.TIME_STATUS.STATE [] ≠ 2)) (log { src := srcCrown, cause := 0x751, sev := 0 }), timeState 2]
      else timeState 1]

/-- PPS_EDGE (R550): an edge at least 0.5 s after the accepted one before it is accepted; an earlier one is counted and recorded. Edges are used
only where PPS_EN is 1. -/
def execPpsEdge (s : State) : Host.Outcome State Fault Refusal := run s <|
  let early := match s.time.edge with
    | none => false
    | some t => decide (s.time.now < t + 500000000)
  Prog.when (s.rb F.TIME_CTRL.PPS_EN [])
    (if early then .all [count F.TIME_STATUS.SPURIOUS [], log { src := srcCrown, cause := 0x753, sev := 1 }] else ppsAccept)

/-- Time enters HOLDOVER with the trim held at FI (R551).
[Marks: DESIGN CHOICE, log entry 15.] -/
def holdover : Prog := rd fun s => .all [
  .eff (.time { s.time with f := clampTrim s.time.fi (s.r F.TIME_TRIM.TRIM_MAX_PPB []), inLock := 0 }), timeState 3]

/-- PPS_HOLDOVER_TIMEOUT (R551): from TRACKING or LOCKED to HOLDOVER under cause 0x750. -/
def execPpsHoldoverTimeout (s : State) : Host.Outcome State Fault Refusal := run s <|
  let st := s.r F.TIME_STATUS.STATE []
  Prog.when (decide (st = 1 ∨ st = 2)) (.all [log { src := srcCrown, cause := 0x750, sev := 0 }, holdover])

/-- Time is FREE with the trim held at 0: power-on, or PPS_EN = 0 (R551). -/
def timeFree : Prog := rd fun s => .all [.eff (.time { s.time with fi := 0, f := 0, inLock := 0 }), timeState 0]

/-- PPS_OUT_RISE (R552): PPS_OUT rises where the counter is at a whole multiple of 10^9, within 2 ns, and PPS_OUT_EN is 1. -/
def execPpsOutRise (s : State) : Host.Outcome State Fault Refusal := run s <|
  let c := s.time.now % 1000000000
  Prog.when (s.rb F.TIME_CTRL.PPS_OUT_EN [] && (decide (c ≤ 2) || decide (999999998 ≤ c)) && !s.pins.ppsOut)
    (.all [.eff (.pins { s.pins with ppsOut := true }), send (.pin 3 true)])

/-- PPS_OUT_FALL (R552): 100 µs after it rose, PPS_OUT falls. -/
def execPpsOutFall (s : State) : Host.Outcome State Fault Refusal := run s <|
  Prog.when s.pins.ppsOut (.all [.eff (.pins { s.pins with ppsOut := false }), send (.pin 3 false)])

end Sys2Proof.Machine
end

