-- ==== Sys2Proof/Machine/Reset.lean ====
section
/-! DEFINITION. What begins a switch reset (R500, R505) and what takes a single die down: die-to-die links (R32, R33), clocks and references (R40), rails (R545) and the thermal trip (R547). -/
namespace Sys2Proof.Machine
open Sys2Proof

/-! ### The start of a switch reset (R505) -/

/-- A switch reset can begin: the switch is past its ready point and none is under way. -/
def State.canReset (s : State) : Bool := s.rb F.CROWN_BOOT_STATUS.READY [] && s.boot.pend.isNone

/-- The engines that a switch reset samples: those with a READY context, each with the one that was longest without issuing (R503). -/
def State.resetEngines (s : State) : List (Nat × Nat) :=
  let ready := (SMap.keys s.eng.ctxs).filter (fun c => decide ((s.ctx c).st = .ready))
  (ready.map ctxEng).eraseDups.map (fun e => (e, (s.longest (ready.filter (fun c => decide (ctxEng c = e)))).getD 0))

/-- The ports whose links are neither down nor failed. -/
def State.portsLive (s : State) : List Nat := s.portsOn.filter (fun p => decide (s.link p ≠ lkDown ∧ s.link p ≠ lkFailed))

/-- Steps 1 and 3 of a switch reset: its record of SEV 3, FAULT_N, no more admission and no more issue, and the fence on every port; without a fence the ports go down (R40, R457). -/
def startReset (r : LogRec) (noFence : Bool) : Prog := rd fun s =>
  if ¬ s.canReset then .skip
  else .all [
    log { r with sev := 3, status := stReset, sample := if s.resetEngines.isEmpty then none else some s.log.nextSample },
    setFault F.CROWN_FAULT_STATUS.RESETTING true, wr F.CROWN_BOOT_STATUS.READY [] 0,
    .eff (.boot { s.boot with pend := some { cause := r.cause, rid := s.nextRid r.src, noFence := noFence } }),
    Prog.each s.portsLive (fun p => if noFence then takeDown p else fencePort p 0)]

/-- CROWN_RESET_SWITCH (R555): a write of 1 to CROWN_RESET.SWITCH starts a switch reset under cause 0x735. -/
def execCrownResetSwitch (s : State) : Host.Outcome State Fault Refusal := run s <|
  if s.canReset then .all [wr F.CROWN_RESET.SWITCH [] 1, startReset { src := srcCrown, cause := 0x735, sev := 3 } false] else .skip

/-- SWITCH_WATCHDOG_EXPIRY (R498, R500): the heartbeat of Crown firmware or a unit's progress report is missing for the switch watchdog; it is recorded under cause 0x730, and with SW_EN a
switch reset starts. -/
def execSwitchWatchdogExpiry (s : State) : Host.Outcome State Fault Refusal := run s <|
  if ¬ s.canReset then .skip
  else if s.rb F.CROWN_WDT_CTRL.SW_EN [] then startReset { src := srcHang, cause := 0x730, sev := 3 } false
  else log { src := srcHang, cause := 0x730, sev := 0 }

/-- FENCE_OVERRUN (R500): a partition is in FENCING for longer than FENCE_DRAIN_US and the partition watchdog; a switch reset starts under cause 0x731. -/
def execFenceOverrun (p : Nat) (s : State) : Host.Outcome State Fault Refusal := run s <|
  if 16 ≤ p ∨ s.partSt p ≠ ptFencing then .skip else startReset { src := srcHang, cause := 0x731, sev := 3, obj0 := p, part := some p } false

/-! ### Lost dies (R33) -/

/-- The outcome for requests of a compute die that is lost: it is offline, its contexts are reset without a sample and it takes no more programs.
[Marks: DESIGN CHOICE, log entry 56.] -/
def computeLost (d cause : Nat) : Prog := rd fun s =>
  let rid := s.nextRid srcCrown
  if ¬ bit (s.r F.CROWN_DIE_STATUS.COMPUTE_ONLINE []) d then .skip
  else .all [
    log { src := srcCrown, cause := cause, sev := 2, status := stBroken, obj0 := d },
    wr F.CROWN_DIE_STATUS.COMPUTE_ONLINE [] (setBits (s.r F.CROWN_DIE_STATUS.COMPUTE_ONLINE []) d 1 0), wr F.SPL_ENG_AVAIL.AVAIL [d] 0,
    Prog.each ((SMap.keys s.eng.ctxs).filter (fun c => decide (ctxDie c = d) && (s.ctx c).placed)) (fun c => resetCtx c rid)]

/-- Whether a request came in by a port of a Brim die. -/
def State.ofBrim (s : State) (b : Nat) : Src → Bool
  | .conn c => decide (connDie c = b)
  | .qp q => decide (qpDie q = b)
  | .agent n => decide (s.agentPort n / 64 = b)
  | .cxlPort p => decide (p / 64 = b)
  | _ => false

/-- A lost Brim die: its ports are fenced and go down, their queues are flushed and their requests discarded, its agents' links are down and its trays are lost;
codec requests at its units end with TIMEOUT (R411).
[Marks: DESIGN CHOICE, log entry 56.] -/
def brimLost (b : Nat) : Prog := rd fun s =>
  let ports := s.portsOn.filter (fun p => decide (p / 64 = b))
  if ¬ bit (s.r F.CROWN_DIE_STATUS.BRIM_ONLINE []) b then .skip
  else .all [
    log { src := srcCrown, cause := 0x143, sev := 2, status := stTimeout, obj0 := b },
    wr F.CROWN_DIE_STATUS.BRIM_ONLINE [] (setBits (s.r F.CROWN_DIE_STATUS.BRIM_ONLINE []) b 1 0),
    Prog.each ports (fun p => .all [fencePort p 0, flushPort p]),
    Prog.each (s.eng.ops.filterMap (fun e => e.2.bind (fun p => if p.kind = .codec ∧ p.mask = b ∧ p.dead = false then some (e.1, p) else none)))
      (fun e => .all [pendingClear e.2, dropUnit e.1, codecFail e.1 e.2 stTimeout 0]),
    Prog.each (s.reqsWith (fun q => s.ofBrim b q.src)) (fun e => rd fun t => .all [releaseLines e.1 (t.linesHeld e.1), dropReq e.1]),
    Prog.each ((s.listed F.HITCH_AGENT.VALID).filter (fun n => decide (s.agentPort n / 64 = b))) (fun n => agentLost n 0x401),
    Prog.each (s.pool.trays.filterMap (fun e => match e.2 with | some x => if x.die = b then some e.1 else none | none => none)) trayLost]

/-- The host die's link to the Felt or to the Crown is lost: the host port goes down (`State.hostUp`) and FAULT_N is asserted; forwarding and programs continue.
[Marks: DESIGN CHOICE, log entry 56.] -/
def hostLost (n : Nat) : Prog :=
  .all [log { src := srcCrown, cause := 0x145, sev := 1, obj0 := n }, wr F.CROWN_DIE_STATUS.HOST_LINK_UP [] 0, setFault F.CROWN_FAULT_STATUS.HOST_LINK true]

/-- The health object of a die-to-die link (R518).
[Marks: DESIGN CHOICE, log entry 56.] -/
def linkDieObj (n : Nat) : Option Nat :=
  if n < 8 then some (objCompute n) else if n < 16 then some (objBrim (n - 8)) else if n < 18 then some objFelt else none

/-- D2D_CRC_ERROR (R32, R33): a receiver asks for replay from the failed flit, which succeeds or not; 16 failed replays in a row start a retrain. RETRAIN_COUNT, which
the rule gives to a retrain that succeeds and the register to every retrain performed, counts each retrain at its start.
[Marks: DESIGN CHOICE, log entry 61.] -/
def execD2dCrcError (n : Nat) (ok : Bool) (s : State) : Host.Outcome State Fault Refusal := run s <|
  let k := SMap.get 0 s.d2d.fails n + 1
  if 19 ≤ n ∨ s.d2d.retraining.contains n ∨ s.rb F.CROWN_D2D_STATUS.LOST [n] then .skip
  else .all [
    count F.CROWN_D2D_STATUS.REPLAY_COUNT [n], Prog.opt (linkDieObj n) (fun o => health o 2),
    if ok then .all [.eff (.d2d { s.d2d with fails := SMap.set 0 s.d2d.fails n 0 }), log { src := srcCrown, cause := 0x140, sev := 0, obj0 := n }]
    else if k < 16 then .eff (.d2d { s.d2d with fails := SMap.set 0 s.d2d.fails n k })
    else .all [.eff (.d2d { fails := SMap.set 0 s.d2d.fails n 0, retraining := s.d2d.retraining ++ [n] }), count F.CROWN_D2D_STATUS.RETRAIN_COUNT [n]]]

/-- D2D_RETRAIN_DONE (R33): a retrain ends; traffic resumes in order under cause 0x141, or the link is lost until switch reset with the outcome of its kind.
[Marks: DESIGN CHOICE, log entry 61.] -/
def execD2dRetrainDone (n : Nat) (ok : Bool) (s : State) : Host.Outcome State Fault Refusal := run s <|
  if ¬ s.d2d.retraining.contains n then .skip
  else .all [
    .eff (.d2d { s.d2d with retraining := s.d2d.retraining.filter (fun m => decide (m ≠ n)) }),
    if ok then .all [log { src := srcCrown, cause := 0x141, sev := 0, obj0 := n }, Prog.opt (linkDieObj n) (fun o => health o 3)]
    else .all [
      wr F.CROWN_D2D_STATUS.LOST [n] 1,
      if n < 8 then computeLost n 0x142
      else if n < 16 then brimLost (n - 8)
      else if n = 16 then startReset { src := srcCrown, cause := 0x144, sev := 3, obj0 := n } false
      else hostLost n]]

/-- ENG_RAIL_UNDERVOLT (R545): rail VDD_ENG_n is below 90% of nominal for 1 µs; compute die n is lost under cause 0x722. -/
def execEngRailUndervolt (n : Nat) (s : State) : Host.Outcome State Fault Refusal := run s <|
  if 8 ≤ n then .skip else computeLost n 0x722

/-! ### Clocks and references (R40) -/

/-- A clock condition outside the ready state is recorded, and starts no reset; ports that are still up go down where no fence is sent.
[Marks: DESIGN CHOICE, log entry 61.] -/
def clockReset (r : LogRec) (noFence : Bool) : Prog := rd fun s =>
  if s.canReset then startReset r noFence else .all [log { r with sev := 0 }, Prog.when noFence (Prog.each s.portsLive takeDown)]

/-- Every die of the other clock domains is held in reset (R40, R541): none is online, no block of theirs is reachable, their units are cleared, and the boot from step 5 is to come. -/
def holdReset : Prog := rd fun s => .all [
  wr F.CROWN_BOOT_STATUS.READY [] 0, wr F.CROWN_BOOT_STATUS.READY_BLOCKS [] 0, wr F.CROWN_DIE_STATUS.COMPUTE_ONLINE [] 0, wr F.CROWN_DIE_STATUS.BRIM_ONLINE [] 0,
  wr F.CROWN_DIE_STATUS.HBM_ONLINE [] 0,
  .eff (.boot { s.boot with pend := match s.boot.pend with | none => some { cause := 0, rid := 0 } | some x => some x }),
  Prog.each s.portsOn takeDown, .eff .dropUnits]

/-- Step 4 of a switch reset: the records on their way arrive, and what waits for export goes out (R505). -/
def exportAll : Prog := .all [
  rd fun s => .all [.eff (.wire []), Prog.each s.log.wire logDeliver],
  rd fun s => Prog.when (s.rb F.LOG_CTRL.EXPORT_EN []) (Prog.each (List.range (cdiv s.log.toExport.length 16)) (fun _ => exportRecords 16 true))]

/-- REFCLK_156_LOST (R40): every transmit PLL and CLK_BRIM PLL loses lock, and all ports go down without fence; a switch reset starts under cause 0x710. -/
def execRefclk156Lost (s : State) : Host.Outcome State Fault Refusal := run s <|
  if ¬ s.rb F.CROWN_CLK_STATUS.REF156_PRESENT [] then .skip
  else .all [
    wr F.CROWN_CLK_STATUS.REF156_PRESENT [] 0, wr F.CROWN_CLK_STATUS.BRIM_PLL_LOCK [] 0, setFault F.CROWN_FAULT_STATUS.CLOCK true,
    clockReset { src := srcCrown, cause := 0x710, sev := 3 } true]

/-- REFCLK_100_LOST (R40, R551): the Crown die runs on its fallback oscillator, time is in HOLDOVER, and every other domain is held in reset, after steps 1 to 5 of a switch reset under
cause 0x711. Before the dies have come up they are in reset already.
[Marks: DESIGN CHOICE, log entry 61.] -/
def execRefclk100Lost (s : State) : Host.Outcome State Fault Refusal := run s <|
  if ¬ s.rb F.CROWN_CLK_STATUS.REF100_PRESENT [] then .skip
  else .all [
    wr F.CROWN_CLK_STATUS.REF100_PRESENT [] 0, wr F.CROWN_CLK_STATUS.FALLBACK_OSC [] 1, wr F.CROWN_CLK_STATUS.CROWN_PLL_LOCK [] 0,
    wr F.CROWN_CLK_STATUS.ENG_PLL_LOCK [] 0, wr F.CROWN_CLK_STATUS.FELT_PLL_LOCK [] 0, holdover, setFault F.CROWN_FAULT_STATUS.CLOCK true,
    clockReset { src := srcCrown, cause := 0x711, sev := 3 } false,
    Prog.when s.canReset (.all [exportAll, sampleAll 3 (s.nextRid srcCrown) s.resetEngines]),
    Prog.when (s.canReset || s.boot.pend.isSome) holdReset]

/-- REFCLK_RESTORED (R40): a lost reference, REFCLK_156 or REFCLK_100, is detected again, and the PLLs that it feeds lock to it.
[Marks: DESIGN CHOICE, log entry 51.] -/
def execRefclkRestored (ref156 : Bool) (s : State) : Host.Outcome State Fault Refusal := run s <|
  if ref156 then Prog.when (!s.rb F.CROWN_CLK_STATUS.REF156_PRESENT []) (.all [
    wr F.CROWN_CLK_STATUS.REF156_PRESENT [] 1, wr F.CROWN_CLK_STATUS.BRIM_PLL_LOCK [] 0xff])
  else Prog.when (!s.rb F.CROWN_CLK_STATUS.REF100_PRESENT []) (.all [
    wr F.CROWN_CLK_STATUS.REF100_PRESENT [] 1, wr F.CROWN_CLK_STATUS.ENG_PLL_LOCK [] 0xff, wr F.CROWN_CLK_STATUS.FELT_PLL_LOCK [] 1])

/-- Whether the cause of CROWN_FAULT_STATUS.CLOCK persists: a reference is absent or a core PLL is not locked (R40, R540). -/
def State.clockBad (s : State) : Bool :=
  !s.rb F.CROWN_CLK_STATUS.REF156_PRESENT [] || !s.rb F.CROWN_CLK_STATUS.REF100_PRESENT [] || !s.rb F.CROWN_CLK_STATUS.FELT_PLL_LOCK [] ||
  decide (s.r F.CROWN_CLK_STATUS.ENG_PLL_LOCK [] ≠ 0xff) || decide (s.r F.CROWN_CLK_STATUS.BRIM_PLL_LOCK [] ≠ 0xff)

/-- ENG_PLL_LOCK_LOST (R40): the CLK_ENG PLL of compute die d loses lock; the die is lost under cause 0x712. -/
def execEngPllLockLost (d : Nat) (s : State) : Host.Outcome State Fault Refusal := run s <|
  if 8 ≤ d ∨ ¬ bit (s.r F.CROWN_CLK_STATUS.ENG_PLL_LOCK []) d then .skip
  else .all [wr F.CROWN_CLK_STATUS.ENG_PLL_LOCK [] (setBits (s.r F.CROWN_CLK_STATUS.ENG_PLL_LOCK []) d 1 0), setFault F.CROWN_FAULT_STATUS.CLOCK true, computeLost d 0x712]

/-- CORE_PLL_LOCK_LOST (R40): the CLK_FELT PLL, or the CLK_BRIM PLL of a die, loses lock; a switch reset starts under cause 0x713. -/
def execCorePllLockLost (die : Option Nat) (s : State) : Host.Outcome State Fault Refusal := run s <|
  match die with
  | none => if ¬ s.rb F.CROWN_CLK_STATUS.FELT_PLL_LOCK [] then .skip
      else .all [wr F.CROWN_CLK_STATUS.FELT_PLL_LOCK [] 0, setFault F.CROWN_FAULT_STATUS.CLOCK true, clockReset { src := srcCrown, cause := 0x713, sev := 3, obj0 := 8 } false]
  | some d => if 8 ≤ d ∨ ¬ bit (s.r F.CROWN_CLK_STATUS.BRIM_PLL_LOCK []) d then .skip
      else .all [wr F.CROWN_CLK_STATUS.BRIM_PLL_LOCK [] (setBits (s.r F.CROWN_CLK_STATUS.BRIM_PLL_LOCK []) d 1 0), setFault F.CROWN_FAULT_STATUS.CLOCK true,
        clockReset { src := srcCrown, cause := 0x713, sev := 3, obj0 := d } false]

/-! ### Thermal trip (R547) -/

/-- THERMAL_TRIP (R547): die d reaches its trip temperature; steps 1 to 3 of a switch reset run under cause 0x742 and THERMTRIP_N is driven low, which only a power cycle ends. -/
def execThermalTrip (d : Nat) (s : State) : Host.Outcome State Fault Refusal := run s <|
  if 25 ≤ d ∨ ¬ s.pins.thermtripN then .skip
  else .all [
    .eff (.pins { s.pins with thermtripN := false }), send (.pin 2 false), setFault F.CROWN_FAULT_STATUS.THERMAL true, msix 5,
    if s.canReset then startReset { src := srcHang, cause := 0x742, sev := 3, obj0 := d } false
    else log { src := srcHang, cause := 0x742, sev := 3, status := stReset, obj0 := d }]

end Sys2Proof.Machine
end

