-- ==== Sys2Proof/Machine/Boot.lean ====
section
/-! DEFINITION. Boot (R535 to R538), the end of a switch reset (R505), power-on and power loss (R541 to R545, R553), and the ends of the module's life on the tray: ActivateFirmware (R539) and
PREPARE_POWER_OFF (R542). -/
namespace Sys2Proof.Machine
open Sys2Proof

/-! ### Registers at a reset (R20) -/

/-- The field with a register key, and its indices. -/
def fieldOf (k : Nat) : Option (Fld × List Nat) :=
  (fieldsNear (k / 64)).findSome? (fun f => if f.lo = k % 64 then (f.at? (k / 64)).map (fun ix => (f, ix)) else none)

/-- The values of the always-on domain of the Crown die and of the host die, which a switch reset keeps (R33, R40, R483, R537, R540, R551, R555): host-die registers, clocks and references, fault
status, slot and straps, life cycle and debug, and time.
[Marks: DESIGN CHOICE, log entry 22.] -/
def keptAtReset (k : Nat) : Bool :=
  let o := k / 64
  (decide (0x800000 ≤ o) && decide (o < 0x900000)) || [0x28, 0x44, 0x5004, 0xb408, 0xb418].contains o ||
  [F.CROWN_BOOT_STATUS.SLOT.key [], F.CROWN_BOOT_STATUS.FALLBACK.key [], F.CROWN_BOOT_STATUS.SLOT_ID.key [], F.CROWN_MIRROR_STATUS.SOLO_MARK.key []].contains k

/-- The registers return to their reset values, but for those that are kept.
[Marks: DESIGN CHOICE, log entry 22.] -/
def resetRegs (kept : Nat → Bool) : Prog := rd fun s => .all [
  .eff .regReset, Prog.each (s.regs.eff.filter (fun e => kept e.1)) (fun e => Prog.opt (fieldOf e.1) (fun f => wr f.1 f.2 e.2))]

/-- The registers of commands that a switch reset ends: GO 0, DONE 1 and RESULT ABORTED once the block is reachable again (R20, R113, R221, R385, R467).
[Marks: DESIGN CHOICE, log entry 22.] -/
def State.abortedRegs (s : State) : List (Fld × List Nat × Nat) :=
  (((List.range 8).filter (fun m => s.rb F.TIER_MBOX.GO [m])).flatMap (fun m => [(F.TIER_MBOX.DONE, [m], 1), (F.TIER_MBOX.RESULT, [m], mbAborted)])) ++
  (((List.range 4).filter (fun m => s.rb F.CROWN_PROG.GO [m])).flatMap (fun m => [(F.CROWN_PROG.DONE, [m], 1), (F.CROWN_PROG.RESULT, [m], pgAborted)])) ++
  ((s.listedIx F.VIEW_PROG.GO).flatMap (fun ix => [(F.VIEW_PROG.DONE, ix, 1), (F.VIEW_PROG.RESULT, ix, pgAborted)])) ++
  (if s.rb F.CLEAT_UPD.GO [] then [(F.CLEAT_UPD.DONE, [], 1), (F.CLEAT_UPD.RESULT, [], 6)] else []) ++
  ((s.listedIx F.VIEW_CLEAT_UPD.GO).flatMap (fun ix => [(F.VIEW_CLEAT_UPD.DONE, ix, 1), (F.VIEW_CLEAT_UPD.RESULT, ix, 6)])) ++
  (((List.range 16).filter (fun p => s.rb F.CROWN_PART_CTRL.CREATE [p] || s.rb F.CROWN_PART_CTRL.FENCE [p] || s.rb F.CROWN_PART_CTRL.REMOVE [p])).flatMap
    (fun p => [(F.CROWN_PART_CTRL.DONE, [p], 1), (F.CROWN_PART_CTRL.RESULT, [p], pgAborted)]))

/-! ### Restore of the domain (R512) -/

/-- A domain with no source is lost (R515); a switch that has never held one comes up OFF with an empty domain (R514). It has held one where its tables were in HBM, its key state record
shows a partition that is not FREE, or the SOLO mark stands. -/
def noSource (held : Bool) : Prog := rd fun s =>
  if held ∨ s.boot.keys.any (fun e => decide (e.2.st ≠ ptFree)) ∨ s.r F.CROWN_MIRROR_STATUS.SOLO_MARK [] = 1 then domainLost
  else .all [.eff (.domain {}), .eff (.memZero 0 (2 ^ 52))]

/-- The domain is restored from the first source that applies: the own tables in HBM, the partner's copy where no SOLO mark stands, or none. -/
def restore (f : BootFacts) (own : Domain) (hbm : Bool) : Prog := rd fun s =>
  match f.src with
  | .own => if hbm then .all [restoreDomain own f.dirOk false, restoreParts true f.recOk f.epochs] else .all [noSource false, restoreParts false f.recOk f.epochs]
  | .partner d => if s.r F.CROWN_MIRROR_STATUS.SOLO_MARK [] = 0 then .all [
      restoreDomain d f.dirOk true, restoreParts true f.recOk f.epochs,
      wr F.CROWN_MIRROR_RESTORE_SEQ.SEQ [] d.seq, log { src := srcCrown, cause := 0x885, sev := 0 }]
    else .all [noSource hbm, restoreParts false f.recOk f.epochs]
  | .none => .all [noSource hbm, restoreParts false f.recOk f.epochs]

/-! ### From step 5 to the ready point (R536) -/

/-- The dies and clocks that boot brings up (R43, R220, R530): core PLLs lock, the dies and stacks that train are online, and their blocks become reachable. -/
def bringUpDies (f : BootFacts) : Prog := rd fun s =>
  let brims := if s.rb F.CROWN_CLK_STATUS.REF156_PRESENT [] then f.brims % 2 ^ 8 else 0
  .all [
    wr F.CROWN_CLK_STATUS.ENG_PLL_LOCK [] 0xff, wr F.CROWN_CLK_STATUS.FELT_PLL_LOCK [] 1, wr F.CROWN_CLK_STATUS.CROWN_PLL_LOCK [] 1, wr F.CROWN_CLK_STATUS.FALLBACK_OSC [] 0,
    wr F.CROWN_CLK_STATUS.BRIM_PLL_LOCK [] (if s.rb F.CROWN_CLK_STATUS.REF156_PRESENT [] then 0xff else 0),
    wr F.CROWN_DIE_STATUS.COMPUTE_ONLINE [] f.compute, wr F.CROWN_DIE_STATUS.BRIM_ONLINE [] brims, wr F.CROWN_DIE_STATUS.HBM_ONLINE [] f.hbms,
    wr F.CROWN_DIE_STATUS.HOST_LINK_UP [] 1,
    Prog.each (List.range 8) (fun d => wr F.SPL_ENG_AVAIL.AVAIL [d] (if bit f.compute d then 2 ^ 64 - 1 else 0)),
    wr F.CROWN_BOOT_STATUS.READY_BLOCKS [] (1 + 2 * brims + 2 ^ 9 * b2n (decide (0 < f.compute % 2 ^ 8)) + 2 ^ 10 * b2n (decide (0 < f.hbms % 2 ^ 6)))]

/-- Steps 5 to 8: dies and blocks come up, the domain is restored, and the ready point is reached: READY, FAULT_N released unless another fault bit holds it, record 0x732, and
bring-up of the ports.
[Marks: DESIGN CHOICE, log entry 51.] -/
def bootOn (f : BootFacts) (own : Domain) (hbm : Bool) (aborted : List (Fld × List Nat × Nat)) (link : Nat) : Prog := .all [
  bringUpDies f, restore f own hbm,
  Prog.each aborted (fun a => .all [wr a.1 a.2.1 a.2.2,
    Prog.when (decide (a.1 = F.TIER_MBOX.RESULT)) (log { src := srcFelt, cause := 0x350, sev := 0, obj0 := a.2.1.headD 0, obj1 := mbAborted, link := link })]),
  rd fun s => .eff (.boot { s.boot with pend := none, hbm := true }),
  wr F.CROWN_BOOT_STATUS.PHASE [] 8, wr F.CROWN_BOOT_STATUS.READY [] 1, setFault F.CROWN_FAULT_STATUS.RESETTING false,
  log { src := srcCrown, cause := 0x732, sev := 0, link := link },
  rd fun s => Prog.each s.portsOn startPort]

/-- Every die but the Crown die is held in reset while a power-cycle request stands, the host die with its ports among them (R541, `State.hostUp`).
[Marks: DESIGN CHOICE, log entry 51.] -/
def holdDies : Prog := rd fun s => Prog.when (!s.pins.pcycReqN) holdReset

/-! ### The end of a switch reset (R505) -/

/-- SWITCH_RESET (R505, R537): a switch reset that has begun exports its record, captures its samples, resets every die but the always-on part of the Crown die and the host die, and boots from
step 5. It waits while a power-cycle request or a thermal trip stands and while REFCLK_100 is lost. Images that differ from their measurements lead to a power-cycle request (R538). -/
def execSwitchReset (f : BootFacts) (s : State) : Host.Outcome State Fault Refusal := run s <|
  match s.boot.pend with
  | none => .skip
  | some x =>
    if s.rb F.CROWN_FAULT_STATUS.PCYCLE [] ∨ ¬ s.pins.thermtripN ∨ ¬ s.rb F.CROWN_CLK_STATUS.REF100_PRESENT [] then .skip
    else .all [
      exportAll, sampleAll 3 x.rid s.resetEngines,
      rd fun t =>
        let own := t.ownDomain
        let held := t.mir.held
        .all [
          resetRegs keptAtReset, .eff .dropUnits, wr F.CROWN_BOOT_STATUS.PHASE [] 5,
          .eff (.mir { held := held }), wr F.CROWN_MIRROR_STATUS.HELD [] (if held.isSome then 2 else 0),
          if f.brimDigest = SMap.get 0 s.boot.meas 3 ∧ f.storeDigest = SMap.get 0 s.boot.meas 4 then bootOn f own true t.abortedRegs x.rid
          else .all [log { src := srcCrown, cause := 0x623, sev := 3, status := stReset, link := x.rid }, powerCycle]]]

/-- BOOT_WATCHDOG_EXPIRY (R500): the ready point is not reached within the switch watchdog, or the heartbeat is missing during boot; a power cycle is requested under cause 0x733. -/
def execBootWatchdogExpiry (s : State) : Host.Outcome State Fault Refusal := run s <|
  if s.rb F.CROWN_BOOT_STATUS.READY [] ∨ s.rb F.CROWN_FAULT_STATUS.RECOVERY [] ∨ (s.boot.pend.isNone ∧ s.r F.CROWN_BOOT_STATUS.PHASE [] = 0) ∨ ¬ s.pins.pcycReqN then .skip
  else .all [log { src := srcHang, cause := 0x733, sev := if s.rb F.CROWN_WDT_CTRL.PWR_EN [] then 3 else 0, status := stReset }, powerCycle, holdDies]

/-! ### Power-on boot (R536, R538, R549) -/

/-- A slot boots: it reads, its signature verifies, and it is not below the fused security version (R538). -/
def State.slotOk (s : State) (x : SlotRead) : Bool := x.ok && decide (s.boot.svnCrown ≤ x.svn)

/-- The cause of a slot that does not boot. -/
def slotCause (x : SlotRead) : Nat := if x.ok then 0x622 else 0x623

/-- Steps 2 and 3: the first slot is read and checked, and then the other; the Crown ROM starts the Crown firmware, or stays in recovery.
[Marks: DESIGN CHOICE, log entry 51.] -/
def readSlots (a b : SlotRead) : Prog := rd fun s =>
  let first := s.boot.first.getD s.pins.bootSel
  let x := if first then b else a
  let y := if first then a else b
  let start (slot : Bool) (z : SlotRead) : Prog := rd fun t => .all [
    wr F.CROWN_BOOT_STATUS.SLOT [] (b2n slot), .eff (.boot { t.boot with meas := SMap.set 0 t.boot.meas 2 z.digest }), wr F.CROWN_BOOT_STATUS.PHASE [] 4]
  if s.slotOk x then start first x
  else .all [
    log { src := srcCrown, cause := slotCause x, sev := 0, obj0 := b2n first },
    if s.slotOk y then .all [wr F.CROWN_BOOT_STATUS.FALLBACK [] 1, log { src := srcCrown, cause := 0x624, sev := 0 }, start (!first) y]
    else .all [log { src := srcCrown, cause := 0x625, sev := 3 }, setFault F.CROWN_FAULT_STATUS.RECOVERY true, wr F.CROWN_BOOT_STATUS.PHASE [] 0]]

/-- POWER_ON_BOOT (R536, R538, R553): with PWRGD_AUX, PWRGD_MAIN and MOD_RESET_N high the straps are sampled, fuses are sensed, the counter starts at 0, and the slots are read; time alignment
follows (R549). TEST_MODE high stops the ROM at step 1.
[Marks: DESIGN CHOICE, log entry 5; DESIGN CHOICE, log entry 51.] -/
def execPowerOnBoot (bootSel testMode : Bool) (slotId : Nat) (ref100 ref156 : Bool) (a b : SlotRead) (s : State) : Host.Outcome State Fault Refusal := run s <|
  if s.rb F.CROWN_BOOT_STATUS.READY [] ∨ s.r F.CROWN_BOOT_STATUS.PHASE [] ≠ 0 ∨ s.rb F.CROWN_FAULT_STATUS.RECOVERY [] ∨ s.boot.pend.isSome then .skip
  else .all [
    .eff (.pins { s.pins with pwrgdAux := true, pwrgdMain := true, modResetN := true, bootSel := bootSel, testMode := testMode, slotId := slotId % 16 }),
    .eff (.time {}), wr F.CROWN_BOOT_STATUS.SLOT_ID [] slotId, wr F.CROWN_BOOT_STATUS.PHASE [] 1,
    wr F.CROWN_CLK_STATUS.REF156_PRESENT [] (b2n ref156), wr F.CROWN_CLK_STATUS.REF100_PRESENT [] (b2n ref100),
    wr F.CROWN_CLK_STATUS.CROWN_PLL_LOCK [] (b2n ref100), wr F.CROWN_CLK_STATUS.FALLBACK_OSC [] (b2n !ref100),
    wr F.CROWN_LC_STATUS.LC_STATE [] s.boot.lc, wr F.CROWN_LC_STATUS.SVN_CROWN [] s.boot.svnCrown, wr F.CROWN_LC_STATUS.SVN_BRIM [] s.boot.svnBrim,
    if testMode then log { src := srcCrown, cause := 0x626, sev := 0 } else readSlots a b]

/-- Boot goes on from step 5 at power-on: the Brim firmware and service store are measured, and every core PLL locks to REFCLK_100, which must be there (R40).
[Marks: DESIGN CHOICE, log entry 5; DESIGN CHOICE, log entry 15; DESIGN CHOICE, log entry 51.] -/
def bootAligned (f : BootFacts) : Prog := rd fun s =>
  if ¬ s.rb F.CROWN_CLK_STATUS.REF100_PRESENT [] then .skip
  else .all [
    .eff (.boot { s.boot with meas := SMap.set 0 (SMap.set 0 s.boot.meas 3 f.brimDigest) 4 f.storeDigest }),
    wr F.CROWN_BOOT_STATUS.PHASE [] 5, bootOn f s.ownDomain s.boot.hbm [] 0]

/-- PPS_FIRST_EDGE (R549): the first rising edge of PPS_IN during step 4 sets the counter to 0 and releases the other dies, whose shadows begin with it, and boot goes
on.
[Marks: DESIGN CHOICE, log entry 15; DESIGN CHOICE, log entry 51.] -/
def execPpsFirstEdge (f : BootFacts) (s : State) : Host.Outcome State Fault Refusal := run s <|
  if s.r F.CROWN_BOOT_STATUS.PHASE [] ≠ 4 ∨ s.time.aligned then .skip
  else .all [.eff (.time { s.time with now := 0, edge := some 0, aligned := true, shadows := List.replicate 18 {} }), bootAligned f]

/-- PPS_ALIGN_TIMEOUT (R549): no edge has come 1,100 ms after step 1; boot goes on and the counter keeps running. -/
def execPpsAlignTimeout (f : BootFacts) (s : State) : Host.Outcome State Fault Refusal := run s <|
  if s.r F.CROWN_BOOT_STATUS.PHASE [] ≠ 4 then .skip else bootAligned f

/-- RECOVERY_IMAGE_UPDATE (R538, R540): in recovery the ROM accepts an image over PLDM or the recovery window, leaves recovery and restarts at step 2. -/
def execRecoveryImageUpdate (a b : SlotRead) (s : State) : Host.Outcome State Fault Refusal := run s <|
  if ¬ s.rb F.CROWN_FAULT_STATUS.RECOVERY [] then .skip
  else .all [setFault F.CROWN_FAULT_STATUS.RECOVERY false, wr F.CROWN_BOOT_STATUS.FALLBACK [] 0, wr F.CROWN_BOOT_STATUS.PHASE [] 2, readSlots a b]

/-! ### Power-on reset and power loss (R544, R545, R553) -/

/-- What a power-on reset leaves (R20, R504): registers at their reset values but for the SOLO mark, which is in the boot flash, units, log and time empty, and boot to come.
[Marks: DESIGN CHOICE, log entry 51.] -/
def powerOnReset (hbm : Bool) : Prog := rd fun s => .all [
  resetRegs (fun k => decide (k = F.CROWN_MIRROR_STATUS.SOLO_MARK.key [])), .eff .dropUnits, .eff .logReset, .eff (.time {}),
  .eff (.mir { held := if hbm then s.mir.held else none }),
  .eff (.boot { s.boot with meas := [], pend := none, spdm := [], upd := 0, hbm := hbm && s.boot.hbm })]

/-- MOD_RESET (R553): MOD_RESET_N goes low, which starts a power-on reset with power kept.
[Marks: DESIGN CHOICE, log entry 51.] -/
def execModReset (s : State) : Host.Outcome State Fault Refusal := run s <| .all [
  .eff (.pins { s.pins with modResetN := false, pcycReqN := true, thermtripN := true, ppsOut := false }), powerOnReset true]

/-- POWER_LOSS (R541, R544, R545): a rail other than VDD_ENG_n falls, or PWRGD_MAIN or PWRGD_AUX goes low; every die is held in reset without a fence, and PCYC_REQ_N is released. `aux`: PWRGD_AUX is
low. -/
def execPowerLoss (aux : Bool) (s : State) : Host.Outcome State Fault Refusal := run s <| .all [
  .eff (.pins { s.pins with pwrgdMain := false, pwrgdAux := !aux, pcycReqN := true, thermtripN := true, ppsOut := false }), powerOnReset false]

/-- HOST_PERST (R527): HOST_PERST_N resets the host port link and its PCIe functions only: while it is low no host access takes effect, and nothing else of the switch changes.
[Marks: DESIGN CHOICE, log entry 22.] -/
def execHostPerst (low : Bool) (s : State) : Host.Outcome State Fault Refusal := run s <|
  .eff (.pins { s.pins with hostPerstN := !low })

/-! ### Requested power cycles (R539, R541, R542) -/

/-- Crown firmware serves attestation only in life-cycle state DECOMMISSIONED (R482).
[Marks: PRESUMED, log entry 30.] -/
def State.serves (s : State) : Bool := decide (s.r F.CROWN_LC_STATUS.LC_STATE [] ≠ 3)

/-- ACTIVATE_FIRMWARE (R539, R541): ActivateFirmware of a completed update marks the inactive slot first and requests a power cycle. -/
def execActivateFirmware (s : State) : Host.Outcome State Fault Refusal := run s <|
  if ¬ s.serves then .skip
  else if s.boot.upd ≠ 6 then send (.pldm 0x51A [0x84])
  else .all [
    .eff (.boot { s.boot with first := some (decide (s.r F.CROWN_BOOT_STATUS.SLOT [] = 0)), upd := 0 }), send (.pldm 0x51A [0]), powerCycle, holdDies]

/-- PREPARE_POWER_OFF (R542): steps 1 to 5 of a switch reset run, the SOLO mark is written when the pair is not PAIRED, and a power cycle is requested.
[Marks: DESIGN CHOICE, log entry 16.] -/
def execPreparePowerOff (s : State) : Host.Outcome State Fault Refusal := run s <|
  if ¬ s.serves ∨ ¬ s.canReset then .skip
  else .all [
    startReset { src := srcCrown, cause := 0x735, sev := 3 } false, exportAll, sampleAll 3 (s.nextRid srcCrown) s.resetEngines,
    Prog.when (decide (s.mirror ≠ mirPaired)) (wr F.CROWN_MIRROR_STATUS.SOLO_MARK [] 1), powerCycle, holdDies]

end Sys2Proof.Machine
end

