-- ==== Sys2Proof/Machine/Registers.lean ====
section
/-! DEFINITION. Register accesses from outside (R14 to R20, R39, R527, R528, R530): how an offset is decoded, what a read shows, and what a write to a field that has no command of its own does. -/
namespace Sys2Proof.Machine
open Sys2Proof

/-! ### Paths and offsets (R14, R528) -/

/-- The offset in the register space that an access path reaches: path 0 is PF0 BAR0, 1 + i management session i, 8 + p the view of partition p. The knots of a slice are reached at their own
words, and a view of a FREE partition reaches nothing. -/
def State.place (s : State) (path off : Nat) : Option Nat :=
  if path < 5 then (if off < 0x10000000 then some off else none)
  else
    let p := path - 8
    if path < 8 ∨ 24 ≤ path ∨ 0x100000 ≤ off ∨ s.partSt p = ptFree then none
    else if off < 0x80000 then some (0x10000000 + p * 0x100000 + off)
    else if (off - 0x80000) / 0x20 < s.r F.KNOT_SLICE.COUNT [p] then some (0x1400000 + s.r F.KNOT_SLICE.BASE [p] * 0x20 + (off - 0x80000))
    else none

/-- The fields of the register at a byte offset, with its indices. -/
def fieldsAt (o : Nat) : List (Fld × List Nat) := (fieldsNear o).filterMap (fun f => (f.at? o).map (fun ix => (f, ix)))

/-- The register at a byte offset is 64 bits wide. -/
def wideAt (o : Nat) : Bool := (fieldsAt o).any (fun e => e.1.w64)

/-- The number under which an access path keeps a register's latch or hold: the host port is one path for PF0 and the partition views (R14). -/
def pathKey (path o : Nat) : Nat := (if 8 ≤ path then 0 else path) * 2 ^ 32 + o

/-! ### What a read shows (R15) -/

/-- A context state as SPL_CTX_INFO gives it. -/
def CtxState.code : CtxState → Nat
  | .free => 0 | .parked => 1 | .ready => 2 | .stopped => 3 | .done => 4 | .faulted => 5 | .fenced => 6

/-- A knot state as W4 gives it. -/
def KnotState.code : KnotState → Nat
  | .off => 0 | .active => 1 | .broken => 2 | .lost => 3

/-- The fields of the compute dies that follow from the contexts (R207, R220). -/
def State.shownSpl (s : State) (f : Fld) (ix : List Nat) : Option Nat :=
  let e := 64 * ix.headD 0 + ix.getD 1 0
  let x := s.ctx (8 * e + ix.getD 2 0)
  if f = F.SPL_DIE_STATUS.DUTY then some (s.r F.PWR_STATUS.DUTY [])
  else if f = F.SPL_CAP.VALUE then some (capability 0 {} (ix.getD 1 0))
  else if f = F.SPL_ENG_STATUS.TILES_USED then some (((s.placedOn e).map (fun c => (s.ctx c).atiles)).sum)
  else if f = F.SPL_ENG_STATUS.CTX_BUSY then some ((((engCtxs e).filter (fun c => decide ((s.ctx c).st ≠ .free))).map (fun c => 2 ^ (c % 8))).sum)
  else if f = F.SPL_ENG_STATUS.SCRATCH_FREE then some (32 - ((s.placedOn e).map (fun c => (s.ctx c).scrSize)).sum)
  else if f = F.SPL_CTX_INFO.STATE then some x.st.code
  else if f = F.SPL_CTX_INFO.MODE then some (b2n x.mode)
  else if f = F.SPL_CTX_INFO.AUTO_REARM then some (b2n x.autoRearm)
  else if f = F.SPL_CTX_INFO.SVC then some (b2n x.svc)
  else if f = F.SPL_CTX_INFO.PARTITION then some x.part
  else if f = F.SPL_CTX_INFO.ATILES then some x.atiles
  else if f = F.SPL_CTX_INFO.PROG_ID then some (if x.prog < 4096 then x.prog else Config.kernelProgId x.prog)
  else if f = F.SPL_CTX_INFO.LAST_STATUS then some x.last
  else if f = F.SPL_CTX_PC.PC then some x.pc
  else if f = F.SPL_CTX_WIN.SCR_BASE then some x.scrBase
  else if f = F.SPL_CTX_WIN.SCR_SIZE then some x.scrSize
  else if f = F.SPL_CTX_WIN.CLU_BASE then some x.cluBase
  else if f = F.SPL_CTX_WIN.CLU_SIZE then some x.cluSize
  else none

/-- Codec units of a die with a block in progress (R399): one for each request that works, up to 8.
[Marks: DESIGN CHOICE, log entry 22.] -/
def State.codecUnits (s : State) (d : Nat) : Nat :=
  min 8 (s.eng.ops.countP (fun e => match e.2 with | some p => decide (p.kind = .codec ∧ p.mask = d ∧ p.dead = false ∧ p.reply.isNone) | none => false))

/-- The fields of the Felt that follow from its units (R103, R161, R307, R341, R366, R385, R420, R421, R435). -/
def State.shownFelt (s : State) (f : Fld) (ix : List Nat) : Option Nat :=
  let n := ix.headD 0
  let t := s.flash n
  let k := s.knot n
  if f = F.TIER_STATUS.HOT_FREE then some s.hotFree
  else if f = F.TIER_STATUS.REBUILD_ACTIVE then some (b2n (s.pool.sets.any (fun e => match e.2 with | some y => y.rebuild.isSome | none => false)))
  else if f = F.TIER_STATUS.RECOVERING then some (b2n (s.pool.exts.any (fun e => decide (e.2.st = .recovering))))
  else if f = F.TIER_FLASH_STATUS.RECOVERING then some (b2n (s.pool.flash.any (fun e => e.2.recovering)))
  else if f = F.TIER_FLASH_STATUS.CKPT_ACTIVE then some (b2n (s.pool.flash.any (fun e => e.2.ckpt.isSome)))
  else if f = F.TIER_FLASH_TRAY.FREE_ZONES then some t.free
  else if f = F.TIER_FLASH_TRAY.RETIRED_ZONES then some t.retired
  else if f = F.TIER_FLASH_TRAY.LOW_SPACE then some (b2n t.low)
  else if f = F.TIER_FLASH_TRAY.EVACUATING then some (b2n (match t.gc with | some c => c.evac | none => false))
  else if f = F.TIER_FLASH_TRAY.JOURNAL_UNMIRRORED then some (b2n t.unmirrored)
  else if f = F.FELT_COLL_FREE.CELLS_FREE then some (s.r F.FELT_COLL_RESERVE.CELLS [] - (s.collUsed (fun _ => true)).1)
  else if f = F.FELT_COLL_EXACT_FREE.GRAN_FREE then some (49152 - (s.collUsed (fun _ => true)).2)
  else if f = F.FELT_COLL_STATUS.STATE then some (s.coll n).st
  else if f = F.FELT_COLL_STATUS.CUR_GEN then some (s.coll n).gen
  else if f = F.KNOT.STATE then some k.st.code
  else if f = F.KNOT.READY then some (b2n (s.knotReady n))
  else if f = F.KNOT.FAIL_STATUS then some k.fail
  else if f = F.KNOT.ARRIVED then some k.arrived
  else if f = F.KNOT.GEN then some k.gen
  else if f = F.KNOT.VALUE then some k.value
  else if f = F.CLEAT_STATUS.USED then some s.cleat.ents.length
  else if f = F.CLEAT_STATUS.SHIFTING then some (b2n (!s.cleat.upds.isEmpty))
  else if f = F.CODEC_STATUS.UNIT_BUSY then some (2 ^ s.codecUnits n - 1)
  else if f = F.TM_BUF_SIZE.CELLS then some s.tmB
  else if f = F.TM_BUF_FREE.CELLS then some s.tmF
  else if f = F.TM_PART_USED.SHARED_USED then some (s.tmP n)
  else if f = F.TM_Q_STAT.DEPTH then some ((s.tmq n).g + (s.tmq n).s)
  else if f = F.TM_Q_STAT.ACTIVE then some (b2n (!(s.tmq n).frames.isEmpty))
  else if f = F.TM_Q_STAT.FLUSHING then some (b2n (s.tmq n).flush)
  else if f = F.TM_Q_STAT.SHARED_USED then some (s.tmq n).s
  else none

/-- The fields of the Crown die and of the partition views that follow from other state (R307, R489, R497, R524, R555). -/
def State.shownCrown (s : State) (f : Fld) (ix : List Nat) : Option Nat :=
  let p := ix.headD 0
  let n := ix.getD 1 0
  let id := s.r F.LOG_SAMPLE_SEL.ID []
  let own := decide (s.r F.FELT_COLL.PARTITION [n] = p)
  if f = F.LOG_SEQ_NEXT.SEQ then some s.log.seq
  else if f = F.LOG_SAMPLE_SEL.PRESENT then some (b2n ((s.log.store ++ s.log.ovf).any (fun m => decide (m.id = id))))
  else if f = F.LOG_SAMPLE_STATUS.STORE_USED then some s.log.store.length
  else if f = F.LOG_SAMPLE_STATUS.OVF_USED then some s.log.ovf.length
  else if f = F.TIME_NOW.NS then some s.time.now
  else if f = F.TIME_PPS_EDGE.C then some (s.time.edge.getD 0)
  else if f = F.PART_SELF.STATE then some (s.partSt p)
  else if f = F.PART_SELF.KEY_EPOCH then some (s.r F.CROWN_KEY_EPOCH.EPOCH [p])
  else if f = F.PART_LOG_NEXT.K then some (SMap.get 0 s.log.partNext p)
  else if f = F.VIEW_COLL_STATUS.STATE then some (if own then (s.coll n).st else 0)
  else if f = F.VIEW_COLL_STATUS.CUR_GEN then some (if own then (s.coll n).gen else 0)
  else none

/-- What a read of a field returns: 0 for a WO field, the value in effect of every other (R15).
[Marks: DESIGN CHOICE, log entry 22.] -/
def State.shown (s : State) (f : Fld) (ix : List Nat) : Nat :=
  if f.ty = .wo then 0
  else match (if f.base < 0x1000000 ∨ 0x10000000 ≤ f.base then s.shownCrown f ix else if f.base < 0x4000000 then s.shownFelt f ix else s.shownSpl f ix) with
    | some v => v % 2 ^ f.w
    | none => s.r f ix

/-- The 64 bytes of a record (R490). -/
def LogRec.bytes (r : LogRec) : List Byte :=
  let ctx := r.ctx.getD 0 % 4096 + b2n r.ctx.isSome * 2 ^ 12 + b2n r.part.isSome * 2 ^ 13 + b2n r.sample.isSome * 2 ^ 14
  let body := leBytes 8 r.seq ++ leBytes 8 r.rid ++ leBytes 8 r.time ++ leBytes 8 r.link ++ leBytes 8 r.obj0 ++ leBytes 6 r.pc ++ leBytes 2 ctx ++
    leBytes 2 (r.cause % 4096 + r.sev % 4 * 4096) ++ leBytes 1 (r.status % 64) ++ leBytes 1 (r.part.getD 0 % 16) ++ leBytes 4 r.obj1 ++
    leBytes 2 (r.sample.getD 0) ++ leBytes 2 r.supp
  let crc : ChkSlot := { width := 32, poly := 0x1EDC6F41, init := 0xFFFFFFFF, xorout := 0xFFFFFFFF, refin := true, refout := true }
  body ++ leBytes 4 (crc.final (crc.feed crc.init body))

/-- The record shown at an offset of the Logline window (R495): of the Crown ring on page 0, of the HBM ring on page k. -/
def State.shownRecord (s : State) (o : Nat) : Option LogRec :=
  let page := s.r F.LOG_WIN_SEL.PAGE []
  let i := (o - 0x100000) / 64
  if page = 0 then s.log.crown.find? (fun r => decide (r.seq % 16384 = i))
  else s.log.hbm.find? (fun r => decide (r.seq % 1048576 = (page - 1) * 16384 + i))

/-- The 512 bytes of a context in a sample taken at a time (R502), the count of its monitor in µs among them, which runs in READY only (R499). -/
def Ctx.image (x : Ctx) (time : Nat) : List Byte :=
  let handle (h : Nat) : Nat := (x.handle h).knot % 65536 + b2n (x.handle h).bound * 65536
  let info := x.st.code + b2n x.mode * 8 + b2n x.autoRearm * 16 + b2n x.svc * 32 + x.part % 16 * 2 ^ 8 + x.atiles % 16 * 2 ^ 12 +
    (if x.prog < 4096 then x.prog else Config.kernelProgId x.prog % 4096) * 2 ^ 16 + x.last % 64 * 2 ^ 32
  (List.range 32).flatMap (fun r => leBytes 8 (x.sr r)) ++ (List.range 8).flatMap (fun p => leBytes 8 (x.pr p)) ++
  (List.range 8).flatMap (fun h => leBytes 4 (handle h)) ++ leBytes 8 x.pc ++ leBytes 8 x.stat ++ leBytes 8 info ++
  leBytes 8 (if x.st = .ready then (time - x.monAt) / 1000 else 0) ++ List.replicate 96 0

/-- A byte of a sample's 64 KiB (R502). -/
def Sample.at (m : Sample) (o : Nat) : Byte :=
  if o < 0x100 then
    ((leBytes 8 m.rid ++ leBytes 8 m.time ++ leBytes 2 m.ctx ++ leBytes 1 m.level ++ leBytes 1 m.part ++ leBytes 4 m.eng ++
      m.states.map (fun x => BitVec.ofNat 8 x.code))[o]?).getD 0
  else if o < 0x1100 then (match m.ctxs[(o - 0x100) / 512]? with
    | some x => if x = {} then 0 else ((x.image m.time)[(o - 0x100) % 512]?).getD 0
    | none => 0)
  else if o < 0x5100 then
    let l := (o - 0x1100) / 4
    (match m.ctxs[m.ctx % 8]? with | some x => BitVec.ofNat 8 (bits (SMap.get (0 : Lane) x.v l).toNat (8 * ((o - 0x1100) % 4)) 8) | none => 0)
  else SMap.get 0 m.scratch (o - 0x5100)

/-- The register at a byte offset as a read shows it, or the bytes of a window. -/
def State.word (s : State) (o : Nat) : Nat :=
  if 0x100000 ≤ o ∧ o < 0x200000 then (match s.shownRecord o with | some r => leAt r.bytes (o % 64) 4 | none => 0)
  else if 0x200000 ≤ o ∧ o < 0x210000 then
    (match (s.log.store ++ s.log.ovf).find? (fun m => decide (m.id = s.r F.LOG_SAMPLE_SEL.ID [])) with
      | some m => ofLe ((List.range 4).map (fun i => m.at (o - 0x200000 + i)))
      | none => 0)
  else ((fieldsAt o).map (fun e => s.shown e.1 e.2 * 2 ^ e.1.lo)).sum

/-- A 32-bit read in an access path: a lower half latches the upper half of its register (R14). -/
def read32 (path o : Nat) (k : Nat → Prog) : Prog := rd fun s =>
  if wideAt o then .all [.eff (.latch (pathKey path o) (some (s.word o / 2 ^ 32))), k (s.word o % 2 ^ 32)]
  else if o % 8 = 4 ∧ wideAt (o - 4) then .all [.eff (.latch (pathKey path (o - 4)) none), k ((SMap.find s.regs.latch (pathKey path (o - 4))).getD (s.word (o - 4) / 2 ^ 32))]
  else k (s.word o)

/-- An access that is narrow, misaligned or of a block not yet reachable (R14, R530). -/
def State.badAccess (s : State) (off size o : Nat) : Bool := (decide (size ≠ 4) && decide (size ≠ 8)) || decide (off % size ≠ 0) || !s.reach o

/-- A read in an access path: a bad one returns 0 and is counted (R14, R15, R530). -/
def regRead (path off size : Nat) (k : Nat → Prog) : Prog := rd fun s =>
  match s.place path off with
  | none => if (size ≠ 4 ∧ size ≠ 8) ∨ off % size ≠ 0 then .all [count F.HOST_BAD_ACCESS_COUNT.COUNT [], k 0] else k 0
  | some o =>
    if s.badAccess off size o then .all [count F.HOST_BAD_ACCESS_COUNT.COUNT [], k 0]
    else if size = 4 then read32 path o k
    else if wideAt o then .all [.eff (.latch (pathKey path o) none), .eff (.hold (pathKey path o) none), k (s.word o)]
    else read32 path o (fun lo => read32 path (o + 4) (fun hi => k (lo + hi * 2 ^ 32)))

/-! ### Writes (R15, R16, R18, R19) -/

/-- The cause, in the class of the owning block, under which the write of a reserved encoding is recorded, and the source that records it (R19).
[Marks: DESIGN CHOICE, log entry 13.] -/
def reservedCause (o : Nat) : Nat × Nat :=
  if o < 0x1000000 then
    (if o < 0x3000 ∨ (0x8000 ≤ o ∧ ¬ (0xa200 ≤ o ∧ o < 0xa300)) then 0x734 else if 0xa200 ≤ o then 0x900 else if o < 0x4000 then 0x561 else 0x601,
      if 0x800000 ≤ o then srcHost else srcCrown)
  else if o < 0x2000000 then
    (if o < 0x1002000 then 0x822 else if o < 0x1004000 then 0x421 else if o < 0x1007000 then 0x350
     else if o < 0x1008000 ∨ (0x1010000 ≤ o ∧ o < 0x1040000) then 0x262 else if o < 0x1009000 ∨ 0x1400000 ≤ o then 0x514
     else if o < 0x100a000 then 0x383 else if 0x100b000 ≤ o ∧ o < 0x1010000 then 0x130 else 0x205, srcFelt)
  else if o < 0x4000000 then (if o % 0x100000 < 0x10000 then 0x813 else if o % 0x100000 < 0x40000 then 0x205 else 0x101, srcBrim ((o - 0x2000000) / 0x100000))
  else if o < 0x10000000 then (0x550, srcEng ((o - 0x4000000) / 0x400000))
  else (0x383, srcFelt)

/-- A write of a reserved encoding leaves the field as it is and is recorded.
[Marks: DESIGN CHOICE, log entry 13.] -/
def reservedWrite (f : Fld) (ix : List Nat) (v : Nat) : Prog :=
  log { src := (reservedCause (f.off ix)).2, cause := (reservedCause (f.off ix)).1, sev := 0, obj0 := f.off ix, obj1 := v % 2 ^ 32 }

/-- A value is one of a field's encodings; THROTTLE_C also takes a value at or below WARN_C, which acts as WARN_C + 1 (R19, R555). -/
def State.encodes (s : State) (f : Fld) (v : Nat) : Bool :=
  if f = F.PWR_THERM.THROTTLE_C then decide ((70 ≤ v ∧ v ≤ 112) ∨ v ≤ s.r F.PWR_THERM.WARN_C []) else f.ok v

/-- The watchdog times with one replaced keep CTX < ENG < PART < SW (R525). -/
def State.wdtOk (s : State) (f : Fld) (v : Nat) : Bool :=
  let t (g : Fld) : Nat := if g = f then v else s.r g []
  decide (t F.CROWN_WDT_CTX.US < t F.CROWN_WDT_ENG.US) && decide (t F.CROWN_WDT_ENG.US < t F.CROWN_WDT_PART.US) && decide (t F.CROWN_WDT_PART.US < t F.CROWN_WDT_SW.US)

/-- GO of the update set that a field belongs to is 1 (R376). -/
def State.updBusy (s : State) (f : Fld) (ix : List Nat) : Bool := if f.base < 0x10000000 then s.rb F.CLEAT_UPD.GO [] else s.rb F.VIEW_CLEAT_UPD.GO ix

/-- The staged words of an update set. -/
def updWords : List Fld := [F.CLEAT_UPD.LO, F.CLEAT_UPD.HI, F.CLEAT_UPD.RES, F.VIEW_CLEAT_UPD.LO, F.VIEW_CLEAT_UPD.HI, F.VIEW_CLEAT_UPD.RES]

/-- TAG and OP of an update set. -/
def updCtrl : List Fld := [F.CLEAT_UPD.TAG, F.CLEAT_UPD.OP, F.VIEW_CLEAT_UPD.TAG, F.VIEW_CLEAT_UPD.OP]

/-- A map cache of v MiB fits in the HBM reserve beside the tables: the extent table of 64 MiB and the page map of 2,048 MiB (R101, R161).
[Marks: DESIGN CHOICE, log entry 60.] -/
def State.cacheFits (s : State) (v : Nat) : Bool := decide (v + 2112 ≤ 1024 * s.r F.TIER_HBM_CFG.RESERVED_GIB [])

/-- A write to an RW field. Mailbox and update words are left while their GO is 1 (R113, R376); watchdog times keep their order (R525); the HBM reserve and the map cache stay while
TIER_EN is 1, as does a map cache that does not fit (R137, R161); PPS_EN = 0 frees the trim (R551); and MIRROR_EN = 0 takes the pair to OFF (R509).
[Marks: DESIGN CHOICE, log entry 60.] -/
def writeRw (f : Fld) (ix : List Nat) (v : Nat) : Prog := rd fun s =>
  if f = F.TIER_MBOX.CMD ∧ s.rb F.TIER_MBOX.GO (ix.take 1) then count F.TIER_MBOX_IGNORED_COUNT.COUNT []
  else if updWords.contains f && s.updBusy f ix then count F.CLEAT_UPD_IGNORED_COUNT.COUNT []
  else if updCtrl.contains f && s.updBusy f ix then .skip
  else if (f = F.TIER_HBM_CFG.RESERVED_GIB ∨ f = F.TIER_FLASH_CACHE.CACHE_MIB) ∧ s.rb F.TIER_CTRL.TIER_EN [] ∨ (f = F.TIER_FLASH_CACHE.CACHE_MIB ∧ f.ok v ∧ ¬ s.cacheFits v) then
    log { src := srcFelt, cause := 0x350, sev := 0, obj0 := f.off ix, obj1 := v }
  else if [F.CROWN_WDT_CTX.US, F.CROWN_WDT_ENG.US, F.CROWN_WDT_PART.US, F.CROWN_WDT_SW.US].contains f && !s.wdtOk f v then reservedWrite f ix v
  else if ¬ s.encodes f v then reservedWrite f ix v
  else .all [wr f ix v,
    Prog.when (decide (f = F.TIME_CTRL.PPS_EN ∧ v = 0)) timeFree,
    Prog.when (decide (f = F.CROWN_MIRROR_CTRL.MIRROR_EN ∧ v = 0 ∧ s.mirror ≠ mirLost)) (.all [
      wr F.CROWN_MIRROR_STATUS.STATE [] mirOff, wr F.CROWN_MIRROR_STATUS.OWN_COPY [] 0, .eff (.mir { s.mir with out := [] }),
      wr F.CROWN_MIRROR_STATUS.HELD [] (if s.mir.held.isNone then 0 else 2)])]

/-- A write to an RWS field stages a value (R16); the fields of FELT_COLL_n are staged whatever their value (R341). A view that writes another value to STAGE, HOME_INDEX or MEMBER_MASK
of a knot marks the knot, whose commit is then refused (R361, R366).
[Marks: DEDUCED, log entry 21.] -/
def writeRws (path : Nat) (f : Fld) (ix : List Nat) (v : Nat) : Prog := rd fun s =>
  let n := ix.headD 0
  if 8 ≤ path ∧ [F.KNOT.STAGE, F.KNOT.HOME_INDEX, F.KNOT.MEMBER_MASK].contains f then
    (if v = s.r f ix then .skip else .all [.eff (.stage f ix v), .eff (.knot n { s.knot n with viewStage := true })])
  else if f.ok v ∨ (0x1010000 ≤ f.base ∧ f.base < 0x1030000) then .eff (.stage f ix v)
  else reservedWrite f ix v

/-- A write to a W1C field clears the bits written 1; a fault bit stays while its cause persists (R15, R540). -/
def writeW1c (f : Fld) (ix : List Nat) (v : Nat) : Prog := rd fun s =>
  if f = F.CROWN_FAULT_STATUS.HOST_LINK then Prog.when (decide (v = 1) && s.rb F.CROWN_DIE_STATUS.HOST_LINK_UP []) (setFault f false)
  else if f = F.CROWN_FAULT_STATUS.CLOCK then Prog.when (decide (v = 1) && !s.clockBad) (setFault f false)
  else if f = F.CROWN_FAULT_STATUS.THERMAL then Prog.when (decide (v = 1) && s.pins.thermtripN) (setFault f false)
  else wr f ix (s.r f ix - (s.r f ix &&& v))

/-- A write to a field by its type (R15). The action of a W1S or WO bit is a command of its own.
[Marks: DESIGN CHOICE, log entry 10.] -/
def fieldWrite (path : Nat) (f : Fld) (ix : List Nat) (v : Nat) : Prog :=
  match f.ty with
  | .ro | .w1s | .wo => .skip
  | .rw => writeRw f ix v
  | .rws => writeRws path f ix v
  | .w1c => writeW1c f ix v

/-- Every field of the register at a byte offset is written, from the bit `lo` on (R18). A write of an update set's CTRL while GO is 1 that would change TAG or OP is counted once (R376). -/
def wordWrite (path o v : Nat) (lo : Nat := 0) : Prog := rd fun s =>
  let fs := (fieldsAt o).filter (fun e => decide (lo < e.1.lo + e.1.w))
  .all [
    Prog.when (fs.any (fun e => updCtrl.contains e.1 && s.updBusy e.1 e.2 && decide (s.r e.1 e.2 ≠ bits v e.1.lo e.1.w))) (count F.CLEAT_UPD_IGNORED_COUNT.COUNT []),
    Prog.each fs (fun e => fieldWrite path e.1 e.2 (bits v e.1.lo e.1.w))]

/-- The lower half of a 64-bit register as it stands for a write of its upper half: staged values for RWS fields (R14).
[Marks: DESIGN CHOICE, log entry 22.] -/
def State.lowHalf (s : State) (o : Nat) : Nat :=
  ((fieldsAt o).map (fun e => (if e.1.ty = .rws then s.stg e.1 e.2 else s.r e.1 e.2) * 2 ^ e.1.lo)).sum % 2 ^ 32

/-- A 32-bit write in an access path: the lower half of a 64-bit register is held, and the upper half applies both (R14).
[Marks: DESIGN CHOICE, log entry 22.] -/
def write32 (path o v : Nat) : Prog := rd fun s =>
  if wideAt o then .eff (.hold (pathKey path o) (some v))
  else if o % 8 = 4 ∧ wideAt (o - 4) then
    .all [.eff (.hold (pathKey path (o - 4)) none),
      match SMap.find s.regs.hold (pathKey path (o - 4)) with
      | some l => wordWrite path (o - 4) (l + v * 2 ^ 32)
      | none => wordWrite path (o - 4) (s.lowHalf (o - 4) + v * 2 ^ 32) 32]
  else wordWrite path o v

/-- A write in an access path (R14, R15, R530).
[Marks: DESIGN CHOICE, log entry 10.] -/
def regWrite (path off size v : Nat) : Prog := rd fun s =>
  match s.place path off with
  | none => Prog.when (decide ((size ≠ 4 ∧ size ≠ 8) ∨ off % size ≠ 0)) (count F.HOST_BAD_ACCESS_COUNT.COUNT [])
  | some o =>
    if s.badAccess off size o then count F.HOST_BAD_ACCESS_COUNT.COUNT []
    else if size = 4 then write32 path o (v % 2 ^ 32)
    else if wideAt o then .all [.eff (.latch (pathKey path o) none), .eff (.hold (pathKey path o) none), wordWrite path o (v % 2 ^ 64)]
    else .all [write32 path o (v % 2 ^ 32), write32 path (o + 4) (v / 2 ^ 32 % 2 ^ 32)]

/-- REGISTER_WRITE (R14, R15): a write by PF0, a management session or a partition view takes effect by field types, and a read of the same path is answered. An access of the host port has no
effect while that port is down (R33, R527).
[Marks: DESIGN CHOICE, log entry 10.] -/
def execRegisterWrite (path : Nat) (op : BarOp) (s : State) : Host.Outcome State Fault Refusal := run s <|
  if (path = 0 ∨ 8 ≤ path) ∧ ¬ s.hostUp then .skip
  else match op with
    | .write off size v => regWrite path off size v
    | .read off size => regRead path off size (fun v => send (if 1 ≤ path ∧ path < 8 then .mgmt (path - 1) [v] else .host path v))

end Sys2Proof.Machine
end

