-- ==== Sys2Proof/Machine/Commit.lean ====
section
/-! DEFINITION. COMMIT registers: what a commit takes, what each block's chapter refuses of it, and what the accepted values bring about at the point of effect (R531 to R533); and the
clear registers of counters (R534). -/
namespace Sys2Proof.Machine
open Sys2Proof

/-! ### What a commit takes (R531, R532) -/

/-- A staged value: field, indices and value. -/
abbrev Staged := Fld × List Nat × Nat

/-- Whether the register at an offset holds RWS fields of a block (R531). -/
def State.inBlock (s : State) (b : Block) (o : Nat) : Bool :=
  let within (lo hi : Nat) : Bool := decide (lo ≤ o) && decide (o < hi)
  match b with
  | .crown => within 0 0x800000
  | .felt => within 0x1000000 0x1002000
  | .hitch => within 0x1002000 0x1003000
  | .full => within 0x1003000 0x1004000
  | .tier => within 0x1004000 0x1007000
  | .coll => within 0x1007000 0x1008000 || within 0x1010000 0x1040000
  | .knot => within 0x1008000 0x1009000 || within 0x1400000 0x1600000
  | .cleat => within 0x1009000 0x100a000
  | .tm => within 0x100a000 0x1010000 || within 0x1040000 0x1400000
  | .brim d => within (0x2000000 + d * 0x100000) (0x2100000 + d * 0x100000)
  | .view p => within 0x1400000 0x1600000 && decide (s.knotPart ((o - 0x1400000) / 0x20) = some p)
  | .host | .spl _ => false

/-- The field and indices of a register file key. -/
def fieldOfKey (k : Nat) : Option (Fld × List Nat) := (fieldsAt (k / 64)).find? (fun e => decide (e.1.lo = k % 64))

/-- The staged values of a block, in order of offset. -/
def State.taken (s : State) (b : Block) : List Staged :=
  s.regs.stg.filterMap (fun e => if s.inBlock b (e.1 / 64) then (fieldOfKey e.1).map (fun f => (f.1, f.2, e.2)) else none)

/-- The state in which staged values are in effect. -/
def State.withFields (s : State) (es : List Staged) : State := es.foldl (fun t e => (Eff.reg e.1 e.2.1 e.2.2).apply t) s

/-- Staged values are put into effect. -/
def wrAll (es : List Staged) : Prog := Prog.each es (fun e => wr e.1 e.2.1 e.2.2)

/-- The list without repeats. -/
def uniq (l : List Nat) : List Nat := l.foldr (fun a r => if r.contains a then r else a :: r) []

/-- The first index of the staged values of certain fields. -/
def touched (fs : List Fld) (es : List Staged) : List Nat := uniq ((es.filter (fun e => fs.contains e.1)).map (fun e => e.2.1.headD 0))

/-- The second index of the same. -/
def touched2 (fs : List Fld) (es : List Staged) : List Nat := uniq ((es.filter (fun e => fs.contains e.1)).map (fun e => e.2.1.getD 1 0))

/-- The staged values of certain fields at an index. -/
def stagedAt (fs : List Fld) (n : Nat) (es : List Staged) : List Staged := es.filter (fun e => fs.contains e.1 && decide (e.2.1.headD 0 = n))

/-- Fields are back to having nothing staged: the staged copy equals the value in effect (R533). -/
def unstageAll (es : List Staged) : Prog := .all [
  Prog.each es (fun e => .eff (.unstage (e.1.key e.2.1) (e.1.key e.2.1 + 1))),
  Prog.each (touched knotFlds es) (fun n => rd fun s => Prog.when (s.knot n).viewStage (.eff (.knot n { s.knot n with viewStage := false })))]

/-! ### What a block refuses -/

/-- A set of staged values that is refused: what its record says, and the fields it holds back. -/
structure Refused where
  cause : Nat
  src : Nat
  obj0 : Nat := 0
  part : Option Nat := none
  hit : Fld → List Nat → Bool := fun _ _ => true

/-- The record of a refusal. -/
def Refused.record (r : Refused) : Prog := log { src := r.src, cause := r.cause, sev := 0, obj0 := r.obj0, part := r.part }

/-- The fields of CROWN_PART_CFG_p that a commit changes only while the partition is FREE (R488). -/
def partCfgFlds : List Fld := [F.CROWN_PART_CFG.RIGHTS_TAG, F.CROWN_PART_CFG.MEM, F.CROWN_PART_CFG.TRIGGER, F.CROWN_PART_CFG.BULK, F.CROWN_PART_CFG.NEAR,
  F.CROWN_PART_CFG.KNOT_BASE, F.CROWN_PART_CFG.KNOT_COUNT, F.CROWN_PART_CFG.TAG_BASE, F.CROWN_PART_CFG.TAG_COUNT, F.CROWN_PART_CFG.MAX_ENTRIES]

/-- The fields of CROWN_PEER_n. -/
def peerFlds : List Fld := [F.CROWN_PEER.PUB_X, F.CROWN_PEER.PUB_Y, F.CROWN_PEER.VALID]

/-- What a Crown commit refuses (R479, R488): a VALID peer entry whose point is not on the curve, and changes of a partition that is not FREE.
[Marks: DEDUCED, log entry 19.] -/
def State.crownRefused (s t : State) (es : List Staged) : List Refused :=
  ((touched partCfgFlds es).filter (fun p => decide (s.partSt p ≠ ptFree))).map (fun p =>
    { cause := 0x601, src := srcCrown, obj0 := p, part := some p, hit := fun f ix => partCfgFlds.contains f && decide (ix.headD 0 = p) }) ++
  ((touched peerFlds es).filter (fun n => t.rb F.CROWN_PEER.VALID [n] && !onP384 (t.peerCoord F.CROWN_PEER.PUB_X n) (t.peerCoord F.CROWN_PEER.PUB_Y n))).map (fun n =>
    { cause := 0x607, src := srcCrown, obj0 := n, hit := fun f ix => peerFlds.contains f && decide (ix.headD 0 = n) })

/-- What a Felt routing commit refuses (R97): a CURRENT other than the present one and its successor.
[Marks: DEDUCED, log entry 19.] -/
def State.feltRefused (s t : State) : List Refused :=
  let c := s.r F.FELT_ROUTE_EPOCH.CURRENT []
  let n := t.r F.FELT_ROUTE_EPOCH.CURRENT []
  if n = c ∨ n = (c + 1) % 65536 then [] else [{ cause := 0x822, src := srcFelt, obj0 := n, hit := fun f _ => decide (f = F.FELT_ROUTE_EPOCH.CURRENT) }]

/-- What a Hitch commit refuses (R192): minima that exceed the transactions in all.
[Marks: DESIGN CHOICE, log entry 20.] -/
def State.hitchRefused (t : State) (es : List Staged) : List Refused :=
  if es.any (fun e => decide (e.1 = F.HITCH_TXN_MIN.MIN)) ∧ 131072 < ((List.range 16).map (fun p => t.r F.HITCH_TXN_MIN.MIN [p])).sum then
    [{ cause := 0x421, src := srcFelt, hit := fun f _ => decide (f = F.HITCH_TXN_MIN.MIN) }]
  else []

/-- What a collective commit refuses (R341): a reserve or a cap that leaves an allocated region outside it; the regions of groups that this commit enters anew do not count.
[Marks: DESIGN CHOICE, log entry 21.] -/
def State.collRefused (s t : State) (es : List Staged) : List Refused :=
  let stay (n : Nat) : Bool := decide ((s.coll n).st ≠ clgIdle) || !(touched collFlds es).contains n
  let all := s.collUsed stay
  let own (p : Nat) := s.collUsed (fun n => stay n && decide (s.r F.FELT_COLL.PARTITION [n] = p))
  (if t.r F.FELT_COLL_RESERVE.CELLS [] < all.1 then [{ cause := 0x262, src := srcFelt, hit := fun f _ => decide (f = F.FELT_COLL_RESERVE.CELLS) }] else []) ++
  ((touched [F.FELT_COLL_CAP.CELLS, F.FELT_COLL_CAP.EXACT_GRAN] es).filter (fun p =>
      decide (t.r F.FELT_COLL_CAP.CELLS [p] < (own p).1 ∨ t.r F.FELT_COLL_CAP.EXACT_GRAN [p] < (own p).2))).map (fun p =>
    { cause := 0x262, src := srcFelt, part := some p
      hit := fun f ix => (decide (f = F.FELT_COLL_CAP.CELLS) || decide (f = F.FELT_COLL_CAP.EXACT_GRAN)) && decide (ix.headD 0 = p) })

/-- A program is loaded by a partition. -/
def State.progOf (s : State) (g : Nat) (p : Option Nat) : Bool := match SMap.get none s.eng.progs g with
  | some x => decide (p = some x.part)
  | none => false

/-- A knot's values are out of range (R343, R361): it lies outside every slice, or the staged `es` name a program of another partition.
[Marks: DESIGN CHOICE, log entry 21.] -/
def State.knotBad (s t : State) (es : List Staged) (n : Nat) : Bool :=
  let p := s.knotPart n
  let foreign : Bool := match SMap.get none s.eng.progs (t.r F.KNOT.TRIG_PROG [n]) with | some g => decide (p ≠ some g.part) | none => false
  let c := t.r F.KNOT.OWNER_CTX [n]
  p.isNone || ((stagedAt knotFlds n es).any (fun e => decide (e.1 = F.KNOT.TRIG_PROG)) && foreign) ||
  (decide (t.r F.KNOT.TYPE [n] = tyBarrier) && decide (t.barTarget n = 0)) ||
  (t.rb F.KNOT.OWNER_CTX_EN [n] && (decide ((s.ctx c).st = .free) || decide (p ≠ some (s.ctx c).part))) ||
  (t.rb F.KNOT.TRIG_EN [n] && !s.progOf (t.r F.KNOT.TRIG_PROG [n]) p)

/-- What a knot commit refuses (R343, R361): a VALID knot's set out of range, any change of a LOST knot but VALID 1 to 0, a knot outside every slice, and a stage field written
from a view.
[Marks: DESIGN CHOICE, log entry 21.] -/
def State.knotRefused (s t : State) (es : List Staged) : List Refused :=
  ((touched knotFlds es).filter (fun n =>
    (s.knot n).viewStage || (if t.rb F.KNOT.VALID [n] then decide ((s.knot n).st = .lost) || s.knotBad t es n
    else !s.rb F.KNOT.VALID [n] && (s.knotPart n).isNone))).map (fun n =>
    { cause := 0x514, src := srcFelt, obj0 := n, part := s.knotPart n, hit := fun f ix => knotFlds.contains f && decide (ix.headD 0 = n) })

/-- What a Cleat commit refuses (R385): a system reserve below the non-data entries in use. -/
def State.cleatRefused (s t : State) : List Refused :=
  if t.r F.CLEAT_CFG.SYS_MIN [] < s.sysUsed then [{ cause := 0x383, src := srcFelt, hit := fun f _ => decide (f = F.CLEAT_CFG.SYS_MIN) }] else []

/-- The members that a multicast group lists. -/
def State.mcMembers (t : State) (g : Nat) : List Nat := rangeFrom (t.r F.TM_MCG.FIRST [g]) (t.r F.TM_MCG.COUNT [g])

/-- A VALID multicast group is in range: 1 to 512 members within the table, whose VALID queues belong to its partition (R430). -/
def State.mcOk (t : State) (g : Nat) : Bool :=
  let n := t.r F.TM_MCG.COUNT [g]
  !t.rb F.TM_MCG.VALID [g] || (decide (1 ≤ n ∧ n ≤ 512 ∧ t.r F.TM_MCG.FIRST [g] + n ≤ 16384) && (t.mcMembers g).all (fun m =>
    let q := t.r F.TM_MCM.QUEUE [m]
    !t.rb F.TM_Q.VALID [q] || decide (t.r F.TM_Q.PARTITION [q] = t.r F.TM_MCG.PARTITION [g])))

/-- What a traffic-manager commit refuses (R430, R435): a queue with cells that would change PORT or PARTITION, and a group that it breaks, with its members and their partitions. -/
def State.tmRefused (s t : State) (es : List Staged) : List Refused :=
  ((touched tmqFlds es).filter (fun q => decide (0 < (s.tmq q).g + (s.tmq q).s) &&
      (stagedAt tmqFlds q es).any (fun e => decide (e.1 = F.TM_Q.PORT) || decide (e.1 = F.TM_Q.PARTITION)))).map (fun q =>
    { cause := 0x205, src := srcFelt, obj0 := q, part := some (s.r F.TM_Q.PARTITION [q]), hit := fun f ix => tmqFlds.contains f && decide (ix.headD 0 = q) }) ++
  ((uniq (touched tmMcgFlds es ++ s.listed F.TM_MCG.VALID)).filter (fun g => !t.mcOk g && (s.mcOk g || !s.rb F.TM_MCG.VALID [g] || (touched tmMcgFlds es).contains g))).map (fun g =>
    { cause := 0x205, src := srcFelt, obj0 := g, part := some (t.r F.TM_MCG.PARTITION [g])
      hit := fun f ix =>
        let i := ix.headD 0
        (tmMcgFlds.contains f && decide (i = g)) || (decide (f = F.TM_MCM.QUEUE) && (t.mcMembers g).contains i) ||
        (decide (f = F.TM_Q.PARTITION) && ((t.mcMembers g).map (fun m => t.r F.TM_MCM.QUEUE [m])).contains i) })

/-- The fields of an octet. -/
def octetFlds : List Fld := [F.BRIM_OCTET.MODE, F.BRIM_OCTET.ROLE, F.BRIM_OCTET.IDE_EN, F.BRIM_OCTET.LANE_REV, F.BRIM_OCTET.MAX_RATE]

/-- The fields of a port. -/
def portFlds : List Fld := [F.BRIM_PORT.EN, F.BRIM_PORT.WIDTH, F.BRIM_PORT.AN_EN, F.BRIM_PORT.MACSEC_EN, F.BRIM_PORT.MAX_FRAME, F.BRIM_PORT.REEQ_SYM_K,
  F.BRIM_PORT.REEQ_WINDOWS, F.BRIM_PORT.REEQ_MAX_US, F.BRIM_PORT.REPLAY_WINDOW]

/-- The fields of a check-value setting. -/
def chkSetFlds : List Fld := [F.BRIM_CHK_SET.POLY, F.BRIM_CHK_SET.INIT, F.BRIM_CHK_SET.XOROUT, F.BRIM_CHK_SET.WIDTH, F.BRIM_CHK_SET.REFIN, F.BRIM_CHK_SET.REFOUT,
  F.BRIM_CHK_SET.SCOPE, F.BRIM_CHK_SET.VALID]

/-- The configuration fields of a policer. -/
def polFlds : List Fld := [F.TM_POL.CIR, F.TM_POL.MODE, F.TM_POL.EN, F.TM_POL.YELLOW_ACT, F.TM_POL.RED_ACT, F.TM_POL.PIR, F.TM_POL.CBS_KIB, F.TM_POL.PBS_KIB, F.TM_POL.YELLOW_DSCP]

/-- MODE of octet k of a die. -/
def State.mode (t : State) (d k : Nat) : Nat := t.r F.BRIM_OCTET.MODE [d, k]

/-- The octet pairs of the switch in MIRROR mode. -/
def State.mirrorPairs (t : State) : Nat :=
  ((List.range 8).map (fun d => ((List.range 8).filter (fun m => decide (t.mode d (2 * m) = mdMirror ∨ t.mode d (2 * m + 1) = mdMirror))).length)).sum

/-- Octet k of die d keeps the limits of R437, R438 and R442.
[Marks: DESIGN CHOICE, log entry 20.] -/
def State.octetOk (t : State) (d k : Nat) : Bool :=
  let md := t.mode d k
  let on := (List.range 4).filter (fun j => t.rb F.BRIM_PORT.EN [d, 4 * k + j])
  let lanes (j : Nat) : Nat := 2 ^ t.r F.BRIM_PORT.WIDTH [d, 4 * k + j]
  if md = mdPcie ∨ md = mdCxl then decide (d < 4) && (decide (md = mdCxl) || !t.rb F.BRIM_OCTET.ROLE [d, k])
  else if md = mdMirror then decide (t.mode d (if k % 2 = 0 then k + 1 else k - 1) = mdMirror) && decide (t.mirrorPairs ≤ 1)
  else if md = mdEth then
    on.all (fun j => (if lanes j = 8 then decide (j = 0) else if lanes j = 4 then decide (j % 2 = 0) else true) &&
      on.all (fun i => decide (i ≤ j) || decide (2 * j + lanes j ≤ 2 * i)))
  else true

/-- The set of an octet: its own fields and those of its four ports.
[Marks: DESIGN CHOICE, log entry 20.] -/
def octetHit (d k : Nat) (f : Fld) (ix : List Nat) : Bool :=
  decide (ix.headD 0 = d) && ((octetFlds.contains f && decide (ix.getD 1 0 = k)) || (portFlds.contains f && decide (ix.getD 1 0 / 4 = k)))

/-- What a Brim commit refuses (R424, R437, R438, R442): policers and octets out of range. -/
def State.brimRefused (t : State) (d : Nat) (es : List Staged) : List Refused :=
  ((touched2 polFlds es).filter (fun i =>
      let r (f : Fld) := t.r f [d, i]
      decide (r F.TM_POL.EN = 1 ∧ r F.TM_POL.PIR < r F.TM_POL.CIR) || decide (r F.TM_POL.CBS_KIB < 10 ∨ r F.TM_POL.PBS_KIB < 10 ∨ r F.TM_POL.CIR = 0 ∨ r F.TM_POL.PIR = 0))).map (fun i =>
    { cause := 0x205, src := srcBrim d, obj0 := 2048 * d + i, hit := fun f ix => polFlds.contains f && decide (ix.getD 1 0 = i) }) ++
  ((uniq (touched2 octetFlds es ++ (touched2 portFlds es).map (· / 4))).filter (fun k => !t.octetOk d k)).map (fun k =>
    { cause := 0x101, src := srcBrim d, obj0 := 16 * d + k, hit := octetHit d k })

/-- The sets that a commit refuses, `t` being the state with every staged value in effect. -/
def State.refusedSets (s t : State) (b : Block) (es : List Staged) : List Refused :=
  match b with
  | .crown => s.crownRefused t es
  | .felt => s.feltRefused t
  | .hitch => t.hitchRefused es
  | .coll => s.collRefused t es
  | .knot | .view _ => s.knotRefused t es
  | .cleat => s.cleatRefused t
  | .tm => s.tmRefused t es
  | .brim d => t.brimRefused d es
  | .full | .tier | .host | .spl _ => []

/-- Why a commit is refused as a whole, `u` being the state with the accepted sets in effect: a shared pool below 262,144 cells (R420), or a check-value setting that a connection which is
not FREE names (R409). -/
def State.refusedWhole (s u : State) (b : Block) (es : List Staged) : Option Refused :=
  match b with
  | .coll | .tm => if u.tmB < 262144 ∧ u.tmB < s.tmB then some { cause := 0x205, src := srcFelt } else none
  | .brim d =>
    let used (i : Nat) : Bool := s.btp.conns.any (fun e => decide (e.2.st ≠ .free ∧ connDie e.1 = d ∧ e.2.chk = i + 1))
    match (touched2 chkSetFlds es).find? used with
    | some i => some { cause := 0x813, src := srcBrim d, obj0 := i + 1 }
    | none => none
  | _ => none

/-! ### What accepted values bring about -/

/-- Registrations of agents take effect; one that makes VALID 1 of a RECALLING agent is held (R182).
[Marks: DESIGN CHOICE, log entry 20.] -/
def agentsCommit (es : List Staged) : Prog :=
  Prog.each (touched [F.HITCH_AGENT.VALID, F.HITCH_AGENT.KIND, F.HITCH_AGENT.PARTITION, F.HITCH_AGENT.DIE, F.HITCH_AGENT.PORT] es) (fun n => rd fun s =>
    if s.agentSt n = agRecalling ∧ s.stg F.HITCH_AGENT.VALID [n] = 1 then Prog.when (!s.hitch.heldValid.contains n) (.eff (.heldValid (s.hitch.heldValid ++ [n])))
    else agentEnter n)

/-- Whether the values of a group's commit take effect only after its generation has closed: it is OPEN, COMPLETE or CLOSING (R317). -/
def State.collBusy (s : State) (n : Nat) : Bool := decide ((s.coll n).st = clgOpen ∨ (s.coll n).st = clgComplete ∨ (s.coll n).st = clgClosing)

/-- The new fields of a busy group wait for the end of its generation, which is aborted under cause 0x266 (R317).
[Marks: DESIGN CHOICE, log entry 21.] -/
def collLater (n : Nat) (es : List Staged) : Prog := rd fun s =>
  let base := (s.coll n).pend.getD (collFlds.map (fun f => s.r f [n]))
  let vs := (collFlds.zip base).map (fun e => ((stagedAt [e.1] n es).head?.map (fun x => x.2.2)).getD e.2)
  .all [
    Prog.when (decide ((s.coll n).st ≠ clgClosing)) (.all [
      log { src := srcFelt, cause := 0x266, sev := 2, status := stDenied, obj0 := n, part := some (s.r F.FELT_COLL.PARTITION [n]) }, collAbort n stDenied]),
    rd fun u => .eff (.coll n { u.coll n with pend := some vs })]

/-- A collective commit: reserves, caps and quotas, then the groups (R308, R309, R317, R341).
[Marks: DESIGN CHOICE, log entry 21.] -/
def collCommit (es : List Staged) : Prog := rd fun s =>
  let ns := touched collFlds es
  let now := ns.filter (fun n => !s.collBusy n)
  .all [
    wrAll (es.filter (fun e => !collFlds.contains e.1)),
    Prog.each (ns.filter s.collBusy) (fun n => collLater n es),
    Prog.each now (fun n => .all [wrAll (stagedAt collFlds n es), .eff (.coll n { st := clgOff, gen := (s.coll n).gen })]),
    Prog.each now collEnter]

/-- The fields whose change breaks a VALID knot (R361). -/
def knotBreakFlds : List Fld := [F.KNOT.TYPE, F.KNOT.STAGE, F.KNOT.HOME_INDEX, F.KNOT.OWNER_CTX_EN, F.KNOT.OWNER_CTX, F.KNOT.MEMBER_MASK]

/-- A knot is switched off: waits and held arrivals end, queued launches go (R361). -/
def knotOff (n : Nat) : Prog := rd fun s =>
  let k := s.knot n
  .all [
    .eff (.knot n { k with st := .off, waits := [], held := [], ownerFreed := false }),
    Prog.each k.waits (fun w => waitEnd w.op stBroken false (s.knotShown n)),
    Prog.each k.held (fun a => match a with
      | .req r => respond r stBroken []
      | .op _ => ackArrival a k.gen
      | .none => .skip),
    dropLaunches (fun l => decide (l.knot = n))]

/-- A knot's condition has changed in place: waits are tested, and a barrier whose TARGET is reached completes, or sends the stage arrival it has not yet sent (R361).
[Marks: DESIGN CHOICE, log entry 21.] -/
def knotRetest (n old : Nat) : Prog := rd fun s =>
  let k := s.knot n
  if s.knotTy n ≠ tyBarrier then wakeKnot n
  else if s.barTarget n ≤ k.arrived then
    (if s.r F.KNOT.STAGE [n] = 2 then
      .all [.eff (.knot n { k with arrived := s.barTarget n }), Prog.when (decide (k.arrived < old)) (stageStore n (s.r F.KNOT.HOME_INDEX [n]) 0x10)]
    else completeGen n)
  else .skip

/-- The accepted values of a knot take effect (R360, R361, R362).
[Marks: DESIGN CHOICE, log entry 21.] -/
def knotCommit (n : Nat) (es : List Staged) : Prog := rd fun s =>
  let k := s.knot n
  let was := s.rb F.KNOT.VALID [n]
  let has (fs : List Fld) : Bool := es.any (fun e => fs.contains e.1)
  let changed (fs : List Fld) : Bool := es.any (fun e => fs.contains e.1 && decide (e.2.2 ≠ s.r e.1 e.2.1))
  .all [
    wrAll es, Prog.each es (fun e => regChange e.1 e.2.1),
    rd fun t =>
      let now := t.rb F.KNOT.VALID [n]
      if ¬ was ∧ now then .eff (.knot n { st := .active, value := wrap 64 (sext 32 (t.r F.KNOT.INIT [n])), fail := k.fail })
      else if was ∧ ¬ now then knotOff n
      else if ¬ was then .skip
      else .all [
        Prog.when (has [F.KNOT.OWNER_CTX_EN, F.KNOT.OWNER_CTX]) (.eff (.knot n { k with ownerFreed := false })),
        if k.st ≠ .active then .skip else if changed knotBreakFlds then breakKnot n else knotRetest n (s.barTarget n)],
    knotChange n]

/-- The accepted values of a queue take effect (R429, R435): a queue that leaves use discards its frames, one that enters use starts empty, buckets keep their level clipped to the new depth,
and cells above MIN_CELLS become shared.
[Marks: DESIGN CHOICE, log entry 21.] -/
def queueCommit (q : Nat) (es : List Staged) : Prog := rd fun s =>
  let was := s.rb F.TM_Q.VALID [q]
  let t := s.shadow 16
  .all [
    .eff (.tmq q { s.tmq q with cb := s.commAt q t, pb := s.peakAt q t, t := t }),
    wrAll es,
    rd fun u =>
      let y := u.tmq q
      let more := y.g - u.r F.TM_Q.MIN_CELLS [q]
      if ¬ was ∧ u.rb F.TM_Q.VALID [q] then .eff (.tmq q { t := t })
      else if was ∧ ¬ u.rb F.TM_Q.VALID [q] then .all [
        .eff (.tmq q { y with frames := [] }),
        Prog.each (u.tm.frms.filterMap (fun e => match e.2 with
          | some x => if x.qs.contains q then some e.1 else none
          | none => none)) (fun f => copyDone f q),
        .eff (.tmq q {})]
      else .all [
        .eff (.tmq q { y with g := y.g - more, s := y.s + more
                              cb := min y.cb ((u.r F.TM_Q.CBS_KIB [q] * 81920000 : Nat) : Int), pb := min y.pb ((u.r F.TM_Q.PBS_KIB [q] * 81920000 : Nat) : Int) }),
        .eff (.tmUsed (u.tm.used + more))]]

/-- A traffic-manager commit (R429, R435).
[Marks: DESIGN CHOICE, log entry 20.] -/
def tmCommit (es : List Staged) : Prog := rd fun s =>
  let t := s.shadow 16
  .all [
    Prog.each (touched [F.TM_PORT.RATE, F.TM_PORT.RESP_PIR] es) (fun p => .eff (.tmPort p { s.tmPort p with b := s.portAt p t, bt := t, pb := s.respPeakAt p t, t := t })),
    wrAll (es.filter (fun e => !tmqFlds.contains e.1)),
    Prog.each (touched tmqFlds es) (fun q => queueCommit q (stagedAt tmqFlds q es))]

/-- The ports of a die that a commit concerns, enabled before or after it (R463): those it names, and those of an octet it names. -/
def State.portsNamed (s u : State) (d : Nat) (es : List Staged) : List Nat :=
  let octs := touched2 octetFlds es
  let macs := touched2 portFlds es
  (uniq (s.portsOn ++ u.portsOn)).filter (fun p => decide (p / 64 = d) && (macs.contains (p % 64) || octs.contains (octetOf p) ||
    (decide (p % 8 = 0) && octs.contains (octetOf p + 1) && (s.x16 p || u.x16 p || decide (s.portMode p = mdMirror) || decide (u.portMode p = mdMirror)))))

/-- A port that a commit concerns goes down; from UP under cause 0x105 (R446, R463). -/
def commitDown (p : Nat) : Prog := rd fun s =>
  let up := decide (s.link p = lkUp ∨ s.link p = lkReeq ∨ s.link p = lkRecovery)
  .all [
    Prog.when up (.all [log { src := srcBrim (p / 64), cause := 0x105, sev := 1, obj0 := p }, count F.PORT_LINK_DOWN_COUNT.COUNT [p / 64, p % 64], health (s.linkObj p) 4]),
    takeDown p, Prog.when up (linkLoss p)]

/-- A Brim commit: ports concerned go down and, where enabled, come up again, FAILED ones too (R446, R463); committed policers start full (R424).
[Marks: DESIGN CHOICE, log entry 20.] -/
def brimCommit (d : Nat) (es : List Staged) : Prog := rd fun s =>
  let ps := s.portsNamed (s.withFields es) d es
  .all [
    Prog.each (ps.filter s.portOn) commitDown,
    wrAll es,
    Prog.each ps (fun p => .all [onPort p (fun x => { x with fails := 0 }), startPort p]),
    Prog.each (touched2 polFlds es) (fun i => rd fun u => .eff (.pol (2048 * d + i) (u.polFull d i)))]

/-- The map that was current becomes the previous one (R81): the route, gateway and knot-home entries in effect at the commit of a new epoch. -/
def oldMap : Prog := rd fun s => .all [.eff (.prevMap true),
  .eff (.prevRoutes (s.cleat.ents.filter (fun e => decide (e.tag = tagLocation ∧ 9 ≤ e.kind ∧ e.kind ≤ 11))))]

/-- The accepted values of a block take effect at one point. -/
def takeEffect (b : Block) (es : List Staged) : Prog :=
  match b with
  | .crown => .all [wrAll es, rd fun s => setAtFloor (decide (s.r F.PWR_STATUS.DUTY [] = s.r F.PWR_CTRL.DUTY_FLOOR [])), Prog.each (touched peerFlds es) peerEnter, Prog.each (touched [F.CROWN_XSVC.ATTN_CTX, F.CROWN_XSVC.RETR_CTX] es) xsvcCommit]
  | .felt => .all [wrAll es, Prog.when (es.any (fun e => decide (e.1 = F.FELT_ROUTE_EPOCH.CURRENT))) oldMap, Prog.each (es.filter (fun e => domainFlds.contains e.1)) (fun e => regChange e.1 e.2.1)]
  | .hitch => .all [
      wrAll (es.filter (fun e => ! [F.HITCH_AGENT.VALID, F.HITCH_AGENT.KIND, F.HITCH_AGENT.PARTITION, F.HITCH_AGENT.DIE, F.HITCH_AGENT.PORT].contains e.1)), agentsCommit es]
  | .coll => collCommit es
  | .knot | .view _ => .all [wrAll (es.filter (fun e => !knotFlds.contains e.1)), Prog.each (touched knotFlds es) (fun n => knotCommit n (stagedAt knotFlds n es))]
  | .tm => tmCommit es
  | .brim d => brimCommit d es
  | .tier => .all [wrAll es, autoRebuild]
  | .full | .cleat | .host | .spl _ => wrAll es

/-! ### COMMIT registers (R531 to R533) -/

/-- DONE, RESULT and SEQ of a block's COMMIT register, its indices, and the MSI-X vector raised at DONE (R529). -/
def commitReg : Block → Option (Fld × Fld × Fld × List Nat × Nat)
  | .crown => some (F.CROWN_COMMIT.DONE, F.CROWN_COMMIT.RESULT, F.CROWN_COMMIT.SEQ, [], 3)
  | .felt => some (F.FELT_COMMIT.DONE, F.FELT_COMMIT.RESULT, F.FELT_COMMIT.SEQ, [], 3)
  | .hitch => some (F.HITCH_COMMIT.DONE, F.HITCH_COMMIT.RESULT, F.HITCH_COMMIT.SEQ, [], 3)
  | .full => some (F.FULL_COMMIT.DONE, F.FULL_COMMIT.RESULT, F.FULL_COMMIT.SEQ, [], 3)
  | .tier => some (F.TIER_COMMIT.DONE, F.TIER_COMMIT.RESULT, F.TIER_COMMIT.SEQ, [], 3)
  | .coll => some (F.FELT_COLL_COMMIT.DONE, F.FELT_COLL_COMMIT.RESULT, F.FELT_COLL_COMMIT.SEQ, [], 3)
  | .knot => some (F.KNOT_COMMIT.DONE, F.KNOT_COMMIT.RESULT, F.KNOT_COMMIT.SEQ, [], 3)
  | .cleat => some (F.CLEAT_COMMIT.DONE, F.CLEAT_COMMIT.RESULT, F.CLEAT_COMMIT.SEQ, [], 3)
  | .tm => some (F.TM_COMMIT.DONE, F.TM_COMMIT.RESULT, F.TM_COMMIT.SEQ, [], 3)
  | .brim d => if d < 8 then some (F.BRIM_COMMIT.DONE, F.BRIM_COMMIT.RESULT, F.BRIM_COMMIT.SEQ, [d], 3) else none
  | .view p => if p < 16 then some (F.VIEW_KNOT_COMMIT.DONE, F.VIEW_KNOT_COMMIT.RESULT, F.VIEW_KNOT_COMMIT.SEQ, [p], 8 + p) else none
  | .host | .spl _ => none

/-- The offset of a register of a block, by which it is reachable (R530). -/
def blockOff : Block → Nat
  | .crown => 0
  | .host => 0x800000
  | .brim d => 0x2000000 + d * 0x100000
  | .spl d => 0x4000000 + d * 0x400000
  | .view p => 0x10004000 + p * 0x100000
  | _ => 0x1000000

/-- A commit completes: nothing stays staged but the registration of an agent that is held, and the register shows how it ended (R533).
[Marks: DEDUCED, log entry 19.] -/
def commitDone (b : Block) (es : List Staged) (res : Nat) : Prog := rd fun s => .all [
  unstageAll (es.filter (fun e => !(decide (0x1002100 ≤ e.1.base ∧ e.1.base < 0x1002180) && s.hitch.heldValid.contains (e.2.1.headD 0)))),
  Prog.opt (commitReg b) (fun c => .all [wr c.1 c.2.2.2.1 1, wr c.2.1 c.2.2.2.1 res, wr c.2.2.1 c.2.2.2.1 (s.r c.2.2.1 c.2.2.2.1 + 1), msix c.2.2.2.2])]

/-- A block without a COMMIT register, or the view of a FREE partition. -/
def State.noCommit (s : State) (b : Block) : Bool := (commitReg b).isNone || (match b with | .view p => decide (s.partSt p = ptFree) | _ => false)

/-- COMMIT_GO (R532, R533): a write of 1 to GO of a block's COMMIT register takes its staged set, checks it, and puts what is accepted into effect. RESULT is 0 where everything took effect,
1 where some sets were refused, 2 where nothing changed.
[Marks: DEDUCED, log entry 19.] -/
def execCommitGo (b : Block) (s : State) : Host.Outcome State Fault Refusal := run s <| reached (blockOff b) <|
  let es := s.taken b
  let sets := s.refusedSets (s.withFields es) b es
  let acc := es.filter (fun e => !sets.any (fun r => r.hit e.1 e.2.1))
  if s.noCommit b then .skip
  else match s.refusedWhole (s.withFields acc) b acc with
    | some r => .all [r.record, commitDone b es 2]
    | none => .all [Prog.each sets Refused.record, takeEffect b acc,
        commitDone b es (if sets.isEmpty then 0 else if acc.isEmpty then 2 else 1)]

/-- COMMIT_DISCARD (R533): a write of 1 to DISCARD sets every staged copy of the block to the value in effect. -/
def execCommitDiscard (b : Block) (s : State) : Host.Outcome State Fault Refusal := run s <| reached (blockOff b) <|
  if s.noCommit b then .skip else unstageAll (s.taken b)

/-! ### Clear registers (R534) -/

/-- The counters that a block's clear register clears. -/
def blockCounters : Block → List Fld
  | .crown => [F.CROWN_D2D_STATUS.REPLAY_COUNT, F.CROWN_D2D_STATUS.RETRAIN_COUNT, F.CROWN_OLD_EPOCH_COUNT.COUNT, F.CROWN_MAC_FAIL_COUNT.COUNT, F.LOG_DROP_COUNT.COUNT,
      F.LOG_EXPORT_DROP_COUNT.COUNT, F.LOG_SAMPLE_LOST_COUNT.COUNT, F.LOG_SAMPLE_SKIP_COUNT.COUNT]
  | .host => [F.HOST_BAD_ACCESS_COUNT.COUNT]
  | .felt => [F.FELT_EPOCH_AHEAD_COUNT.COUNT]
  | .hitch => [F.HITCH_EVICT_COUNT.COUNT, F.HITCH_SNOOP_TIMEOUT_COUNT.COUNT, F.HITCH_POISON_COUNT.COUNT]
  | .full => [F.FULL_MERGED_COUNT.COUNT, F.FULL_NOENTRY_COUNT.COUNT]
  | .tier => [F.TIER_PROMOTE_COUNT.COUNT, F.TIER_DEMOTE_COUNT.COUNT, F.TIER_MIGRATE_ABORT_COUNT.COUNT, F.TIER_REBUILD_COUNT.COUNT, F.TIER_UNCORR_COUNT.COUNT,
      F.TIER_LATE_COUNT.COUNT, F.TIER_MBOX_IGNORED_COUNT.COUNT, F.TIER_FLASH_GC_COUNT.COUNT, F.TIER_FLASH_GC_ABANDON_COUNT.COUNT, F.TIER_FLASH_RETIRE_COUNT.COUNT,
      F.TIER_FLASH_MAP_MISS_COUNT.COUNT]
  | .coll => [F.FELT_COLL_BUSY_COUNT.COUNT, F.FELT_COLL_ABORT_COUNT.COUNT, F.FELT_COLL_DUP_COUNT.COUNT, F.FELT_SHADOW_MISMATCH_COUNT.COUNT, F.FELT_XSVC_BUSY_COUNT.COUNT]
  | .knot => [F.KNOT_LATE_COUNT.COUNT, F.KNOT_FAIL_COUNT.COUNT, F.KNOT_BROKEN_COUNT.COUNT, F.KNOT_LAUNCH_BUSY_COUNT.COUNT, F.KNOT_SAT_COUNT.COUNT]
  | .cleat => [F.CLEAT_VERIFY_FAIL_COUNT.COUNT, F.CLEAT_UNCORR_COUNT.COUNT, F.CLEAT_UPD_REFUSED_COUNT.COUNT, F.CLEAT_UPD_IGNORED_COUNT.COUNT]
  | .tm => [F.TM_ADMIT_DROP_COUNT.COUNT, F.TM_NOQUEUE_DROP_COUNT.COUNT, F.TM_STOMP_COUNT.COUNT, F.TM_ECC_UNCORR_COUNT.COUNT, F.TM_Q_STAT.DROP_PKTS]
  | .brim _ => [F.BRIM_BTP_DROP_COUNT.COUNT, F.BRIM_BTP_CHK_FAIL_COUNT.COUNT, F.CODEC_DEC_BYTES.BYTES, F.CODEC_ENC_BYTES.BYTES, F.CODEC_OVERRUN_COUNT.COUNT,
      F.CODEC_UNDERRUN_COUNT.COUNT, F.PORT_FEC_CORR_COUNT.COUNT, F.PORT_FEC_UNCORR_COUNT.COUNT, F.PORT_FCS_ERR_COUNT.COUNT, F.PORT_OVERSIZE_COUNT.COUNT,
      F.PORT_MACSEC_FAIL_COUNT.COUNT, F.PORT_PAUSE_DROP_COUNT.COUNT, F.PORT_LINK_DOWN_COUNT.COUNT, F.PORT_REEQ_COUNT.COUNT, F.BRIM_LANE_SYM_COUNT.COUNT,
      F.TM_POL.GREEN_PKTS, F.TM_POL.YELLOW_PKTS, F.TM_POL.RED_PKTS]
  | .spl _ => [F.SPL_ECC_CORR_COUNT.COUNT, F.SPL_ECC_UNCORR_COUNT.COUNT, F.SPL_SHADOW_SKIP_COUNT.COUNT, F.SPL_SHADOW_MISMATCH_COUNT.COUNT]
  | .view _ => []

/-- COUNTER_CLEAR (R534): a write of 1 to CLEAR of a block's clear register sets every counter of the block to 0 and changes nothing else. -/
def execCounterClear (b : Block) (s : State) : Host.Outcome State Fault Refusal := run s <| reached (blockOff b) <|
  Prog.each (blockCounters b) (fun f => Prog.each ((s.listedIx f).filter (fun ix => match b with
    | .brim d | .spl d => decide (ix.headD 0 = d)
    | _ => true)) (fun ix => wr f ix 0))

end Sys2Proof.Machine
end

