-- ==== Sys2Proof/Machine/Mgmt.lean ====
section
/-! DEFINITION. The management side: PLDM on the I3C bus (R539), the attestation responder (R484, R485), the sessions of CXL IDE (R481) and the management port (R554). -/
namespace Sys2Proof.Machine
open Sys2Proof

/-! ### PLDM (R539)
An answer is a completion code of the DSP specifications and what follows it, under type * 256 + command code. -/

/-- A PLDM answer.
[Marks: PRESUMED, log entry 30.] -/
def pldm (code : Nat) (vals : List Nat) : Prog := rd fun s => Prog.when s.serves (send (.pldm code vals))

/-- The PLDM types served: base, platform monitoring and control, firmware update.
[Marks: PRESUMED, log entry 30.] -/
def pldmTypes : List Nat := [0, 2, 5]

/-- The commands served of a PLDM type.
[Marks: PRESUMED, log entry 30.] -/
def pldmCommands (t : Nat) : List Nat :=
  if t = 0 then [0x02, 0x03, 0x04, 0x05]
  else if t = 2 then [0x0A, 0x11, 0x21, 0x31, 0x51]
  else [0x01, 0x02, 0x10, 0x13, 0x14, 0x15, 0x16, 0x17, 0x18, 0x1A, 0x1B, 0x1C, 0x1D]

/-- PLDM_GET_TID: the terminus ID. -/
def execPldmGetTid (s : State) : Host.Outcome State Fault Refusal := run s (pldm 0x02 [0, Config.terminusId])

/-- PLDM_GET_PLDM_TYPES: the types served. -/
def execPldmGetPldmTypes (s : State) : Host.Outcome State Fault Refusal := run s (pldm 0x04 (0 :: pldmTypes))

/-- PLDM_GET_PLDM_COMMANDS: the commands served of a type; another type is an error. -/
def execPldmGetPldmCommands (typ : Nat) (s : State) : Host.Outcome State Fault Refusal := run s <|
  if pldmTypes.contains typ then pldm 0x05 (0 :: pldmCommands typ) else pldm 0x05 [0x83]

/-- PLDM_GET_PLDM_VERSION: the version served of a type; another type is an error. -/
def execPldmGetPldmVersion (typ : Nat) (s : State) : Host.Outcome State Fault Refusal := run s <|
  if pldmTypes.contains typ then pldm 0x03 [0, Config.pldmData 0x03 typ] else pldm 0x03 [0x83]

/-- PLDM_SENSOR_READ: a PDR, one of the numeric sensors (module power, 19 rail currents, 25 die temperatures) or one of the state sensors (boot phase, fault summary). -/
def execPldmSensorRead (m : SensorMsg) (s : State) : Host.Outcome State Fault Refusal := run s <|
  match m with
  | .pdr n => if n < 48 then pldm 0x251 [0, n, Config.pldmData 0x251 n] else pldm 0x251 [0x82]
  | .power => pldm 0x211 [0, s.r F.PWR_STATUS.POWER_W []]
  | .rail i => if i < 19 then pldm 0x211 [0, s.r F.PWR_RAIL.CURRENT [i]] else pldm 0x211 [0x80]
  | .temp d => if d < 25 then pldm 0x211 [0, s.r F.PWR_TEMP.TEMP [d]] else pldm 0x211 [0x80]
  | .bootPhase => pldm 0x221 [0, s.r F.CROWN_BOOT_STATUS.PHASE []]
  | .faults => pldm 0x221 [0, s.faultWord]

/-- The state of an update moves on from one of certain states; in another the message is an error: not in update mode, or invalid in this state.
[Marks: PRESUMED, log entry 30.] -/
def fwStep (code : Nat) (fr : List Nat) (to' : Nat) : Prog := rd fun s =>
  if ¬ s.serves then .skip
  else if fr.contains s.boot.upd then .all [.eff (.boot { s.boot with upd := to' }), send (.pldm code [0])]
  else send (.pldm code [if s.boot.upd = 0 then 0x80 else 0x84])

/-- PLDM_FIRMWARE_UPDATE: a message of the update flow into the inactive slot. States: 0 IDLE, 1 LEARN COMPONENTS, 2 READY XFER, 3 DOWNLOAD, 4 VERIFY, 5 APPLY, 6 READY XFER with a component
applied.
[Marks: PRESUMED, log entry 30.] -/
def execPldmFirmwareUpdate (m : FwMsg) (s : State) : Host.Outcome State Fault Refusal := run s <|
  match m with
  | .query => pldm 0x501 [0, Config.pldmData 0x501 0]
  | .params => pldm 0x502 [0, s.r F.CROWN_BOOT_STATUS.SLOT [], Config.pldmData 0x502 0]
  | .status => pldm 0x51B [0, if s.boot.upd = 6 then 2 else s.boot.upd]
  | .requestUpdate => if s.boot.upd ≠ 0 then pldm 0x510 [0x81] else fwStep 0x510 [0] 1
  | .passTable last => fwStep 0x513 [1] (if last then 2 else 1)
  | .updateComponent => fwStep 0x514 [2, 6] 3
  | .transferComplete ok => fwStep 0x516 [3] (if ok then 4 else 3)
  | .verifyComplete ok => fwStep 0x517 [4] (if ok then 5 else 4)
  | .applyComplete ok => fwStep 0x518 [5] (if ok then 6 else 5)
  | .cancelComponent => fwStep 0x51C [3, 4, 5] 2
  | .cancelUpdate => fwStep 0x51D [1, 2, 3, 4, 5, 6] 0

/-! ### SPDM (R484)
`q` is the requester: 0 over PCIe VDM on the host port, 1 over I3C, 2 + p over the DOE mailbox of port p. An answer is its response code, with the requester first. -/

/-- What a requester has agreed. -/
def State.spdm (s : State) (q : Nat) : Spdm := SMap.get {} s.boot.spdm q

/-- The record of a requester is changed. -/
def setSpdm (q : Nat) (x : Spdm) : Prog := rd fun s => .eff (.boot { s.boot with spdm := SMap.set {} s.boot.spdm q x })

/-- An SPDM answer.
[Marks: PRESUMED, log entry 31.] -/
def spdm (q code : Nat) (vals : List Nat) : Prog := send (.spdm code (q :: vals))

/-- An SPDM ERROR: 0x01 invalid request, 0x04 unexpected request, 0x06 decryption failed, 0x07 unsupported request, 0x41 version mismatch.
[Marks: PRESUMED, log entry 31.] -/
def spdmError (q e : Nat) : Prog := spdm q 0x7F [e]

/-- A request reaches the responder: one on the host port does not while that port is down, and a requester number stands for a DOE mailbox of one of the 512 ports.
[Marks: PRESUMED, log entry 31.] -/
def onSpdm (q : Nat) (p : State → Prog) : Prog := rd fun s => if 514 ≤ q ∨ (q = 0 ∧ ¬ s.hostUp) then .skip else p s

/-- A request that needs the algorithms to be agreed.
[Marks: PRESUMED, log entry 31.] -/
def agreed (q : Nat) (p : State → Prog) : Prog := onSpdm q fun s => if (s.spdm q).stage < 3 then spdmError q 0x04 else p s

/-- SPDM_GET_VERSION: versions 1.2 and 1.3; negotiation with this requester starts anew and its sessions end. -/
def execSpdmGetVersion (q : Nat) (s : State) : Host.Outcome State Fault Refusal := run s <|
  onSpdm q fun _ => .all [setSpdm q { stage := 1 }, spdm q 0x04 [0x12, 0x13]]

/-- The capability flags: certificates, challenge, signed measurements, encryption, message authentication, key exchange; pre-shared keys on DOE only.
[Marks: PRESUMED, log entry 31.] -/
def spdmFlags (q : Nat) : Nat := 0x2D6 + (if 2 ≤ q then 0x400 else 0)

/-- SPDM_GET_CAPABILITIES: under a version that is served, after GET_VERSION. -/
def execSpdmGetCapabilities (q ver : Nat) (s : State) : Host.Outcome State Fault Refusal := run s <|
  onSpdm q fun t =>
    if (t.spdm q).stage ≠ 1 then spdmError q 0x04
    else if ver ≠ 0x12 ∧ ver ≠ 0x13 then spdmError q 0x41
    else .all [setSpdm q { t.spdm q with stage := 2, ver := ver }, spdm q 0x61 [ver, spdmFlags q]]

/-- SPDM_NEGOTIATE_ALGORITHMS: ECDSA P-384, SHA-384, secp384r1 and AES-256-GCM are selected from an offer that holds them. -/
def execSpdmNegotiateAlgorithms (q : Nat) (offered : Bool) (s : State) : Host.Outcome State Fault Refusal := run s <|
  onSpdm q fun t =>
    if (t.spdm q).stage ≠ 2 then spdmError q 0x04
    else if ¬ offered then spdmError q 0x01
    else .all [setSpdm q { t.spdm q with stage := 3 }, spdm q 0x63 [0x80, 0x02, 0x10, 0x02]]

/-- The certificate chain of a slot, of one byte at least (R484).
[Marks: PRESUMED, log entry 31.] -/
def certChain (slot : Nat) : List Byte := (Config.certChain slot).1 :: (Config.certChain slot).2

/-- SPDM_GET_DIGESTS: the digests of the certificate chains of slots 0 and 1. -/
def execSpdmGetDigests (q : Nat) (s : State) : Host.Outcome State Fault Refusal := run s <|
  agreed q fun _ => spdm q 0x01 (3 :: [0, 1].map (fun k => ofLe (sha384 (certChain k))))

/-- SPDM_GET_CERTIFICATE: a portion of the certificate chain of slot 0 or 1, with the length still to come. -/
def execSpdmGetCertificate (q slot off len : Nat) (s : State) : Host.Outcome State Fault Refusal := run s <|
  agreed q fun _ =>
    let c := (certChain slot).drop off
    if 1 < slot ∨ c.isEmpty then spdmError q 0x01
    else spdm q 0x02 (slot :: (c.take len).length :: (c.drop len).length :: (c.take len).map (·.toNat))

/-- SPDM_CHALLENGE: a signature under the key of slot 0 or 1 over the transcript with the requester's nonce; its value is free. -/
def execSpdmChallenge (q slot nonce : Nat) (s : State) : Host.Outcome State Fault Refusal := run s <|
  agreed q fun t => if 1 < slot then spdmError q 0x01 else .all [.eff .drawFree, spdm q 0x03 [slot, nonce, (Config.freeValue t.free).toNat]]

/-! ### Measurements (R485) -/

/-- The security state block. -/
def State.securityState (s : State) : List Byte :=
  let map := ((List.range 16).map (fun p => b2n (decide (s.partSt p ≠ ptFree)) * 2 ^ p)).sum
  leBytes 1 (s.r F.CROWN_LC_STATUS.LC_STATE []) ++ leBytes 1 (s.r F.CROWN_LC_STATUS.DEBUG_STATE []) ++ leBytes 2 (s.r F.CROWN_LC_STATUS.SVN_CROWN []) ++
  leBytes 2 (s.r F.CROWN_LC_STATUS.SVN_BRIM []) ++ leBytes 2 map ++ leBytes 8 s.time.now

/-- The record of a partition.
[Marks: PRESUMED, log entry 31.] -/
def State.partRecord (s : State) (p : Nat) : List Byte :=
  let exts := s.pool.exts.filter (fun e => decide (e.2.st ≠ .free ∧ e.2.part = p))
  let ctxs := s.eng.ctxs.countP (fun e => decide (e.2.st ≠ .free ∧ e.2.part = p))
  let agents := (List.range 32).countP (fun n => s.rb F.HITCH_AGENT.VALID [n] && decide (s.r F.HITCH_AGENT.PARTITION [n] = p))
  let xsvc (f : Fld) := b2n (decide (s.r F.CROWN_XSVC.STATE [p] = 2 ∧ s.r f [p] ≠ 0))
  let colls := b2n ((s.listed F.FELT_COLL.VALID).any (fun n => decide (s.r F.FELT_COLL.PARTITION [n] = p)))
  leBytes 1 (s.partSt p) ++ leBytes 3 0 ++ leBytes 4 (s.r F.CROWN_KEY_EPOCH.EPOCH [p]) ++ leBytes 2 (s.r F.KNOT_SLICE.BASE [p]) ++ leBytes 2 (s.r F.KNOT_SLICE.COUNT [p]) ++
  leBytes 2 (0xF000 + s.r F.CLEAT_LEND.TAG_BASE [p]) ++ leBytes 2 (s.r F.CLEAT_LEND.TAG_COUNT [p]) ++ leBytes 4 exts.length ++ leBytes 4 ctxs ++
  leBytes 8 ((exts.map (fun e => e.2.size)).sum) ++ leBytes 2 (s.portsOn.countP (s.owns p)) ++ leBytes 2 agents ++
  leBytes 4 (b2n (s.svcOn p) + 2 * xsvc F.CROWN_XSVC.ATTN_CTX + 4 * xsvc F.CROWN_XSVC.RETR_CTX + 8 * colls) ++
  sha384 ((s.programs.filter (fun e => decide (e.2.part = p))).flatMap (fun e => e.2.digest)) ++ leBytes 8 0

/-- The value of a measurement block; none where the index is not listed.
[Marks: DESIGN CHOICE, log entry 7.] -/
def State.measure (s : State) (i : Nat) : Option (List Byte) :=
  if i = 1 then some (leBytes 48 Config.romDigest)
  else if 2 ≤ i ∧ i ≤ 4 then some (leBytes 48 (SMap.get 0 s.boot.meas i))
  else if i = 5 then some s.securityState
  else if 0x10 ≤ i ∧ i < 0x20 then some (s.partRecord (i - 0x10))
  else none

/-- The indices of the blocks.
[Marks: PRESUMED, log entry 31.] -/
def measureIx : List Nat := [1, 2, 3, 4, 5] ++ rangeFrom 0x10 16

/-- SPDM_GET_MEASUREMENTS: index 0 asks for the number of blocks, 0xFF for all, any other for one. `sign`: with a signature by the Alias key, whose value is free. -/
def execSpdmGetMeasurements (q index nonce : Nat) (sign : Bool) (s : State) : Host.Outcome State Fault Refusal := run s <|
  agreed q fun t =>
    let sig := if sign then [nonce, (Config.freeValue t.free).toNat] else []
    let block (i : Nat) : List Nat := i :: ((t.measure i).getD []).map (·.toNat)
    .all [Prog.when sign (.eff .drawFree),
      if index = 0 then spdm q 0x60 (measureIx.length :: sig)
      else if index = 0xFF then spdm q 0x60 (measureIx.flatMap block ++ sig)
      else match t.measure index with
        | some _ => spdm q 0x60 (block index ++ sig)
        | none => spdmError q 0x01]

/-! ### Sessions (R481, R484) -/

/-- SPDM_KEY_EXCHANGE: a session's handshake begins under the certificate of slot 0 or 1. -/
def execSpdmKeyExchange (q slot : Nat) (s : State) : Host.Outcome State Fault Refusal := run s <|
  agreed q fun t =>
    let x := t.spdm q
    let id := x.open_.foldl max 0 + 1
    if 1 < slot then spdmError q 0x01
    else if x.half.isSome then spdmError q 0x04
    else .all [setSpdm q { x with half := some id }, spdm q 0x64 [id, slot]]

/-- SPDM_FINISH: the handshake ends and the session is open; one that does not verify ends it. -/
def execSpdmFinish (q id : Nat) (ok : Bool) (s : State) : Host.Outcome State Fault Refusal := run s <|
  agreed q fun t =>
    let x := t.spdm q
    if x.half ≠ some id then spdmError q 0x04
    else if ¬ ok then .all [setSpdm q { x with half := none }, spdmError q 0x06]
    else .all [setSpdm q { x with half := none, open_ := x.open_ ++ [id] }, spdm q 0x65 [id]]

/-- SPDM_END_SESSION: an open session ends. -/
def execSpdmEndSession (q id : Nat) (s : State) : Host.Outcome State Fault Refusal := run s <|
  agreed q fun t =>
    let x := t.spdm q
    if ¬ x.open_.contains id then spdmError q 0x04
    else .all [setSpdm q { x with open_ := x.open_.filter (fun k => decide (k ≠ id)) }, spdm q 0x6C [id]]

/-- A CXL link that waits for its IDE keys, with a VALID peer entry and link keys (R445 step 7, R455, R479, R482).
[Marks: PRESUMED, log entry 31.] -/
def State.ideWaits (s : State) (p : Nat) : Bool :=
  s.ideOn p && decide ((s.port p).step = 7) && s.rb F.CROWN_PEER.VALID [p] && decide (s.r F.CROWN_LC_STATUS.LC_STATE [] = 1)

/-- SPDM_PSK_EXCHANGE (R481, R484): on the DOE mailbox of a CXL link that waits for its keys, the IDE session opens under the pre-shared key that follows from the nonces of the exchange. The switch is the requester on a ROLE 0 link and the responder on a ROLE 1 link,
where the algorithms must be agreed. Anywhere else the request is not supported.
[Marks: PRESUMED, log entry 31.] -/
def execSpdmPskExchange (q : Nat) (nonce : List Byte) (s : State) : Host.Outcome State Fault Refusal := run s <|
  onSpdm q fun t =>
    let p := q - 2
    let up := t.rb F.BRIM_OCTET.ROLE [p / 64, octetOf p]
    if q < 2 then spdmError q 0x07
    else if ¬ t.ideWaits p ∨ (up ∧ (t.spdm q).stage < 3) then spdmError q 0x04
    else
      let own := beBytes 32 (Config.nonce t.free).toNat
      .all [.eff .drawFree, onPort p (fun x => { x with ide := max 1 x.ide, nonce := own, prk := prkLink own nonce (t.linkZ p) }),
        spdm q (if up then 0x66 else 0xE6) (own.map (·.toNat))]

/-- IDE_KEY_PROG (R481): KEY_PROG inside the IDE session of a link programs its keys, and a link that waits for them comes up; outside the session it is refused under cause 0x609, and the link
stays down.
[Marks: PRESUMED, log entry 31.] -/
def execIdeKeyProg (p : Nat) (inSession : Bool) (s : State) : Host.Outcome State Fault Refusal := run s <|
  if 512 ≤ p ∨ ¬ s.ideOn p then .skip
  else if ¬ inSession ∨ (s.port p).ide = 0 then log { src := srcCrown, cause := 0x609, sev := 0, obj0 := p }
  else .all [onPort p (fun x => { x with ide := 2 }), Prog.when (decide ((s.port p).step = 7)) (linkTrained p)]

/-! ### The management port (R554) -/

/-- MGMT_MESSAGE (R554): a message of the management session with a manager key. One that fails its tag, or of a key that is not VALID, is dropped under cause 0x627; the others access the
registers as PF0 does. Sessions are accepted while HOST_MGMT_CTRL.EN is 1.
[Marks: DESIGN CHOICE, log entry 10; DESIGN CHOICE, log entry 49.] -/
def execMgmtMessage (key : Nat) (tagOk : Bool) (op : BarOp) (s : State) : Host.Outcome State Fault Refusal := run s <|
  if ¬ s.rb F.HOST_MGMT_CTRL.EN [] ∨ ¬ s.pins.pcycReqN then .skip
  else if 4 ≤ key ∨ ¬ tagOk ∨ ¬ s.rb F.HOST_MGMT_PEER.VALID [key] ∨ s.r F.CROWN_LC_STATUS.LC_STATE [] ≠ 1 then log { src := srcHost, cause := 0x627, sev := 1, obj0 := key }
  else match op with
    | .read off size => regRead (1 + key) off size (fun v => send (.mgmt key [v]))
    | .write off size v => regWrite (1 + key) off size v

end Sys2Proof.Machine
end

