-- ==== Sys2Proof/Machine/Dispatch.lean ====
section
/-! DEFINITION. The effect of each command: one arm per row of the table, each one direct call of that row's meaning. -/
namespace Sys2Proof.Machine
open Sys2Proof

/-- The effect of a command on everything but the queue. -/
def exec (i : Instr) (s : State) : Host.Outcome State Fault Refusal :=
  match i with
  | .registerWrite path op => Sys2Proof.Machine.execRegisterWrite path op s
  | .commitGo b => Sys2Proof.Machine.execCommitGo b s
  | .commitDiscard b => Sys2Proof.Machine.execCommitDiscard b s
  | .counterClear b => Sys2Proof.Machine.execCounterClear b s
  | .timeBroadcast errs => Sys2Proof.Machine.execTimeBroadcast errs s
  | .ppsFirstEdge f => Sys2Proof.Machine.execPpsFirstEdge f s
  | .ppsAlignTimeout f => Sys2Proof.Machine.execPpsAlignTimeout f s
  | .ppsEdge => Sys2Proof.Machine.execPpsEdge s
  | .ppsHoldoverTimeout => Sys2Proof.Machine.execPpsHoldoverTimeout s
  | .ppsOutRise => Sys2Proof.Machine.execPpsOutRise s
  | .ppsOutFall => Sys2Proof.Machine.execPpsOutFall s
  | .d2dCrcError n ok => Sys2Proof.Machine.execD2dCrcError n ok s
  | .d2dRetrainDone n ok => Sys2Proof.Machine.execD2dRetrainDone n ok s
  | .refclk156Lost => Sys2Proof.Machine.execRefclk156Lost s
  | .refclk100Lost => Sys2Proof.Machine.execRefclk100Lost s
  | .engPllLockLost d => Sys2Proof.Machine.execEngPllLockLost d s
  | .corePllLockLost die => Sys2Proof.Machine.execCorePllLockLost die s
  | .powerSample mw rails => Sys2Proof.Machine.execPowerSample mw rails s
  | .governorWindow => Sys2Proof.Machine.execGovernorWindow s
  | .issueCreditRefill => Sys2Proof.Machine.execIssueCreditRefill s
  | .tempReport d t => Sys2Proof.Machine.execTempReport d t s
  | .thermalTrip d => Sys2Proof.Machine.execThermalTrip d s
  | .engRailUndervolt n => Sys2Proof.Machine.execEngRailUndervolt n s
  | .powerLoss aux => Sys2Proof.Machine.execPowerLoss aux s
  | .powerOnBoot bootSel testMode slotId ref100 ref156 a b => Sys2Proof.Machine.execPowerOnBoot bootSel testMode slotId ref100 ref156 a b s
  | .modReset => Sys2Proof.Machine.execModReset s
  | .recoveryImageUpdate a b => Sys2Proof.Machine.execRecoveryImageUpdate a b s
  | .hostPerst low => Sys2Proof.Machine.execHostPerst low s
  | .crownResetSwitch => Sys2Proof.Machine.execCrownResetSwitch s
  | .switchReset f => Sys2Proof.Machine.execSwitchReset f s
  | .fenceHoldExpiry p => Sys2Proof.Machine.execFenceHoldExpiry p s
  | .pldmGetTid => Sys2Proof.Machine.execPldmGetTid s
  | .pldmGetPldmTypes => Sys2Proof.Machine.execPldmGetPldmTypes s
  | .pldmGetPldmCommands typ => Sys2Proof.Machine.execPldmGetPldmCommands typ s
  | .pldmGetPldmVersion typ => Sys2Proof.Machine.execPldmGetPldmVersion typ s
  | .pldmSensorRead m => Sys2Proof.Machine.execPldmSensorRead m s
  | .pldmFirmwareUpdate m => Sys2Proof.Machine.execPldmFirmwareUpdate m s
  | .activateFirmware => Sys2Proof.Machine.execActivateFirmware s
  | .preparePowerOff => Sys2Proof.Machine.execPreparePowerOff s
  | .spdmGetVersion q => Sys2Proof.Machine.execSpdmGetVersion q s
  | .spdmGetCapabilities q ver => Sys2Proof.Machine.execSpdmGetCapabilities q ver s
  | .spdmNegotiateAlgorithms q offered => Sys2Proof.Machine.execSpdmNegotiateAlgorithms q offered s
  | .spdmGetDigests q => Sys2Proof.Machine.execSpdmGetDigests q s
  | .spdmGetCertificate q slot off len => Sys2Proof.Machine.execSpdmGetCertificate q slot off len s
  | .spdmChallenge q slot nonce => Sys2Proof.Machine.execSpdmChallenge q slot nonce s
  | .spdmGetMeasurements q index nonce sign => Sys2Proof.Machine.execSpdmGetMeasurements q index nonce sign s
  | .spdmKeyExchange q slot => Sys2Proof.Machine.execSpdmKeyExchange q slot s
  | .spdmFinish q id ok => Sys2Proof.Machine.execSpdmFinish q id ok s
  | .spdmEndSession q id => Sys2Proof.Machine.execSpdmEndSession q id s
  | .spdmPskExchange q nonce => Sys2Proof.Machine.execSpdmPskExchange q nonce s
  | .ideKeyProg p inSession => Sys2Proof.Machine.execIdeKeyProg p inSession s
  | .mgmtMessage key tagOk op => Sys2Proof.Machine.execMgmtMessage key tagOk op s
  | .loglineRecord src => Sys2Proof.Machine.execLoglineRecord src s
  | .logExportDatagram n sent => Sys2Proof.Machine.execLogExportDatagram n sent s
  | .logSampleFree id => Sys2Proof.Machine.execLogSampleFree id s
  | .ctxWatchdogExpiry c => Sys2Proof.Machine.execCtxWatchdogExpiry c s
  | .engineWatchdogExpiry e => Sys2Proof.Machine.execEngineWatchdogExpiry e s
  | .partitionWatchdogExpiry p => Sys2Proof.Machine.execPartitionWatchdogExpiry p s
  | .switchWatchdogExpiry => Sys2Proof.Machine.execSwitchWatchdogExpiry s
  | .contextResetTimeout c => Sys2Proof.Machine.execContextResetTimeout c s
  | .engineResetTimeout e => Sys2Proof.Machine.execEngineResetTimeout e s
  | .fenceOverrun p => Sys2Proof.Machine.execFenceOverrun p s
  | .bootWatchdogExpiry => Sys2Proof.Machine.execBootWatchdogExpiry s
  | .mirrorLinkUp => Sys2Proof.Machine.execMirrorLinkUp s
  | .mirrorLinkDown partnerLost => Sys2Proof.Machine.execMirrorLinkDown partnerLost s
  | .mirrorAckTimeout partnerLost => Sys2Proof.Machine.execMirrorAckTimeout partnerLost s
  | .mirrorOctetLost => Sys2Proof.Machine.execMirrorOctetLost s
  | .mirrorFrameReceive seq ack body => Sys2Proof.Machine.execMirrorFrameReceive seq ack body s
  | .mirrorReplayTimer => Sys2Proof.Machine.execMirrorReplayTimer s
  | .mirrorUpdateAck n => Sys2Proof.Machine.execMirrorUpdateAck n s
  | .resyncComplete held => Sys2Proof.Machine.execResyncComplete held s
  | .mirrorAdopt => Sys2Proof.Machine.execMirrorAdopt s
  | .mirrorAdoptComplete copy => Sys2Proof.Machine.execMirrorAdoptComplete copy s
  | .mirrorClearLost => Sys2Proof.Machine.execMirrorClearLost s
  | .healthDecay => Sys2Proof.Machine.execHealthDecay s
  | .engFenceCommand => Sys2Proof.Machine.execEngFenceCommand s
  | .shadowCompare which mismatch => Sys2Proof.Machine.execShadowCompare which mismatch s
  | .mmaShadowSkip die => Sys2Proof.Machine.execMmaShadowSkip die s
  | .btpPacketReceive die port udpPort csumOk ce verify bytes => Sys2Proof.Machine.execBtpPacketReceive die port udpPort csumOk ce verify bytes s
  | .btpAck c epoch psn ackPsn sack => Sys2Proof.Machine.execBtpAck c epoch psn ackPsn sack s
  | .connOpen r => Sys2Proof.Machine.execConnOpen r s
  | .connClose r => Sys2Proof.Machine.execConnClose r s
  | .load r t far => Sys2Proof.Machine.execLoad r t far s
  | .store r => Sys2Proof.Machine.execStore r s
  | .atomic r t => Sys2Proof.Machine.execAtomic r t s
  | .trigger r => Sys2Proof.Machine.execTrigger r s
  | .bulkRead r t far => Sys2Proof.Machine.execBulkRead r t far s
  | .bulkWriteSegment r => Sys2Proof.Machine.execBulkWriteSegment r s
  | .nearOp r t tl src far => Sys2Proof.Machine.execNearOp r t tl src far s
  | .svcKvPut r => Sys2Proof.Machine.execSvcKvPut r s
  | .svcKvGet r => Sys2Proof.Machine.execSvcKvGet r s
  | .svcKvDel r => Sys2Proof.Machine.execSvcKvDel r s
  | .svcPsPush r => Sys2Proof.Machine.execSvcPsPush r s
  | .svcPsPull r => Sys2Proof.Machine.execSvcPsPull r s
  | .btpResponseReceive r => Sys2Proof.Machine.execBtpResponseReceive r s
  | .btpRetransmitTimer c psn => Sys2Proof.Machine.execBtpRetransmitTimer c psn s
  | .btpAckTimer c => Sys2Proof.Machine.execBtpAckTimer c s
  | .btpRequestTimeout t => Sys2Proof.Machine.execBtpRequestTimeout t s
  | .connClosingTimeout c => Sys2Proof.Machine.execConnClosingTimeout c s
  | .ecnRateInterval qp n => Sys2Proof.Machine.execEcnRateInterval qp n s
  | .routeDrainExpiry => Sys2Proof.Machine.execRouteDrainExpiry s
  | .gatewayGatherTimeout n => Sys2Proof.Machine.execGatewayGatherTimeout n s
  | .forwardedRequest r hops => Sys2Proof.Machine.execForwardedRequest r hops s
  | .roceRdmaWrite n port psn seg icrcOk ce data => Sys2Proof.Machine.execRoceRdmaWrite n port psn seg icrcOk ce data s
  | .roceRdmaReadRequest n port psn rkey va len icrcOk ce => Sys2Proof.Machine.execRoceRdmaReadRequest n port psn rkey va len icrcOk ce s
  | .roceUnsupportedRequest n port psn icrcOk ce => Sys2Proof.Machine.execRoceUnsupportedRequest n port psn icrcOk ce s
  | .roceAckReceive n port psn nak icrcOk => Sys2Proof.Machine.execRoceAckReceive n port psn nak icrcOk s
  | .roceCnpReceive n port icrcOk => Sys2Proof.Machine.execRoceCnpReceive n port icrcOk s
  | .mboxExtAdd slot => Sys2Proof.Machine.execMboxExtAdd slot s
  | .mboxExtRevoke slot => Sys2Proof.Machine.execMboxExtRevoke slot s
  | .mboxExtRelease slot => Sys2Proof.Machine.execMboxExtRelease slot s
  | .mboxExtQuery slot => Sys2Proof.Machine.execMboxExtQuery slot s
  | .mboxExtSetPolicy slot => Sys2Proof.Machine.execMboxExtSetPolicy slot s
  | .mboxExtRoute slot => Sys2Proof.Machine.execMboxExtRoute slot s
  | .mboxPageClear slot => Sys2Proof.Machine.execMboxPageClear slot s
  | .mboxTrayAttach slot dev => Sys2Proof.Machine.execMboxTrayAttach slot dev s
  | .mboxTrayDetach slot => Sys2Proof.Machine.execMboxTrayDetach slot s
  | .mboxStripeSetDefine slot => Sys2Proof.Machine.execMboxStripeSetDefine slot s
  | .mboxStripeSetRebuild slot => Sys2Proof.Machine.execMboxStripeSetRebuild slot s
  | .mboxConnCreate slot => Sys2Proof.Machine.execMboxConnCreate slot s
  | .mboxConnModify slot => Sys2Proof.Machine.execMboxConnModify slot s
  | .mboxConnDestroy slot => Sys2Proof.Machine.execMboxConnDestroy slot s
  | .mboxQpCreate slot => Sys2Proof.Machine.execMboxQpCreate slot s
  | .mboxQpDestroy slot => Sys2Proof.Machine.execMboxQpDestroy slot s
  | .mboxReservedOpcode slot => Sys2Proof.Machine.execMboxReservedOpcode slot s
  | .extentAddingComplete e => Sys2Proof.Machine.execExtentAddingComplete e s
  | .extentDrainTimeout e => Sys2Proof.Machine.execExtentDrainTimeout e s
  | .extentReleaseComplete e => Sys2Proof.Machine.execExtentReleaseComplete e s
  | .extentRecoveryComplete e maps => Sys2Proof.Machine.execExtentRecoveryComplete e maps s
  | .placementWindowExpiry => Sys2Proof.Machine.execPlacementWindowExpiry s
  | .pageMigrationStart p k => Sys2Proof.Machine.execPageMigrationStart p k s
  | .pageMigrationCopyDone p => Sys2Proof.Machine.execPageMigrationCopyDone p s
  | .pageMigrationVerifyDone p ok => Sys2Proof.Machine.execPageMigrationVerifyDone p ok s
  | .prefetchDeadline o => Sys2Proof.Machine.execPrefetchDeadline o s
  | .trayLost t => Sys2Proof.Machine.execTrayLost t s
  | .rebuildComplete k => Sys2Proof.Machine.execRebuildComplete k s
  | .trayCompletion t p e => Sys2Proof.Machine.execTrayCompletion t p e s
  | .demotionAppendComplete p ok => Sys2Proof.Machine.execDemotionAppendComplete p ok s
  | .journalAppendComplete t => Sys2Proof.Machine.execJournalAppendComplete t s
  | .journalAppendFailed t => Sys2Proof.Machine.execJournalAppendFailed t s
  | .journalPartnerAck t => Sys2Proof.Machine.execJournalPartnerAck t s
  | .journalAckTimeout t => Sys2Proof.Machine.execJournalAckTimeout t s
  | .checkpointComplete t => Sys2Proof.Machine.execCheckpointComplete t s
  | .mapPageReadComplete t m ok partner => Sys2Proof.Machine.execMapPageReadComplete t m ok partner s
  | .gcCopyComplete t ok => Sys2Proof.Machine.execGcCopyComplete t ok s
  | .gcVerifyComplete t ok => Sys2Proof.Machine.execGcVerifyComplete t ok s
  | .zoneResetComplete t z => Sys2Proof.Machine.execZoneResetComplete t z s
  | .zoneReadOnly t z => Sys2Proof.Machine.execZoneReadOnly t z s
  | .zoneOffline t z => Sys2Proof.Machine.execZoneOffline t z s
  | .cxlRdcurr port key => Sys2Proof.Machine.execCxlRdcurr port key s
  | .cxlRdshared port key => Sys2Proof.Machine.execCxlRdshared port key s
  | .cxlRdany port key => Sys2Proof.Machine.execCxlRdany port key s
  | .cxlRdown port key => Sys2Proof.Machine.execCxlRdown port key s
  | .cxlRdownnodata port key => Sys2Proof.Machine.execCxlRdownnodata port key s
  | .cxlItomwr port key data poison => Sys2Proof.Machine.execCxlItomwr port key data poison s
  | .cxlWrcur port key data poison => Sys2Proof.Machine.execCxlWrcur port key data poison s
  | .cxlWrinv port key data poison => Sys2Proof.Machine.execCxlWrinv port key data poison s
  | .cxlClflush port key => Sys2Proof.Machine.execCxlClflush port key s
  | .cxlCleanevict port key => Sys2Proof.Machine.execCxlCleanevict port key s
  | .cxlCleanevictnodata port key => Sys2Proof.Machine.execCxlCleanevictnodata port key s
  | .cxlDirtyevict port key data poison => Sys2Proof.Machine.execCxlDirtyevict port key data poison s
  | .cxlCacheflushed port => Sys2Proof.Machine.execCxlCacheflushed port s
  | .cxlSnoopResponse n l rsp data poison => Sys2Proof.Machine.execCxlSnoopResponse n l rsp data poison s
  | .cxlMemrd port key m => Sys2Proof.Machine.execCxlMemrd port key m s
  | .cxlMemrddata port key => Sys2Proof.Machine.execCxlMemrddata port key s
  | .cxlMemwr port key data poison => Sys2Proof.Machine.execCxlMemwr port key data poison s
  | .cxlMemclnevct port key => Sys2Proof.Machine.execCxlMemclnevct port key s
  | .cxlBiconflict port l => Sys2Proof.Machine.execCxlBiconflict port l s
  | .cxlMemspecrd port key => Sys2Proof.Machine.execCxlMemspecrd port key s
  | .cxlBirsp n l rsp => Sys2Proof.Machine.execCxlBirsp n l rsp s
  | .cxlUnlistedMessage port => Sys2Proof.Machine.execCxlUnlistedMessage port s
  | .snoopTimeout n l => Sys2Proof.Machine.execSnoopTimeout n l s
  | .livenessProbePeriod => Sys2Proof.Machine.execLivenessProbePeriod s
  | .agentLinkDown n => Sys2Proof.Machine.execAgentLinkDown n s
  | .agentLossWalkComplete n => Sys2Proof.Machine.execAgentLossWalkComplete n s
  | .hitchPoisonClear => Sys2Proof.Machine.execHitchPoisonClear s
  | .fullerAtomicHoldExpiry e t => Sys2Proof.Machine.execFullerAtomicHoldExpiry e t s
  | .fullerForwardHoldExpiry e => Sys2Proof.Machine.execFullerForwardHoldExpiry e s
  | .fullerMergedResponse e => Sys2Proof.Machine.execFullerMergedResponse e s
  | .progLoad view slot t far farBind => Sys2Proof.Machine.execProgLoad view slot t far farBind s
  | .progUnload view slot => Sys2Proof.Machine.execProgUnload view slot s
  | .progPlace view slot => Sys2Proof.Machine.execProgPlace view slot s
  | .ctxStop view slot => Sys2Proof.Machine.execCtxStop view slot s
  | .ctxResume view slot => Sys2Proof.Machine.execCtxResume view slot s
  | .ctxReset view slot => Sys2Proof.Machine.execCtxReset view slot s
  | .ctxFree view slot => Sys2Proof.Machine.execCtxFree view slot s
  | .svcEnable view slot => Sys2Proof.Machine.execSvcEnable view slot s
  | .svcDisable view slot => Sys2Proof.Machine.execSvcDisable view slot s
  | .svcDisableTimeout p => Sys2Proof.Machine.execSvcDisableTimeout p s
  | .progReservedOpcode view slot => Sys2Proof.Machine.execProgReservedOpcode view slot s
  | .windowZeroingComplete c => Sys2Proof.Machine.execWindowZeroingComplete c s
  | .iSAlu c => Sys2Proof.Machine.execISAlu c s
  | .iSCmp c => Sys2Proof.Machine.execISCmp c s
  | .iSLi c => Sys2Proof.Machine.execISLi c s
  | .iSGetl c => Sys2Proof.Machine.execISGetl c s
  | .iSSetl c => Sys2Proof.Machine.execISSetl c s
  | .iBr c => Sys2Proof.Machine.execIBr c s
  | .iBc c => Sys2Proof.Machine.execIBc c s
  | .iBp c => Sys2Proof.Machine.execIBp c s
  | .iBrL c => Sys2Proof.Machine.execIBrL c s
  | .iCall c => Sys2Proof.Machine.execICall c s
  | .iJr c => Sys2Proof.Machine.execIJr c s
  | .iHalt c => Sys2Proof.Machine.execIHalt c s
  | .iCapRd c => Sys2Proof.Machine.execICapRd c s
  | .iStRd c => Sys2Proof.Machine.execIStRd c s
  | .iStClr c => Sys2Proof.Machine.execIStClr c s
  | .iTimeRd c => Sys2Proof.Machine.execITimeRd c s
  | .iVIalu c => Sys2Proof.Machine.execIVIalu c s
  | .iVIcmp c => Sys2Proof.Machine.execIVIcmp c s
  | .iVMov c => Sys2Proof.Machine.execIVMov c s
  | .iPOp c => Sys2Proof.Machine.execIPOp c s
  | .iPCnt c => Sys2Proof.Machine.execIPCnt c s
  | .iVFalu c => Sys2Proof.Machine.execIVFalu c s
  | .iVFfma c => Sys2Proof.Machine.execIVFfma c s
  | .iVFcmp c => Sys2Proof.Machine.execIVFcmp c s
  | .iVFlong c => Sys2Proof.Machine.execIVFlong c s
  | .iMma c e => Sys2Proof.Machine.execIMma c e s
  | .iTileZero c => Sys2Proof.Machine.execITileZero c s
  | .iTileRdc c e => Sys2Proof.Machine.execITileRdc c e s
  | .iTileWrc c => Sys2Proof.Machine.execITileWrc c s
  | .iRedV c => Sys2Proof.Machine.execIRedV c s
  | .iRedTopk c => Sys2Proof.Machine.execIRedTopk c s
  | .iRedAdd c e => Sys2Proof.Machine.execIRedAdd c e s
  | .iGfGather c => Sys2Proof.Machine.execIGfGather c s
  | .iGfFilter c e => Sys2Proof.Machine.execIGfFilter c e s
  | .iLdS c e => Sys2Proof.Machine.execILdS c e s
  | .iStS c => Sys2Proof.Machine.execIStS c s
  | .iLdV c e => Sys2Proof.Machine.execILdV c e s
  | .iStV c => Sys2Proof.Machine.execIStV c s
  | .iLdVx c e => Sys2Proof.Machine.execILdVx c e s
  | .iStVx c => Sys2Proof.Machine.execIStVx c s
  | .iDma c e => Sys2Proof.Machine.execIDma c e s
  | .iPfPage c => Sys2Proof.Machine.execIPfPage c s
  | .iFabLd c => Sys2Proof.Machine.execIFabLd c s
  | .iFabSt c => Sys2Proof.Machine.execIFabSt c s
  | .iFabAtom c => Sys2Proof.Machine.execIFabAtom c s
  | .iFabAtomu c => Sys2Proof.Machine.execIFabAtomu c s
  | .iFabTrig c => Sys2Proof.Machine.execIFabTrig c s
  | .iFabBld c => Sys2Proof.Machine.execIFabBld c s
  | .iFabBst c e => Sys2Proof.Machine.execIFabBst c e s
  | .iFabNear c e => Sys2Proof.Machine.execIFabNear c e s
  | .iKnotBind c => Sys2Proof.Machine.execIKnotBind c s
  | .iKnotSig c => Sys2Proof.Machine.execIKnotSig c s
  | .iKnotArr c => Sys2Proof.Machine.execIKnotArr c s
  | .iKnotWait c => Sys2Proof.Machine.execIKnotWait c s
  | .iKnotTest c => Sys2Proof.Machine.execIKnotTest c s
  | .iCleatLook c v l => Sys2Proof.Machine.execICleatLook c v l s
  | .iChkCfg c e => Sys2Proof.Machine.execIChkCfg c e s
  | .iChkUpd c => Sys2Proof.Machine.execIChkUpd c s
  | .iChkApp c => Sys2Proof.Machine.execIChkApp c s
  | .iChkFin c => Sys2Proof.Machine.execIChkFin c s
  | .iChkRd c => Sys2Proof.Machine.execIChkRd c s
  | .iChkWr c => Sys2Proof.Machine.execIChkWr c s
  | .iCdcCard c e => Sys2Proof.Machine.execICdcCard c e s
  | .iCdcEncEncode c e => Sys2Proof.Machine.execICdcEncEncode c e s
  | .iCdcEncFormat c e => Sys2Proof.Machine.execICdcEncFormat c e s
  | .iCdcDec c e => Sys2Proof.Machine.execICdcDec c e s
  | .iCvt c => Sys2Proof.Machine.execICvt c s
  | .iVPack c => Sys2Proof.Machine.execIVPack c s
  | .iMxQ c => Sys2Proof.Machine.execIMxQ c s
  | .iMxDq c => Sys2Proof.Machine.execIMxDq c s
  | .fabOpComplete o => Sys2Proof.Machine.execFabOpComplete o s
  | .fabOpTimeout o => Sys2Proof.Machine.execFabOpTimeout o s
  | .dmaComplete o t tl es far => Sys2Proof.Machine.execDmaComplete o t tl es far s
  | .gatherFilterComplete o e => Sys2Proof.Machine.execGatherFilterComplete o e s
  | .checkValueComplete o e => Sys2Proof.Machine.execCheckValueComplete o e s
  | .codecRequestComplete o t tl es far => Sys2Proof.Machine.execCodecRequestComplete o t tl es far s
  | .codecBlockEncoded o t e far => Sys2Proof.Machine.execCodecBlockEncoded o t e far s
  | .knotWaitDeadline o => Sys2Proof.Machine.execKnotWaitDeadline o s
  | .knotSignalApply n => Sys2Proof.Machine.execKnotSignalApply n s
  | .knotArrivalApply o => Sys2Proof.Machine.execKnotArrivalApply o s
  | .knotWaitArrive o => Sys2Proof.Machine.execKnotWaitArrive o s
  | .knotStageRelease r => Sys2Proof.Machine.execKnotStageRelease r s
  | .knotRearm n => Sys2Proof.Machine.execKnotRearm n s
  | .knotClrFail n => Sys2Proof.Machine.execKnotClrFail n s
  | .knotQueuedLaunchStart part prog => Sys2Proof.Machine.execKnotQueuedLaunchStart part prog s
  | .collSeg r => Sys2Proof.Machine.execCollSeg r s
  | .collGenerationTimeout n => Sys2Proof.Machine.execCollGenerationTimeout n s
  | .collHoldExpiry n => Sys2Proof.Machine.execCollHoldExpiry n s
  | .collCloseComplete n => Sys2Proof.Machine.execCollCloseComplete n s
  | .collResultWriteComplete n => Sys2Proof.Machine.execCollResultWriteComplete n s
  | .attnReq r => Sys2Proof.Machine.execAttnReq r s
  | .retrReq r => Sys2Proof.Machine.execRetrReq r s
  | .workItemDispatch part attn => Sys2Proof.Machine.execWorkItemDispatch part attn s
  | .workItemComplete n t tl far e => Sys2Proof.Machine.execWorkItemComplete n t tl far e s
  | .cleatInsert set => Sys2Proof.Machine.execCleatInsert set s
  | .cleatRemove set => Sys2Proof.Machine.execCleatRemove set s
  | .cleatModify set => Sys2Proof.Machine.execCleatModify set s
  | .cleatFlushTag set => Sys2Proof.Machine.execCleatFlushTag set s
  | .cleatUpdateComplete set => Sys2Proof.Machine.execCleatUpdateComplete set s
  | .cleatEntryRestore tag lo restored => Sys2Proof.Machine.execCleatEntryRestore tag lo restored s
  | .clusterCleatFill cluster tag key => Sys2Proof.Machine.execClusterCleatFill cluster tag key s
  | .frameReceive port hdr => Sys2Proof.Machine.execFrameReceive port hdr s
  | .pauseFrameReceive port => Sys2Proof.Machine.execPauseFrameReceive port s
  | .frameLastCellWritten f bytes err => Sys2Proof.Machine.execFrameLastCellWritten f bytes err s
  | .egressSelection port ecc => Sys2Proof.Machine.execEgressSelection port ecc s
  | .respQueueHeadChange port => Sys2Proof.Machine.execRespQueueHeadChange port s
  | .portFlushComplete port => Sys2Proof.Machine.execPortFlushComplete port s
  | .laneSignalDetect p on => Sys2Proof.Machine.execLaneSignalDetect p on s
  | .portBringupStepDone p => Sys2Proof.Machine.execPortBringupStepDone p s
  | .portBringupTimeout p => Sys2Proof.Machine.execPortBringupTimeout p s
  | .portBringupRetry p => Sys2Proof.Machine.execPortBringupRetry p s
  | .keyExchangeFrame p frame => Sys2Proof.Machine.execKeyExchangeFrame p frame s
  | .keyExchangeTimeout p => Sys2Proof.Machine.execKeyExchangeTimeout p s
  | .macsecRekey p => Sys2Proof.Machine.execMacsecRekey p s
  | .portLinkDown p => Sys2Proof.Machine.execPortLinkDown p s
  | .linkErrorWindow p syms unc margins => Sys2Proof.Machine.execLinkErrorWindow p syms unc margins s
  | .reeqAdaptExpiry p => Sys2Proof.Machine.execReeqAdaptExpiry p s
  | .reeqCheckDone p ok => Sys2Proof.Machine.execReeqCheckDone p ok s
  | .pcieLinkTrained p lanes rate => Sys2Proof.Machine.execPcieLinkTrained p lanes rate s
  | .pcieTrainingTimeout p => Sys2Proof.Machine.execPcieTrainingTimeout p s
  | .pcieMarginCheck p margins => Sys2Proof.Machine.execPcieMarginCheck p margins s
  | .pciePeriodicRetrain p => Sys2Proof.Machine.execPciePeriodicRetrain p s
  | .pcieRecoveryComplete p => Sys2Proof.Machine.execPcieRecoveryComplete p s
  | .pcieRecoveryTimeout p => Sys2Proof.Machine.execPcieRecoveryTimeout p s
  | .ideCheckFail p => Sys2Proof.Machine.execIdeCheckFail p s
  | .hbmRetrain stack margin => Sys2Proof.Machine.execHbmRetrain stack margin s
  | .fenceOrderedSetReceive p b => Sys2Proof.Machine.execFenceOrderedSetReceive p b s
  | .partitionCreate p => Sys2Proof.Machine.execPartitionCreate p s
  | .partitionFence p => Sys2Proof.Machine.execPartitionFence p s
  | .partitionRemove p => Sys2Proof.Machine.execPartitionRemove p s
  | .fenceDrainExpiry p => Sys2Proof.Machine.execFenceDrainExpiry p s
  | .keyStateRecordDurable p => Sys2Proof.Machine.execKeyStateRecordDurable p s
  | .partitionScrubComplete p => Sys2Proof.Machine.execPartitionScrubComplete p s
  | .lcTransition lc tokenOk => Sys2Proof.Machine.execLcTransition lc tokenOk s
  | .debugUnlock tokenOk => Sys2Proof.Machine.execDebugUnlock tokenOk s
  | .debugAccess => Sys2Proof.Machine.execDebugAccess s
  | .fenceOrderedSetEnd p => Sys2Proof.Machine.execFenceOrderedSetEnd p s
  | .livenessProbeTimeout n => Sys2Proof.Machine.execLivenessProbeTimeout n s
  | .remoteFaultReceive p on => Sys2Proof.Machine.execRemoteFaultReceive p on s
  | .refclkRestored ref156 => Sys2Proof.Machine.execRefclkRestored ref156 s
  | .mirrorOctetReturn => Sys2Proof.Machine.execMirrorOctetReturn s

end Sys2Proof.Machine
end

