-- ==== Sys2Proof/Machine/Step.lean ====
section
/-! DEFINITION. One step of the switch: the command at the front of the queue takes effect, or, with none waiting, a cycle of CLK_CROWN passes. -/
namespace Sys2Proof.Machine
open Sys2Proof

/-- One step: the command at the front of the queue is run on the state with the queue's rest; on an empty queue the time counter and its shadows advance by one cycle (R37; log entry 1).
[Marks: DESIGN CHOICE, log entry 1; DESIGN CHOICE, log entry 9.] -/
def step (s : State) : Host.Outcome State Fault Refusal :=
  match s.pending with
  | [] => run s tick
  | c :: cs => exec c { s with pending := cs }

/-- The state with the command that a word spells at the front of its queue; unchanged where the word spells none.
[Marks: DESIGN CHOICE, log entry 5.] -/
def State.withFetchWord (s : State) (nbits w : Nat) : State :=
  match decodeTableWord nbits w with
  | none => s
  | some c => { s with pending := c :: s.pending }

end Sys2Proof.Machine
end

