-- ==== Sys2Proof/Safety.lean ====
section
/-! DEFINITION. What counts as a sound state of the switch: every table and memory in its one canonical form, so that equal contents are equal data, and every ring of the Logline and the sample
store within its size. And the terms in which statements say what a command did: the parts of the state it left, the records it wrote and the messages it sent. -/
namespace Sys2Proof.Machine
open Sys2Proof

/-- The memories are canonical: bytes of the pool, of engine scratch and of cluster memory, none listed that equals what an unlisted one reads as. -/
def State.memWf (s : State) : Bool := SMap.wf 0 s.pool.mem && SMap.wf 0 s.eng.scratch && SMap.wf 0 s.eng.clu

/-- The register file is in order of its keys: values in effect, staged values, latches and holds. -/
def State.regsWf (s : State) : Bool := SMap.rising s.regs.eff && SMap.rising s.regs.stg && SMap.rising s.regs.latch && SMap.rising s.regs.hold

/-- The tables of the pool are canonical. -/
def State.poolWf (s : State) : Bool :=
  SMap.wf {} s.pool.exts && SMap.wf {} s.pool.pages && SMap.wf false s.pool.poison && SMap.wf none s.pool.migs && SMap.wf none s.pool.trays &&
  SMap.wf none s.pool.sets && SMap.wf none s.pool.routes && SMap.wf {} s.pool.flash

/-- The tables of the transport engines, of the Hitch and the Fuller, and of the knot array are canonical. -/
def State.fabricWf (s : State) : Bool :=
  SMap.wf [] s.btp.respQs && SMap.wf 0 s.btp.peers && SMap.wf {} s.btp.conns && SMap.wf none s.btp.reqs && SMap.wf none s.btp.outs && SMap.wf {} s.btp.qps && SMap.wf none s.hitch.dir &&
  SMap.wf none s.hitch.txns && SMap.wf 0 s.hitch.probes && SMap.wf none s.hitch.combs && SMap.wf {} s.knots.kn && SMap.wf none s.knots.sigs

/-- The tables of the engines, of collectives and services, of the traffic manager and of the ports are canonical. -/
def State.unitsWf (s : State) : Bool :=
  SMap.wf {} s.eng.ctxs && SMap.wf none s.eng.progs && SMap.wf none s.eng.code && SMap.wf 128 s.eng.mcred && SMap.wf 128 s.eng.vcred &&
  SMap.wf none s.eng.ops && SMap.wf 0 s.eng.mmaCount && SMap.wf 0 s.eng.engs && SMap.wf {} s.eng.svc && SMap.wf {} s.fab.colls &&
  SMap.wf none s.fab.items && SMap.wf {} s.tm.qs && SMap.wf {} s.tm.ports && SMap.wf {} s.tm.pols && SMap.wf none s.tm.frms && SMap.wf {} s.ports &&
  SMap.wf [] s.cleat.caches

/-- The Logline keeps its sizes: 16,384 records on the Crown die, 1,048,576 in HBM, 1,024 of a partition (R495, R497), 256 and 1,024 samples (R504), and its tables are canonical. -/
def State.logWf (s : State) : Bool :=
  decide (s.log.crown.length ≤ crownCap) && decide (s.log.hbm.length ≤ hbmCap) && s.log.part.all (fun e => decide (e.2.length ≤ partCap)) &&
  decide (s.log.store.length ≤ 256) && decide (s.log.ovf.length ≤ 1024) && SMap.wf [] s.log.part && SMap.wf 0 s.log.partNext && SMap.wf 0 s.log.nums &&
  SMap.wf {} s.log.limits && SMap.wf [] s.log.ctxResets && SMap.wf [] s.log.engResets

/-- A sound state. -/
def State.wf (s : State) : Bool := s.memWf && s.regsWf && s.poolWf && s.fabricWf && s.unitsWf && s.logWf

/-! ### What a command did -/

/-- The parts of the state. -/
inductive Part where
  | regs | time | pins | power | d2d | log | cleat | pool | btp | hitch | knots | eng | fab | tm | ports | mir | boot | sent | nextId | free | pending
  deriving DecidableEq, Repr

/-- Two states agree on a part. -/
def Part.same (p : Part) (s t : State) : Prop :=
  match p with
  | .regs => s.regs = t.regs
  | .time => s.time = t.time
  | .pins => s.pins = t.pins
  | .power => s.power = t.power
  | .d2d => s.d2d = t.d2d
  | .log => s.log = t.log
  | .cleat => s.cleat = t.cleat
  | .pool => s.pool = t.pool
  | .btp => s.btp = t.btp
  | .hitch => s.hitch = t.hitch
  | .knots => s.knots = t.knots
  | .eng => s.eng = t.eng
  | .fab => s.fab = t.fab
  | .tm => s.tm = t.tm
  | .ports => s.ports = t.ports
  | .mir => s.mir = t.mir
  | .boot => s.boot = t.boot
  | .sent => s.sent = t.sent
  | .nextId => s.nextId = t.nextId
  | .free => s.free = t.free
  | .pending => s.pending = t.pending

/-- From s to t nothing changed outside some parts of the state. -/
def State.keeps (s t : State) (l : List Part) : Prop := ∀ p : Part, p ∉ l → p.same t s

/-- The records that units wrote from s to t, oldest first, as they stand on the way to the Crown die. -/
def State.records (s t : State) : List LogRec := t.log.wire.drop s.log.wire.length

/-- The causes of the records written from s to t. -/
def State.causes (s t : State) : List Nat := (s.records t).map (fun r => r.cause)

/-- The messages sent from s to t, newest first. -/
def State.newMsgs (s t : State) : List Msg := t.sent.take (t.sent.length - s.sent.length)

/-- A message is the response packet of a request on a connection, with a status (R50, R62). -/
def Msg.responds (m : Msg) (c tid status : Nat) : Prop :=
  ∃ net hdr ext data chk, m = .btp c net hdr ext data chk ∧ hdr.resp = true ∧ hdr.tid = tid ∧ hdr.status = status

/-- From s to t a switch reset has begun under a cause (R505 step 1): it is recorded, RESETTING is set and FAULT_N driven, and READY is cleared. -/
def State.resetBegins (s t : State) (cause : Nat) : Prop :=
  cause ∈ s.causes t ∧ t.r F.CROWN_FAULT_STATUS.RESETTING [] = 1 ∧ t.faultN = false ∧ t.r F.CROWN_BOOT_STATUS.READY [] = 0 ∧ ∃ x, t.boot.pend = some x ∧ x.cause = cause

/-- The packets that answer a request of a queue pair (R89, R90): an ACK, a NAK Remote Operational Error, or read data cut to the path MTU. -/
def roceResult (x : Qp) (q : Req) (status : Nat) (data : List Byte) : List RocePkt :=
  if status ≠ stOk then [.nak q.psn 3] else if q.op = 0x14 then (x.readPkts q.psn data).map (fun p => .read p.1 p.2) else [.ack q.psn]

/-- From s to t a request was answered at its source with a status and data (R58, R62, R89, R166): an operation of a program has its reply; on a connection each packet of the response is kept until it is
acknowledged; a queue pair gets its ACK or NAK, and an agent or port its CXL message. -/
def State.answered (s t : State) (q : Req) (status : Nat) (data : List Byte) : Prop :=
  match q.src with
  | .ctx _ o | .unit o => ∀ a, s.aop o = some a → a.reply = none → ∃ f, t.aop o = some { a with reply := some (status, data), fail := f }
  | .conn c => (s.conn c).st ≠ .free → (s.conn c).st ≠ .error → ∀ w ∈ respPackets q data,
      ∃ p ∈ (t.conn c).out, p.resp = true ∧ p.op = q.op ∧ p.tid = q.tid ∧ p.status = status ∧ p.ext = extBytes w.1 ∧ p.data = w.2.1
  | .qp n => ∀ p ∈ roceResult (s.qp n) q status data, roceMsg n p ∈ s.newMsgs t
  | .agent n => ∀ m ∈ cxlAnswer q status, Msg.cxl (s.agentPort n) m (q.addr % 2 ^ 52 / 64) data ∈ s.newMsgs t
  | .cxlPort p => ∀ m ∈ cxlAnswer q status, Msg.cxl p m (q.addr % 2 ^ 52 / 64) data ∈ s.newMsgs t
  | .coll _ _ | .tier => True

/-- A request ended: it left the tables and was answered (R62). -/
def State.ended (s t : State) (r : Nat) (q : Req) (status : Nat) (data : List Byte) : Prop := t.req r = none ∧ s.answered t q status data

/-- The link of a request's die does not retrain, and no store gathering of its source is open (R33, R91): performing it starts nothing else. -/
def State.clearPath (s : State) (q : Req) : Prop :=
  s.linkRuns q = true ∧ ∀ g ∈ s.btp.gathers, g.store = true → g.src.stream ≠ q.src.stream

/-- A request of an opcode is at its turn at its home (R76, R80): admitted, not waiting, no retry, and neither a request of its stream that it must follow nor, for a STORE, an earlier one to its
lines is open; its extent is neither COHERENT nor COMPRESSED. -/
def State.turn (s : State) (r op : Nat) (q : Req) (e : Nat) : Prop :=
  s.req r = some q ∧ q.op = op ∧ q.resp = false ∧ q.wait = .none ∧ q.retryOf = none ∧ q.got = [] ∧ q.dest = .home ∧ q.ext = some e ∧ s.inOrder r q = true ∧
    (op = 0x11 → s.storeFirst r q = true) ∧ s.clearPath q ∧
    (s.ext e).coherent = false ∧ (s.ext e).compressed = false

/-- n bytes of fabric memory read as given from s to t, and every other byte as before. -/
def State.wrote (s t : State) (a : Nat) (bs : List Byte) : Prop :=
  t.memBytes a bs.length = bs ∧ ∀ b, b < a ∨ a + bs.length ≤ b → SMap.get 0 t.pool.mem b = SMap.get 0 s.pool.mem b

/-- A command with an opcode is about to start in a mailbox slot: the Tier block is reachable and GO reads 0 (R17, R113, R530). -/
def State.mboxStarts (s : State) (slot op : Nat) : Prop :=
  slot < 8 ∧ s.reach 0x1005060 = true ∧ s.r F.TIER_MBOX.GO [slot] = 0 ∧ s.mbox slot 0 % 256 = op

/-- The same, and no EXT_ADD that is under way holds it up (R112). -/
def State.mboxReady (s : State) (slot op : Nat) : Prop := s.mboxStarts slot op ∧ s.mboxHeld slot = false

/-- From s to t the command of a mailbox slot completed with a result (R113): DONE is set and GO cleared. -/
def State.mboxEnds (s t : State) (slot res : Nat) : Prop :=
  t.time = s.time ∧ t.r F.TIER_MBOX.DONE [slot] = 1 ∧ t.r F.TIER_MBOX.GO [slot] = 0 ∧ t.r F.TIER_MBOX.RESULT [slot] = res

/-- An operation of ACTIVE agent n at a host address of its port meets line l of a COHERENT extent homed here, on which and beside which no transaction is open, and which is not poisoned (R163, R165, R170, R372). -/
def State.agentTurn (s : State) (port key n l : Nat) (op : CxlOp) : Prop :=
  s.agentOf port = some n ∧ s.portShut port = false ∧ s.agentSt n = agActive ∧ s.hitch.txns = [] ∧ s.hitch.stalls = [] ∧ s.hitch.ingress = [] ∧ SMap.get false s.pool.poison l = false ∧ (s.page (l * 64 / 2 ^ 21)).st ≠ .poisoned ∧
    s.fenced (s.agentPart n) = false ∧ s.r F.HITCH_CTRL.HITCH_EN [] = 1 ∧ s.r F.HITCH_WAYMASK.WAYS [s.agentPart n] ≠ 0 ∧ s.txnRoom (s.agentPart n) 1 = true ∧
    ∃ fa acc e e2, s.hostMap port key = some (fa, acc) ∧ fa / 64 = l ∧ acc &&& (if op.asOp = 0x11 then 2 else 1) = (if op.asOp = 0x11 then 2 else 1) ∧
      s.resolve { src := .agent n, op := op.asOp, part := s.agentPart n, addr := s.hall (fa / 64 * 64), len := 64 } (portTag port) 0x830 = .serve .home (some e) e2 ∧
      (s.ext e).coherent = true ∧ (s.ext e).part = s.agentPart n

/-- A command with an opcode is about to start in a program slot: of the Crown block (no view), or of the view of a partition that is not FREE; its GO reads 0 (R17, R211, R221, R528). -/
def State.slotReady (s : State) (view : Option Nat) (slot op : Nat) : Prop :=
  s.slotWord view slot 0 % 256 = op ∧
    match view with
    | none => slot < 4 ∧ s.r F.CROWN_PROG.GO [slot] = 0
    | some p => p < 16 ∧ slot < 2 ∧ s.partSt p ≠ ptFree ∧ s.r F.VIEW_PROG.GO [p, slot] = 0

/-- From s to t the command of a program slot completed with a result (R113, R212): DONE is set and GO cleared. -/
def State.slotEnds (s t : State) (view : Option Nat) (slot res : Nat) : Prop :=
  t.time = s.time ∧
    match view with
    | none => t.r F.CROWN_PROG.DONE [slot] = 1 ∧ t.r F.CROWN_PROG.GO [slot] = 0 ∧ t.r F.CROWN_PROG.RESULT [slot] = res
    | some p => t.r F.VIEW_PROG.DONE [p, slot] = 1 ∧ t.r F.VIEW_PROG.GO [p, slot] = 0 ∧ t.r F.VIEW_PROG.RESULT [p, slot] = res

/-- Word 1 of the response of a program slot. -/
def State.slotRsp (t : State) (view : Option Nat) (slot : Nat) : Nat :=
  match view with
  | none => t.r F.CROWN_PROG.RSP [slot, 1]
  | some p => t.r F.VIEW_PROG.RSP [p, slot, 1]

/-- Context c is the one that a context command of a slot names, and the slot may name it (R211, R215). -/
def State.slotCtx (s : State) (view : Option Nat) (slot c : Nat) : Prop :=
  bit (s.slotWord view slot 1) 16 = false ∧ s.slotWord view slot 1 % 4096 = c ∧ (view = none ∨ view = some (s.ctx c).part ∧ (s.ctx c).svc = false)

/-! ### Instructions -/

/-- Context c is about to issue instruction i of an opcode: READY with nothing that holds it back, its registers free and its pipe in credit (R198, R214, R216, R254, R256). -/
def State.atIns (s : State) (c op : Nat) (i : Ins) : Prop :=
  (s.ctx c).st = .ready ∧ (s.ctx c).halting = false ∧ (s.ctx c).zero = none ∧ (s.ctx c).svc = false ∧ (s.ctx c).xsvc = false ∧ s.engRuns c = true ∧
    s.fetch c = some i ∧ i.op = op ∧ s.regBusy c i = false ∧ s.creditOk c i = true

/-- From s to t only the engines changed, and there only context c, the credits and the order of issue: no byte of local memory and no operation in flight. -/
def State.onlyCtx (s t : State) (c : Nat) : Prop :=
  s.keeps t [.eng] ∧ (∀ d, d ≠ c → t.ctx d = s.ctx d) ∧ t.eng.scratch = s.eng.scratch ∧ t.eng.clu = s.eng.clu ∧ t.eng.ops = s.eng.ops ∧ t.eng.progs = s.eng.progs ∧ t.eng.code = s.eng.code

/-- From s to t context c retired instruction i, which left it as y: PC has moved past it (R198, R253), and nothing else changed. -/
def State.retired (s t : State) (c : Nat) (i : Ins) (y : Ctx) : Prop :=
  s.onlyCtx t c ∧ t.ctx c = { y with pc := y.pc + i.len, issuedAt := s.eng.order + 1, monAt := s.time.now }

/-- From s to t context c went to an address, left as y otherwise. -/
def State.branched (s t : State) (c : Nat) (y : Ctx) (a : Nat) : Prop := s.onlyCtx t c ∧ t.ctx c = { y with pc := a, issuedAt := s.eng.order + 1, monAt := s.time.now }

/-- From s to t context c faulted at its PC under a cause (R257): FAULTED with the status kept and recorded, PC and registers as they were; no other context, byte of local memory or operation changed. -/
def State.faults (s t : State) (c cause status : Nat) : Prop :=
  t.time = s.time ∧ t.ctx c = { s.ctx c with st := .faulted, last := status, halting := false, rid := s.nextRid (srcEng (ctxDie c)) } ∧ (∀ d, d ≠ c → t.ctx d = s.ctx d) ∧
    t.eng.scratch = s.eng.scratch ∧ t.eng.clu = s.eng.clu ∧ t.eng.ops = s.eng.ops ∧ s.causes t = [cause]

/-- A fault of context c leaves it FAULTED: it has no AUTO_REARM and its engine is not fenced (R214, R521). -/
def State.faultStays (s : State) (c : Nat) : Prop := (s.ctx c).autoRearm = false ∧ s.r F.CROWN_HEALTH.FENCED [ctxEng c] = 0

/-- An address is an instruction start of the program of context c (R254). -/
def State.startAt (s : State) (c : Nat) (a : Int) : Prop := ∃ p, SMap.get none s.eng.progs (s.ctx c).prog = some p ∧ 0 ≤ a ∧ a.toNat ∈ p.starts

/-- Scalar register r as a word. -/
def Ctx.sw (x : Ctx) (r : Nat) : Word := SMap.get 0 x.s r

/-- The second operand of a scalar instruction as a word (R251, R270). -/
def Ins.bw (i : Ins) (x : Ctx) : Word := if i.sbi then (BitVec.ofNat 16 i.imm).signExtend 64 else x.sw i.sb

/-- Lane l of vector register r. -/
def Ctx.lane (x : Ctx) (r l : Nat) : Nat := (x.vr r).getD l 0

/-- What the merge rule leaves of a context (R240): an active lane l of the destination takes f l, an inactive one keeps its value, or is 0 under MOD.Z. -/
def Ctx.merged (x : Ctx) (i : Ins) (dst : Nat) (f : Nat → Nat) : Ctx :=
  x.setV dst ((List.range 64).map (fun l => if bit (x.pr i.pg) l then f l else if i.z then 0 else x.lane dst l))

/-- The same of a predicate (R276). -/
def Ctx.mergedP (x : Ctx) (i : Ins) (dst : Nat) (f : Nat → Bool) : Ctx :=
  x.setP dst (((List.range 64).map (fun l => b2n (if bit (x.pr i.pg) l then f l else if i.z then false else bit (x.pr dst) l) * 2 ^ l)).sum)

/-- Lane l of the second operand of a vector instruction: of v[SB], or the immediate lane. -/
def Ins.laneB (i : Ins) (x : Ctx) (imm l : Nat) : Nat := if i.sbi then imm else x.lane i.sb l

/-- From s to t bytes were stored in local memory at a place, and every other byte of scratch and of cluster memory reads as before. -/
def State.localStored (s t : State) (p : Bool × Nat) (bs : List Byte) : Prop :=
  t.localBytes p bs.length = bs ∧ ∀ q : Bool × Nat, ¬ (q.1 = p.1 ∧ p.2 ≤ q.2 ∧ q.2 < p.2 + bs.length) → t.localBytes q 1 = s.localBytes q 1

/-- From s to t only the engines changed, and context c retired instruction i, which left it as y: local memory may have changed, no other context. -/
def State.retiredMem (s t : State) (c : Nat) (i : Ins) (y : Ctx) : Prop :=
  s.keeps t [.eng] ∧ t.ctx c = { y with pc := y.pc + i.len, issuedAt := s.eng.order + 1, monAt := s.time.now } ∧ (∀ d, d ≠ c → t.ctx d = s.ctx d) ∧ t.eng.ops = s.eng.ops

/-- The active lanes of a vector access at the addresses f are aligned and lie in windows of the context (R241, R242, R285). -/
def Ctx.lanesIn (x : Ctx) (c : Nat) (i : Ins) (f : Nat → Nat) : Prop := ∀ l, l < 64 → bit (x.pr i.pg) l = true → f l % 4 = 0 ∧ (x.locate c (f l) 4).isSome = true

/-- From s to t the active lanes of vs were stored at the addresses f, the highest lane where two have one address; every other byte of local memory reads as before (R285). -/
def State.lanesStored (s t : State) (c : Nat) (x : Ctx) (i : Ins) (f vs : Nat → Nat) : Prop :=
  (∀ l q, l < 64 → bit (x.pr i.pg) l = true → x.locate c (f l) 4 = some q → (∀ m, l < m → m < 64 → bit (x.pr i.pg) m = true → f m ≠ f l) → t.localBytes q 4 = leBytes 4 (vs l)) ∧
    ∀ q : Bool × Nat, (∀ l p, l < 64 → bit (x.pr i.pg) l = true → x.locate c (f l) 4 = some p → ¬ (q.1 = p.1 ∧ p.2 ≤ q.2 ∧ q.2 < p.2 + 4)) → t.localBytes q 1 = s.localBytes q 1

/-- Context y is x but for its tiles, whose element n reads as f n, or as before. -/
def Ctx.tilesTo (x y : Ctx) (f : Nat → Option Lane) : Prop := y = { x with a := y.a } ∧ ∀ n, SMap.get 0 y.a n = (f n).getD (SMap.get 0 x.a n)

/-- Element n of the accumulator tiles as row and column of tile t, where it lies there. -/
def tilePos (t n : Nat) : Option (Nat × Nat) := if 6144 * t ≤ n ∧ n < 6144 * t + 6144 then some ((n - 6144 * t) / 96, (n - 6144 * t) % 96) else none

/-- From s to t context c retired instruction i, left as y, with an asynchronous operation put in flight under the next number (R256, R258); no other context and no byte of local memory changed. -/
def State.launched (s t : State) (c : Nat) (i : Ins) (y : Ctx) (o : AOp) : Prop :=
  t.aop s.nextId = some { o with ctx := c, pc := (s.ctx c).pc, part := (s.ctx c).part, trap := i.trap } ∧ t.ctx c = { y with pc := y.pc + i.len, issuedAt := s.eng.order + 1, monAt := s.time.now } ∧
    (∀ d, d ≠ c → t.ctx d = s.ctx d) ∧ t.eng.scratch = s.eng.scratch ∧ t.eng.clu = s.eng.clu

/-- The same, and nothing outside the engines changed. -/
def State.unitHas (s t : State) (c : Nat) (i : Ins) (y : Ctx) (o : AOp) : Prop := s.keeps t [.eng, .nextId] ∧ s.launched t c i y o

/-- The completion knot of an instruction is bound, and its record, where it has one, lies aligned in the scratch window (R225, R259). -/
def Ctx.knotOk (x : Ctx) (c : Nat) (i : Ins) : Prop := (x.handle i.sc).bound = true ∧ ∀ a, i.recAddr x = some a → x.scratchFault c a 32 32 = none

/-- The operation that an instruction with a completion knot begins. -/
def Ins.opFor (i : Ins) (x : Ctx) (c : Nat) (kind : AKind) : AOp := { ctx := c, pc := x.pc, kind := kind, knot := some (x.handle i.sc).knot, crec := i.recAddr x }

/-- A request of instruction i of context c is well formed and passes the checks of R261, which send it on. -/
def State.passes (s : State) (c : Nat) (i : Ins) (q : Req) (f : Fld) (d : Where) (e e2 : Option Nat) : Prop :=
  q.badForm = none ∧ s.progVerdict c { q with part := (s.ctx c).part, ord := i.ord } f = .serve d e e2

/-- From s to t context c put operation o in flight and its request entered the tables under the same number, in the stream of the context (R245, R256, R261). -/
def State.asks (s t : State) (c : Nat) (i : Ins) (o : AOp) (q : Req) (d : Where) (e e2 : Option Nat) : Prop :=
  s.keeps t [.eng, .btp, .pool, .nextId] ∧ s.launched t c i (s.ctx c) { o with req := some s.nextId } ∧
    t.req s.nextId = some { q with src := .ctx c s.nextId, part := (s.ctx c).part, ord := i.ord, dest := d, ext := e, ext2 := e2, wait := .none }

/-- From s to t operation o ended with a status: it is gone, and its knot has a signal on its way (R256 to R258). -/
def State.opEnds (s t : State) (o : Nat) (p : AOp) (status : Nat) : Prop :=
  t.time = s.time ∧ t.aop o = none ∧ ∀ n, p.knot = some n → SMap.get none t.knots.sigs s.nextId = some { knot := n, status := status }

/-- An update set of the Cleat holds update u, about to start: the Felt block is reachable and GO reads 0 (R17, R377, R530). -/
def State.updReady (s : State) (set : Nat) (u : CleatOp) : Prop :=
  set ≤ 16 ∧ s.reach 0x1009000 = true ∧ s.updOp set = u ∧ s.updRead set F.CLEAT_UPD.GO F.VIEW_CLEAT_UPD.GO ≠ 1

/-- From s to t the update of a set completed with a result (R377). -/
def State.updEnds (s t : State) (set res : Nat) : Prop :=
  t.time = s.time ∧ t.updRead set F.CLEAT_UPD.GO F.VIEW_CLEAT_UPD.GO = 0 ∧ t.updRead set F.CLEAT_UPD.DONE F.VIEW_CLEAT_UPD.DONE = 1 ∧ t.updRead set F.CLEAT_UPD.RESULT F.VIEW_CLEAT_UPD.RESULT = res

/-- A table of the Cleat is in the order of {TAG, LO}, no entry is empty and no two meet (R368, R376). -/
def cleatSound (l : List CleatEnt) : Prop := (∀ e ∈ l, e.lo ≤ e.hi) ∧ l.Pairwise (fun a b => a.before b = true ∧ a.meets b = false)

/-- A request for a service of an opcode is at its turn (R76). -/
def State.serviceTurn (s : State) (r op : Nat) (q : Req) : Prop :=
  s.req r = some q ∧ q.op = op ∧ q.resp = false ∧ q.wait = .none ∧ q.retryOf = none ∧ s.inOrder r q = true ∧ s.clearPath q

/-- The watermark of rank k in a collective group (R313). -/
def Coll.mark (x : Coll) (k : Nat) : Nat := SMap.get 0 x.marks k

end Sys2Proof.Machine
end

