-- ==== Sys2Proof/Certificates/Slice0/Obligations.lean ====
section
/-! DEFINITION. The statements for the provers. Each says what a command, or a step of the switch, does, for every state and operands that meet its hypotheses; a sound state is one with `State.wf`. -/
open Sys2Proof Sys2Proof.Machine

/-! ### The machine as a whole -/

/-- One command takes effect per step, in the order of the queue: a step on a queue with c at its front is the meaning of c on the state with the queue's rest. -/
def Obligations.StepRunsFrontCommand : Prop :=
  ∀ (c : Instr) (cs : List Instr) (s : State), s.pending = c :: cs → step s = exec c { s with pending := cs }

/-- R37, by the model's choice of log entry 1: with no command waiting a step is one cycle of CLK_CROWN. The counter advances by 1 ns while the module is powered. A shadow that holds its value counts
down; every other advances by the periods of its own clock that end in it, so that value, fraction and phase together advance by exactly 1 ns. Nothing else changes. -/
def Obligations.IdleStepAdvancesTime : Prop :=
  ∀ s : State, s.pending = [] → ∃ t, step s = .next t ∧ s.keeps t [.time] ∧
    (s.pins.pwrgdAux = true ∧ s.pins.pwrgdMain = true → t.time.now = (s.time.now + 1) % 2 ^ 64 ∧ t.time.shadows.length = s.time.shadows.length ∧
      (∀ (i : Nat) (h : Shadow), s.time.shadows[i]? = some h → ∃ g, t.time.shadows[i]? = some g ∧
        g.phase = (h.phase + 120) % shadowPeriod i ∧ (0 < h.hold → g.val = h.val ∧ g.frac = h.frac ∧ g.hold = h.hold - 1) ∧
        (h.hold = 0 → g.hold = 0 ∧ g.val < 2 ^ 64 ∧ g.frac < 120 ∧
          (120 * g.val + g.frac + g.phase) % (120 * 2 ^ 64) = (120 * h.val + h.frac + h.phase + 120) % (120 * 2 ^ 64)))) ∧
    (s.pins.pwrgdAux = false ∨ s.pins.pwrgdMain = false → t = s)

/-- Every step keeps a sound state sound: memories and tables stay canonical and the rings of the Logline and the sample store stay within their sizes (R495, R497, R504). -/
def Obligations.StepKeepsSoundState : Prop :=
  ∀ s t : State, s.wf = true → step s = .next t → t.wf = true

/-- The state after power-on reset is sound.
Choices of the model in it: log entry 4. -/
def Obligations.ResetStateIsSound : Prop := State.reset.wf = true

/-- R5: no behaviour is left undefined. Every command on every state answers a next state, and leaves the commands that wait. -/
def Obligations.EveryCommandHasAnOutcome : Prop :=
  ∀ (c : Instr) (s : State), ∃ t, exec c s = .next t ∧ t.pending = s.pending

/-! ### Registers (R14 to R19, R527, R530) -/

/-- REGISTER_WRITE by the host takes effect by field types: TIME_CTRL's RW fields at once but for a reserved LOCK_NS (R15, R19); LOG_INT_STATUS's W1C bits that are written 1 clear; CROWN_PART_CFG's RWS fields are
staged and none takes effect (R16); a register of read-only and action bits stays; a narrow, misaligned or unreachable access is counted (R14, R530); a lower half of a 64-bit register is held and the write of its upper
half applies both, and a read of a lower half latches the upper one (R14); and no access of the host port takes effect while that port is down (R33, R527).
Choices of the model in it: log entries 10, 13, 22. -/
def Obligations.RegisterWriteActsByFieldType : Prop :=
  ∀ (s : State) (v : Nat), s.wf = true →
    (s.hostUp = true → ∃ t, exec (.registerWrite 0 (.write 0xb400 4 v)) s = .next t ∧ s.keeps t [.regs, .log, .time, .sent] ∧
      t.r F.TIME_CTRL.PPS_EN [] = bits v 0 1 ∧ t.r F.TIME_CTRL.PPS_OUT_EN [] = bits v 1 1 ∧
      t.r F.TIME_CTRL.LOCK_NS [] = (if bits v 2 10 = 0 then s.r F.TIME_CTRL.LOCK_NS [] else bits v 2 10) ∧ t.r F.TIME_CTRL.DELAY_NS [] = bits v 12 16) ∧
    (s.hostUp = true → ∃ t, exec (.registerWrite 0 (.write 0x8034 4 v)) s = .next t ∧ s.keeps t [.regs] ∧
      t.r F.LOG_INT_STATUS.CLASS [] = (s.r F.LOG_INT_STATUS.CLASS [] - (s.r F.LOG_INT_STATUS.CLASS [] &&& bits v 0 9)) % 2 ^ 9) ∧
    (s.hostUp = true → ∀ p < 16, ∃ t, exec (.registerWrite 0 (.write (0x4004 + 0x20 * p) 4 v)) s = .next t ∧ s.keeps t [.regs, .log] ∧
      (∀ f ix, t.r f ix = s.r f ix) ∧ t.stg F.CROWN_PART_CFG.KNOT_BASE [p] = bits v 0 16 ∧
      t.stg F.CROWN_PART_CFG.KNOT_COUNT [p] = (if bits v 16 15 ≤ 16384 then bits v 16 15 else s.stg F.CROWN_PART_CFG.KNOT_COUNT [p])) ∧
    (∀ path off o, s.hostUp = true → s.place path off = some o → s.badAccess off 4 o = false → wideAt o = false → (o % 8 = 4 → wideAt (o - 4) = false) →
      (∀ e ∈ fieldsAt o, e.1.ty = .ro ∨ e.1.ty = .w1s ∨ e.1.ty = .wo) → exec (.registerWrite path (.write off 4 v)) s = .next s) ∧
    (∀ path off size o, s.hostUp = true → s.place path off = some o → s.badAccess off size o = true → ∃ t, exec (.registerWrite path (.write off size v)) s = .next t ∧ s.keeps t [.regs] ∧
      t.r F.HOST_BAD_ACCESS_COUNT.COUNT [] = min (s.r F.HOST_BAD_ACCESS_COUNT.COUNT [] + 1) (2 ^ 32 - 1)) ∧
    (s.hostUp = true → ∃ t, exec (.registerWrite 0 (.write 0xb418 4 v)) s = .next t ∧ s.keeps t [.regs] ∧ (∀ f ix, t.r f ix = s.r f ix) ∧
      SMap.find t.regs.hold (pathKey 0 0xb418) = some (v % 2 ^ 32)) ∧
    (∀ l, s.hostUp = true → SMap.find s.regs.hold (pathKey 0 0xb418) = some l → l < 2 ^ 32 → ∃ t, exec (.registerWrite 0 (.write 0xb41c 4 v)) s = .next t ∧ s.keeps t [.regs] ∧
      t.r F.TIME_EPOCH_SEC.SEC [] = l + v % 2 ^ 32 * 2 ^ 32) ∧
    (s.hostUp = true → ∃ t, exec (.registerWrite 0 (.read 0xb410 4)) s = .next t ∧ s.keeps t [.regs, .sent] ∧ (∀ f ix, t.r f ix = s.r f ix) ∧
      s.newMsgs t = [.host 0 (s.time.now % 2 ^ 32)] ∧ SMap.find t.regs.latch (pathKey 0 0xb410) = some (s.time.now % 2 ^ 64 / 2 ^ 32)) ∧
    (∀ l, s.hostUp = true → SMap.find s.regs.latch (pathKey 0 0xb410) = some l → ∃ t, exec (.registerWrite 0 (.read 0xb414 4)) s = .next t ∧ s.keeps t [.regs, .sent] ∧
      (∀ f ix, t.r f ix = s.r f ix) ∧ s.newMsgs t = [.host 0 l] ∧ SMap.find t.regs.latch (pathKey 0 0xb410) = none) ∧
    (∀ path op, (path = 0 ∨ 8 ≤ path) → s.hostUp = false → exec (.registerWrite path op) s = .next s)

/-- COMMIT_GO, COMMIT_DISCARD and COUNTER_CLEAR (R532 to R534). A commit of the Fuller's block puts every staged value into effect, and DONE, RESULT 0 and SEQ show it, with vector 3 while the host port is up. A discard changes no value in effect and
leaves every staged copy of the block equal to it. A clear sets every counter of its block to 0 and changes no other field.
Choices of the model in it: log entry 19. -/
def Obligations.CommitDiscardAndClear : Prop :=
  (∀ s : State, s.wf = true → s.reach 0x1000000 = true → (∀ e ∈ s.taken .full, e.1.ty = .rws) →
    ∃ t, exec (.commitGo .full) s = .next t ∧ s.keeps t [.regs, .sent] ∧ (∀ e ∈ s.taken .full, t.r e.1 e.2.1 = e.2.2 % 2 ^ e.1.w) ∧
      t.r F.FULL_COMMIT.DONE [] = 1 ∧ t.r F.FULL_COMMIT.RESULT [] = 0 ∧ t.r F.FULL_COMMIT.SEQ [] = (s.r F.FULL_COMMIT.SEQ [] + 1) % 2 ^ 16 ∧ t.sent = (if s.hostUp = true then .msix 3 :: s.sent else s.sent)) ∧
  (∀ (b : Block) (s : State), s.wf = true → s.reach (blockOff b) = true → s.noCommit b = false → (∀ e ∈ s.taken b, s.r e.1 e.2.1 < 2 ^ e.1.w) →
    ∃ t, exec (.commitDiscard b) s = .next t ∧ s.keeps t [.regs, .knots] ∧ (∀ f ix, t.r f ix = s.r f ix) ∧ (∀ e ∈ s.taken b, t.stg e.1 e.2.1 = t.r e.1 e.2.1) ∧
      t.knots = { s.knots with kn := t.knots.kn } ∧ ∀ n, t.knot n = s.knot n ∨ t.knot n = { s.knot n with viewStage := false }) ∧
  (∀ (b : Block) (s : State), s.wf = true → s.reach (blockOff b) = true →
    ∃ t, exec (.counterClear b) s = .next t ∧ s.keeps t [.regs] ∧
      (∀ f ∈ blockCounters b, ∀ ix, (match b with | .brim d | .spl d => ix.headD 0 = d | _ => True) → ix ∈ s.listedIx f → t.r f ix = 0) ∧
      (∀ g jx, (∀ f ∈ blockCounters b, ∀ ix ∈ s.listedIx f, g.key jx ≠ f.key ix) → t.r g jx = s.r g jx))

/-! ### Time (R37, R38, R549 to R552) -/

/-- TIME_BROADCAST (R37, R38): the counter goes out and no shadow steps back; each that is less than 4 ns ahead lands at the counter, or holds within 4 ns of it until the counter catches up. -/
def Obligations.BroadcastBringsShadowsToTheCounter : Prop :=
  ∀ (errs : List Int) (s : State), ∃ t, exec (.timeBroadcast errs) s = .next t ∧ s.keeps t [.time, .sent] ∧ t.sent = .time s.time.now :: s.sent ∧
    t.time.now = s.time.now ∧ t.time.shadows.length = s.time.shadows.length ∧
    ∀ (i : Nat) (h : Shadow), s.time.shadows[i]? = some h → h.val ≤ s.time.now + 4 → s.time.now ≤ h.val + 4 →
      ∃ g, t.time.shadows[i]? = some g ∧ h.val ≤ g.val ∧ s.time.now ≤ g.val ∧ g.val ≤ s.time.now + 4 ∧ g.hold = g.val - s.time.now

/-- PPS_EDGE, PPS_HOLDOVER_TIMEOUT, PPS_OUT_RISE and PPS_OUT_FALL (R550 to R552). With PPS_EN, the first edge, or one 0.5 s or more after the last accepted one, is accepted: the phase error is e, the trim is FI - e / 8 - e / 2 within
its limit, and the state is LOCKED after four edges within LOCK_NS, else TRACKING. An earlier edge is counted and recorded under cause 0x753, and leaves the time base. 1.5 s without an accepted edge takes TRACKING or LOCKED to HOLDOVER with the
trim held at FI, under cause 0x750; PPS_OUT rises where the counter is within 2 ns of a whole second, and falls.
Choices of the model in it: log entry 15. -/
def Obligations.PpsEdgesSteerTheTimeBase : Prop :=
  (∀ s : State, s.wf = true → s.r F.TIME_CTRL.PPS_EN [] = 1 →
    (∀ c, s.time.edge = some c → s.time.now < c + 500000000 → ∃ t, exec .ppsEdge s = .next t ∧ s.keeps t [.regs, .log] ∧
      t.r F.TIME_STATUS.SPURIOUS [] = min (s.r F.TIME_STATUS.SPURIOUS [] + 1) (2 ^ F.TIME_STATUS.SPURIOUS.w - 1) ∧ s.causes t = [0x753]) ∧
    ((∀ c, s.time.edge = some c → c + 500000000 ≤ s.time.now) → s.r F.CROWN_CLK_STATUS.FALLBACK_OSC [] = 0 →
      ∀ (e fi : Int) (m : Nat), (s.time.now : Int) - s.r F.TIME_CTRL.DELAY_NS [] - e = m * 1000000000 → -500000000 < e → e < 500000000 →
        fi = s.time.fi - Int.tdiv e 8 → -(2 ^ 63 : Int) ≤ fi → fi < (2 ^ 63 : Int) →
        ∃ t, exec .ppsEdge s = .next t ∧ s.keeps t [.regs, .log, .time, .sent] ∧ t.time.edge = some s.time.now ∧ t.time.now = s.time.now ∧ t.time.fi = fi ∧
          t.time.f = max (-((min (s.r F.TIME_TRIM.TRIM_MAX_PPB []) 1000000 : Nat) : Int)) (min (fi - Int.tdiv e 2) ((min (s.r F.TIME_TRIM.TRIM_MAX_PPB []) 1000000 : Nat) : Int)) ∧
          t.r F.TIME_STATUS.STATE [] = (if e.natAbs ≤ s.r F.TIME_CTRL.LOCK_NS [] ∧ 3 ≤ s.time.inLock then 2 else 1) ∧
          s.causes t = (if e.natAbs ≤ s.r F.TIME_CTRL.LOCK_NS [] ∧ 3 ≤ s.time.inLock ∧ s.r F.TIME_STATUS.STATE [] ≠ 2 then [0x751] else []))) ∧
  (∀ s : State, s.wf = true →
    (s.r F.TIME_STATUS.STATE [] = 1 ∨ s.r F.TIME_STATUS.STATE [] = 2 → ∃ t, exec .ppsHoldoverTimeout s = .next t ∧ s.keeps t [.regs, .log, .time, .sent] ∧
      t.r F.TIME_STATUS.STATE [] = 3 ∧ t.time.f = clampTrim s.time.fi (s.r F.TIME_TRIM.TRIM_MAX_PPB []) ∧ t.time.fi = s.time.fi ∧ t.time.now = s.time.now ∧ s.causes t = [0x750]) ∧
    (s.r F.TIME_CTRL.PPS_OUT_EN [] = 1 → s.pins.ppsOut = false → (s.time.now + 2) % 1000000000 ≤ 4 → ∃ t, exec .ppsOutRise s = .next t ∧ s.keeps t [.pins, .sent] ∧
      t.pins = { s.pins with ppsOut := true } ∧ t.sent = .pin 3 true :: s.sent) ∧
    (s.pins.ppsOut = true → ∃ t, exec .ppsOutFall s = .next t ∧ s.keeps t [.pins, .sent] ∧ t.pins = { s.pins with ppsOut := false } ∧ t.sent = .pin 3 false :: s.sent))

/-! ### Power (R216, R545 to R547) -/

/-- POWER_SAMPLE, GOVERNOR_WINDOW and ISSUE_CREDIT_REFILL (R216, R546). A reading enters the window. At the end of a window of n readings the average P is against the limit L: over it D falls by the steps of STEP_W that the excess fills,
rounded up; more than HYST_W below it D rises by 1; a thermal throttle takes at least 1; D stays within DUTY_FLOOR and 64, goes to the compute dies, and cause 0x720 is recorded where D was at the floor and P over L.
Choices of the model in it: log entry 16. -/
def Obligations.GovernorHoldsTheLimit : Prop :=
  (∀ (mw : Nat) (rails : List Nat) (s : State), ∃ t, exec (.powerSample mw rails) s = .next t ∧ s.keeps t [.power] ∧ t.power.sum = s.power.sum + mw ∧ t.power.n = s.power.n + 1) ∧
  (∀ (s : State) (n sum l step hyst fl d k : Nat) (th : Bool), s.wf = true → s.power.n = n → 0 < n → s.power.sum = sum → s.r F.PWR_CTRL.GOV_EN [] = 1 → s.r F.PWR_CTRL.LIMIT_W [] = l →
    s.r F.PWR_LOOP.STEP_W [] = step → 0 < step → s.r F.PWR_LOOP.HYST_W [] = hyst → s.r F.PWR_CTRL.DUTY_FLOOR [] = fl → fl ≤ 64 → s.r F.PWR_STATUS.DUTY [] = d → s.rb F.PWR_STATUS.THROTTLE [] = th →
    (l * 1000 * n < sum → sum - l * 1000 * n ≤ k * (step * 1000 * n) ∧ ∀ j, sum - l * 1000 * n ≤ j * (step * 1000 * n) → k ≤ j) →
    ∃ t, exec .governorWindow s = .next t ∧ s.keeps t [.regs, .power, .log, .sent] ∧ t.power.n = 0 ∧ t.power.sum = 0 ∧ t.r F.PWR_STATUS.POWER_W [] = min 4095 (sum / (1000 * n)) ∧
      (t.r F.PWR_STATUS.DUTY [] : Int) = max (fl : Int) (min 64 ((d : Int) +
        (if l * 1000 * n < sum then -((max k 1 : Nat) : Int) else if th = true then -1 else if sum + hyst * 1000 * n < l * 1000 * n then 1 else 0))) ∧
      (.duty (t.r F.PWR_STATUS.DUTY []) ∈ s.newMsgs t) ∧ s.causes t = (if d = fl ∧ l * 1000 * n < sum then [0x720] else [])) ∧
  (∀ s : State, s.wf = true → ∃ t, exec .issueCreditRefill s = .next t ∧ s.keeps t [.eng] ∧
    ∀ e, SMap.get 128 t.eng.mcred e = min 128 (SMap.get 128 s.eng.mcred e + s.r F.PWR_STATUS.DUTY []) ∧
      SMap.get 128 t.eng.vcred e = min 128 (SMap.get 128 s.eng.vcred e + s.r F.PWR_STATUS.DUTY []))

/-- TEMP_REPORT (R547): a die's temperature shows in PWR_TEMP, a rise above its warning limit is recorded under 0x740, and a logic die's rise above throttle under 0x741 with the thermal throttle in force.
Choices of the model in it: log entry 16. -/
def Obligations.TemperatureLimitsAct : Prop :=
  ∀ (d v : Nat) (s : State), s.wf = true → d < 25 → v < 65536 → ∃ t, exec (.tempReport d v) s = .next t ∧ s.keeps t [.regs, .power, .log, .sent] ∧ t.r F.PWR_TEMP.TEMP [d] = v ∧
    (0x740 ∈ s.causes t ↔ s.warnAt d < v ∧ bit s.power.warm d = false) ∧
    (0x741 ∈ s.causes t ↔ d < 19 ∧ s.throttleAt < v ∧ bit s.power.hot d = false) ∧
    (d < 19 → s.throttleAt < v → bit s.power.hot d = false → t.r F.PWR_STATUS.THROTTLE [] = 1)

/-! ### Dies, links and clocks (R32, R33, R40, R545) -/

/-- D2D_CRC_ERROR and D2D_RETRAIN_DONE (R32, R33): a replay is counted; one that succeeds is recorded under 0x140, the sixteenth failure in a row starts a retrain. A retrain that succeeds is recorded under 0x141; one that fails loses
the link, and with it the compute die, the Brim die, the host die, or for the Crown's link to the Felt the switch is reset.
Choices of the model in it: log entry 56. -/
def Obligations.DieLinkReplayAndRetrain : Prop :=
  (∀ (n : Nat) (s : State), s.wf = true → n < 19 → n ∉ s.d2d.retraining → s.r F.CROWN_D2D_STATUS.LOST [n] = 0 →
    (∃ t, exec (.d2dCrcError n true) s = .next t ∧ s.keeps t [.regs, .d2d, .log] ∧ t.r F.CROWN_D2D_STATUS.REPLAY_COUNT [n] = min (s.r F.CROWN_D2D_STATUS.REPLAY_COUNT [n] + 1) 0xffff ∧
      (SMap.rising s.d2d.fails = true → SMap.get 0 t.d2d.fails n = 0) ∧ 0x140 ∈ s.causes t) ∧
    (∃ t, exec (.d2dCrcError n false) s = .next t ∧ s.keeps t [.regs, .d2d, .log] ∧ t.r F.CROWN_D2D_STATUS.REPLAY_COUNT [n] = min (s.r F.CROWN_D2D_STATUS.REPLAY_COUNT [n] + 1) 0xffff ∧
      (n ∈ t.d2d.retraining ↔ 15 ≤ SMap.get 0 s.d2d.fails n))) ∧
  (∀ (n : Nat) (s : State), s.wf = true → n < 19 → n ∈ s.d2d.retraining →
    (∃ t, exec (.d2dRetrainDone n true) s = .next t ∧ s.keeps t [.regs, .d2d, .log] ∧ n ∉ t.d2d.retraining ∧ 0x141 ∈ s.causes t) ∧
    (∃ t, exec (.d2dRetrainDone n false) s = .next t ∧ t.r F.CROWN_D2D_STATUS.LOST [n] = 1 ∧ t.time = s.time ∧
      (n < 8 → bit (t.r F.CROWN_DIE_STATUS.COMPUTE_ONLINE []) n = false) ∧ (8 ≤ n → n < 16 → bit (t.r F.CROWN_DIE_STATUS.BRIM_ONLINE []) (n - 8) = false) ∧
      (n = 16 → s.canReset = true → s.resetBegins t 0x144) ∧ (16 < n → t.r F.CROWN_DIE_STATUS.HOST_LINK_UP [] ≠ 1)))

/-- REFCLK_156_LOST, REFCLK_100_LOST, REFCLK_RESTORED, ENG_PLL_LOCK_LOST, CORE_PLL_LOCK_LOST and ENG_RAIL_UNDERVOLT (R40, R545): the status bits follow, the CLOCK fault is set, a compute die whose clock or rail fails is lost, and the
other losses start a switch reset in a switch that is ready; that of REFCLK_100 runs its steps 1 to 5, so that its record of class 7 has arrived, and holds every other domain in reset.
Choices of the model in it: log entries 51, 56. -/
def Obligations.ClockAndRailLossesAct : Prop :=
  ∀ s : State, s.wf = true →
    (s.r F.CROWN_CLK_STATUS.REF156_PRESENT [] = 1 → ∃ t, exec .refclk156Lost s = .next t ∧ t.time = s.time ∧ t.r F.CROWN_CLK_STATUS.REF156_PRESENT [] = 0 ∧ t.r F.CROWN_CLK_STATUS.BRIM_PLL_LOCK [] = 0 ∧
      t.r F.CROWN_FAULT_STATUS.CLOCK [] = 1 ∧ 0x710 ∈ s.causes t ∧ (s.canReset = true → s.resetBegins t 0x710)) ∧
    (s.r F.CROWN_CLK_STATUS.REF100_PRESENT [] = 1 → ∃ t, exec .refclk100Lost s = .next t ∧ t.time.now = s.time.now ∧ t.r F.CROWN_CLK_STATUS.REF100_PRESENT [] = 0 ∧ t.r F.CROWN_CLK_STATUS.FALLBACK_OSC [] = 1 ∧
      t.r F.TIME_STATUS.STATE [] = 3 ∧ t.r F.CROWN_FAULT_STATUS.CLOCK [] = 1 ∧ (s.canReset = false → 0x711 ∈ s.causes t) ∧
      (s.canReset = true → t.r F.CROWN_FAULT_STATUS.RESETTING [] = 1 ∧ t.faultN = false ∧ t.r F.CROWN_BOOT_STATUS.READY [] = 0 ∧ (∃ x, t.boot.pend = some x ∧ x.cause = 0x711) ∧
        bit (t.r F.LOG_INT_STATUS.CLASS []) 6 = true ∧ t.r F.CROWN_BOOT_STATUS.READY_BLOCKS [] = 0 ∧ t.r F.CROWN_DIE_STATUS.COMPUTE_ONLINE [] = 0 ∧ t.eng = {} ∧ t.btp = {})) ∧
    (s.r F.CROWN_CLK_STATUS.REF156_PRESENT [] = 0 → ∃ t, exec (.refclkRestored true) s = .next t ∧ s.keeps t [.regs] ∧ t.r F.CROWN_CLK_STATUS.REF156_PRESENT [] = 1) ∧
    (s.r F.CROWN_CLK_STATUS.REF100_PRESENT [] = 0 → ∃ t, exec (.refclkRestored false) s = .next t ∧ s.keeps t [.regs] ∧ t.r F.CROWN_CLK_STATUS.REF100_PRESENT [] = 1) ∧
    (∀ d < 8, bit (s.r F.CROWN_CLK_STATUS.ENG_PLL_LOCK []) d = true → bit (s.r F.CROWN_DIE_STATUS.COMPUTE_ONLINE []) d = true → ∃ t, exec (.engPllLockLost d) s = .next t ∧ t.time = s.time ∧
      bit (t.r F.CROWN_CLK_STATUS.ENG_PLL_LOCK []) d = false ∧ bit (t.r F.CROWN_DIE_STATUS.COMPUTE_ONLINE []) d = false ∧ t.r F.SPL_ENG_AVAIL.AVAIL [d] = 0 ∧ 0x712 ∈ s.causes t) ∧
    (s.r F.CROWN_CLK_STATUS.FELT_PLL_LOCK [] = 1 → ∃ t, exec (.corePllLockLost none) s = .next t ∧ t.time = s.time ∧ t.r F.CROWN_CLK_STATUS.FELT_PLL_LOCK [] = 0 ∧ 0x713 ∈ s.causes t ∧
      (s.canReset = true → s.resetBegins t 0x713)) ∧
    (∀ d < 8, bit (s.r F.CROWN_CLK_STATUS.BRIM_PLL_LOCK []) d = true → ∃ t, exec (.corePllLockLost (some d)) s = .next t ∧ t.time = s.time ∧
      bit (t.r F.CROWN_CLK_STATUS.BRIM_PLL_LOCK []) d = false ∧ 0x713 ∈ s.causes t ∧ (s.canReset = true → s.resetBegins t 0x713)) ∧
    (∀ d < 8, bit (s.r F.CROWN_DIE_STATUS.COMPUTE_ONLINE []) d = true → ∃ t, exec (.engRailUndervolt d) s = .next t ∧ t.time = s.time ∧
      bit (t.r F.CROWN_DIE_STATUS.COMPUTE_ONLINE []) d = false ∧ t.r F.SPL_ENG_AVAIL.AVAIL [d] = 0 ∧ 0x722 ∈ s.causes t)

/-- CROWN_RESET_SWITCH, SWITCH_WATCHDOG_EXPIRY, FENCE_OVERRUN and THERMAL_TRIP (R498, R500, R505, R547, R555) start a switch reset under their causes in a switch that is ready; without SW_EN the watchdog only records. -/
def Obligations.SwitchResetBegins : Prop :=
  ∀ s : State, s.wf = true → s.canReset = true →
    (∃ t, exec .crownResetSwitch s = .next t ∧ t.time = s.time ∧ s.resetBegins t 0x735) ∧
    (s.r F.CROWN_WDT_CTRL.SW_EN [] = 1 → ∃ t, exec .switchWatchdogExpiry s = .next t ∧ t.time = s.time ∧ s.resetBegins t 0x730) ∧
    (s.r F.CROWN_WDT_CTRL.SW_EN [] = 0 → ∃ t, exec .switchWatchdogExpiry s = .next t ∧ s.keeps t [.log] ∧ s.causes t = [0x730]) ∧
    (∀ p < 16, s.partSt p = ptFencing → ∃ t, exec (.fenceOverrun p) s = .next t ∧ t.time = s.time ∧ s.resetBegins t 0x731) ∧
    (∀ d < 25, s.pins.thermtripN = true → ∃ t, exec (.thermalTrip d) s = .next t ∧ t.time = s.time ∧ s.resetBegins t 0x742 ∧ t.pins.thermtripN = false ∧ t.r F.CROWN_FAULT_STATUS.THERMAL [] = 1)

/-! ### Boot, reset and power (R505, R536 to R545, R549) -/

/-- POWER_ON_BOOT, RECOVERY_IMAGE_UPDATE, PPS_FIRST_EDGE, PPS_ALIGN_TIMEOUT and SWITCH_RESET (R505, R536, R538, R549). At power-on the counter starts at 0, the straps show, and the Crown ROM runs the first slot that verifies, the other one
with FALLBACK, or none, in recovery, from which an image update leads on; TEST_MODE stops it at step 1. The first edge, the time-out of the wait for one and a switch reset end at the ready point: PHASE 8, READY 1, RESETTING 0 and record 0x732.
The first edge sets the counter to 0; a time-out and a switch reset let it run on.
Choices of the model in it: log entry 51. -/
def Obligations.BootReachesTheReadyPoint : Prop :=
  (∀ (s : State) (a b : SlotRead), s.wf = true → s.boot.pend = none →
    (∀ (bs tm : Bool) (id : Nat) (r1 r2 : Bool), s.r F.CROWN_BOOT_STATUS.READY [] = 0 → s.r F.CROWN_BOOT_STATUS.PHASE [] = 0 → s.r F.CROWN_FAULT_STATUS.RECOVERY [] = 0 →
      ∃ t, exec (.powerOnBoot bs tm id r1 r2 a b) s = .next t ∧ s.keeps t [.regs, .time, .pins, .boot, .log, .sent] ∧ t.time = {} ∧ t.pins.bootSel = bs ∧ t.pins.testMode = tm ∧
        t.r F.CROWN_BOOT_STATUS.SLOT_ID [] = id % 16 ∧ t.r F.CROWN_CLK_STATUS.REF100_PRESENT [] = b2n r1 ∧ t.r F.CROWN_CLK_STATUS.REF156_PRESENT [] = b2n r2 ∧
        (tm = true → t.r F.CROWN_BOOT_STATUS.PHASE [] = 1 ∧ s.causes t = [0x626]) ∧
        (tm = false → ∀ x y : SlotRead, (x, y) = (if s.boot.first.getD bs then (b, a) else (a, b)) →
          (s.slotOk x = true → t.r F.CROWN_BOOT_STATUS.PHASE [] = 4 ∧ t.r F.CROWN_BOOT_STATUS.SLOT [] = b2n (s.boot.first.getD bs) ∧ s.causes t = []) ∧
          (s.slotOk x = false → s.slotOk y = true → t.r F.CROWN_BOOT_STATUS.PHASE [] = 4 ∧ t.r F.CROWN_BOOT_STATUS.FALLBACK [] = 1 ∧
            t.r F.CROWN_BOOT_STATUS.SLOT [] = b2n !(s.boot.first.getD bs) ∧ 0x624 ∈ s.causes t) ∧
          (s.slotOk x = false → s.slotOk y = false → t.r F.CROWN_FAULT_STATUS.RECOVERY [] = 1 ∧ 0x625 ∈ s.causes t))) ∧
    (s.r F.CROWN_FAULT_STATUS.RECOVERY [] = 1 → s.slotOk a = true → s.slotOk b = true → ∃ t, exec (.recoveryImageUpdate a b) s = .next t ∧ s.keeps t [.regs, .boot, .sent] ∧
      t.r F.CROWN_FAULT_STATUS.RECOVERY [] = 0 ∧ t.r F.CROWN_BOOT_STATUS.PHASE [] = 4)) ∧
  (∀ (f : BootFacts) (s : State), s.wf = true → s.r F.CROWN_CLK_STATUS.REF100_PRESENT [] = 1 →
    (s.r F.CROWN_BOOT_STATUS.PHASE [] = 4 → s.time.aligned = false → ∃ t, exec (.ppsFirstEdge f) s = .next t ∧ t.time = { s.time with now := 0, edge := some 0, aligned := true, shadows := List.replicate 18 {} } ∧
      t.r F.CROWN_BOOT_STATUS.PHASE [] = 8 ∧ t.r F.CROWN_BOOT_STATUS.READY [] = 1 ∧ t.r F.CROWN_FAULT_STATUS.RESETTING [] = 0 ∧ 0x732 ∈ s.causes t) ∧
    (s.r F.CROWN_BOOT_STATUS.PHASE [] = 4 → ∃ t, exec (.ppsAlignTimeout f) s = .next t ∧ t.time = s.time ∧
      t.r F.CROWN_BOOT_STATUS.PHASE [] = 8 ∧ t.r F.CROWN_BOOT_STATUS.READY [] = 1 ∧ t.r F.CROWN_FAULT_STATUS.RESETTING [] = 0 ∧ 0x732 ∈ s.causes t) ∧
    (∀ x, s.boot.pend = some x → s.r F.CROWN_FAULT_STATUS.PCYCLE [] = 0 → s.pins.thermtripN = true → f.brimDigest = SMap.get 0 s.boot.meas 3 → f.storeDigest = SMap.get 0 s.boot.meas 4 →
      ∃ t, exec (.switchReset f) s = .next t ∧ t.time = s.time ∧ t.r F.CROWN_BOOT_STATUS.PHASE [] = 8 ∧ t.r F.CROWN_BOOT_STATUS.READY [] = 1 ∧ t.r F.CROWN_FAULT_STATUS.RESETTING [] = 0 ∧
        t.boot.pend = none ∧ t.regs.latch = [] ∧ t.regs.hold = [] ∧ t.eng.ctxs = [] ∧ t.btp.reqs = [] ∧ 0x732 ∈ t.log.wire.map (fun r => r.cause)))

/-- MOD_RESET, POWER_LOSS, HOST_PERST, BOOT_WATCHDOG_EXPIRY, ACTIVATE_FIRMWARE and PREPARE_POWER_OFF (R500, R527, R539, R541, R542, R545, R553).
Choices of the model in it: log entry 51. -/
def Obligations.PowerAndModuleEvents : Prop :=
  ∀ s : State, s.wf = true →
    (∃ t, exec .modReset s = .next t ∧ t.time = {} ∧ t.eng = {} ∧ t.log = {} ∧ t.pins.modResetN = false ∧ t.pins.pwrgdMain = s.pins.pwrgdMain ∧ t.r F.CROWN_BOOT_STATUS.READY [] = 0 ∧
      t.r F.CROWN_BOOT_STATUS.PHASE [] = 0 ∧ t.pool.mem = s.pool.mem ∧ t.boot.pend = none) ∧
    (∀ aux, ∃ t, exec (.powerLoss aux) s = .next t ∧ t.time = {} ∧ t.eng = {} ∧ t.log = {} ∧ t.pins.pwrgdMain = false ∧ t.pins.pwrgdAux = !aux ∧ t.pins.pcycReqN = true ∧
      t.r F.CROWN_BOOT_STATUS.READY [] = 0 ∧ t.r F.CROWN_BOOT_STATUS.PHASE [] = 0 ∧ t.boot.pend = none ∧ t.boot.hbm = false) ∧
    (∀ low, exec (.hostPerst low) s = .next { s with pins := { s.pins with hostPerstN := !low } }) ∧
    (s.r F.CROWN_BOOT_STATUS.READY [] = 0 → s.r F.CROWN_FAULT_STATUS.RECOVERY [] = 0 → s.r F.CROWN_BOOT_STATUS.PHASE [] ≠ 0 → s.pins.pcycReqN = true → s.r F.CROWN_WDT_CTRL.PWR_EN [] = 1 →
      ∃ t, exec .bootWatchdogExpiry s = .next t ∧ t.time = s.time ∧ t.pins.pcycReqN = false ∧ t.r F.CROWN_FAULT_STATUS.PCYCLE [] = 1 ∧ t.r F.CROWN_BOOT_STATUS.READY_BLOCKS [] = 0 ∧ 0x733 ∈ s.causes t) ∧
    (s.serves = true → s.boot.upd = 6 → s.r F.CROWN_WDT_CTRL.PWR_EN [] = 1 → ∃ t, exec .activateFirmware s = .next t ∧ t.time = s.time ∧ t.boot.upd = 0 ∧
      t.boot.first = some (decide (s.r F.CROWN_BOOT_STATUS.SLOT [] = 0)) ∧ t.pins.pcycReqN = false ∧ t.r F.CROWN_FAULT_STATUS.PCYCLE [] = 1) ∧
    (s.serves = true → s.canReset = true → s.r F.CROWN_WDT_CTRL.PWR_EN [] = 1 → ∃ t, exec .preparePowerOff s = .next t ∧ t.time = s.time ∧ t.pins.pcycReqN = false ∧
      t.r F.CROWN_FAULT_STATUS.PCYCLE [] = 1 ∧ (s.mirror ≠ mirPaired → t.r F.CROWN_MIRROR_STATUS.SOLO_MARK [] = 1))

/-! ### The mirrored pair (R444, R508 to R516) -/

/-- The mirrored pair (R444, R508 to R510, R514, R516). Its link: one that comes up starts RESYNC and sends the journal groups again that the partner has not acknowledged (R146); one that is lost leaves the pair SOLO; one octet of it lost runs it DEGRADED. Its stream: the next frame in sequence is applied to the copy
held and acknowledged, any other is acknowledged again, frames acknowledged are dropped, the rest go out again in order, and ACK_SEQ is one above the last update acknowledged. Its states: RESYNC_COMPLETE, MIRROR_ADOPT, MIRROR_ADOPT_COMPLETE and
MIRROR_CLEAR_LOST move them as the table says; an adoption whose survivor has lost the copy loses the domain (R515).
Choices of the model in it: log entry 50. -/
def Obligations.MirrorPairFollowsItsStatesAndStream : Prop :=
  (∀ (s : State) (p : Nat), s.wf = true → s.mirrorPort = some p → s.boot.pend = none →
    (s.link p = lkUp → s.r F.CROWN_MIRROR_CTRL.MIRROR_EN [] = 1 → s.mirror ≠ mirLost → s.mirror ≠ mirAdopting → ∃ t, exec .mirrorLinkUp s = .next t ∧ s.keeps t [.regs, .mir, .log, .sent] ∧
      t.mirror = mirResync ∧ t.mir.octs = 2 ∧ t.mir.rx = 0 ∧ t.mir.tx = (s.pool.flash.map (fun e => e.2.owed.length)).sum ∧ t.mir.out.map (·.1) = List.range t.mir.tx ∧
      (∀ e ∈ t.mir.out, ∃ n, e.2.2 = .flash n (s.flash n)) ∧ t.r F.CROWN_MIRROR_STATUS.OWN_COPY [] = 0 ∧ s.causes t = [0x880]) ∧
    (∀ b, 0 < s.mir.octs → s.mirror = mirPaired → ∃ t, exec (.mirrorLinkDown b) s = .next t ∧ t.time = s.time ∧ t.mirror = mirSolo ∧ 0x118 ∈ s.causes t ∧ 0x884 ∈ s.causes t ∧
      t.r F.CROWN_MIRROR_STATUS.HELD [] = (if s.mir.held = none then 0 else if b = true then 1 else 2)) ∧
    (∀ b, 0 < s.mir.octs → s.mirror = mirPaired → s.mir.out ≠ [] → ∃ t, exec (.mirrorAckTimeout b) s = .next t ∧ t.time = s.time ∧ t.mirror = mirSolo ∧ 0x118 ∈ s.causes t ∧ 0x884 ∈ s.causes t) ∧
    (s.mir.octs = 2 → ∃ t, exec .mirrorOctetLost s = .next t ∧ s.keeps t [.regs, .mir, .log] ∧ t.mir = { s.mir with octs := 1 } ∧ t.r F.BRIM_PORT.DEGRADED [p / 64, p % 64] = 1 ∧ 0x119 ∈ s.causes t) ∧
    (s.mir.octs = 1 → ∃ t, exec .mirrorOctetReturn s = .next t ∧ s.keeps t [.regs, .mir] ∧ t.mir = { s.mir with octs := 2 } ∧ t.r F.BRIM_PORT.DEGRADED [p / 64, p % 64] = 0)) ∧
  (∀ s : State, s.wf = true → 0 < s.mir.octs →
    (∀ seq ack n u, s.boot.pend = none → seq = s.mir.rx → ∃ t, exec (.mirrorFrameReceive seq ack (.update n u)) s = .next t ∧ s.keeps t [.mir, .sent] ∧ t.mir.rx = seq + 1 ∧
      (∃ d, t.mir.held = some d ∧ d.seq = n) ∧ t.mir.out = s.mir.out.filter (fun e => decide (ack ≤ e.1)) ∧ t.sent = .mirrorAck (seq + 1) :: s.sent) ∧
    (∀ seq ack n u, s.boot.pend = none → seq ≠ s.mir.rx → ∃ t, exec (.mirrorFrameReceive seq ack (.update n u)) s = .next t ∧ s.keeps t [.mir, .sent] ∧ t.mir.rx = s.mir.rx ∧
      t.mir.held = s.mir.held ∧ t.sent = .mirrorAck s.mir.rx :: s.sent) ∧
    (∃ t, exec .mirrorReplayTimer s = .next t ∧ s.keeps t [.sent] ∧ t.sent = (s.mir.out.map (fun e => Msg.mirror e.1 e.2.1 e.2.2)).reverse ++ s.sent) ∧
    (∀ n, s.mirror = mirPaired → s.r F.CROWN_MIRROR_ACK_SEQ.SEQ [] ≤ n → n ≤ s.r F.CROWN_MIRROR_TX_SEQ.SEQ [] → ∃ t, exec (.mirrorUpdateAck n) s = .next t ∧ s.keeps t [.regs] ∧
      t.r F.CROWN_MIRROR_ACK_SEQ.SEQ [] = (n + 1) % 2 ^ 64)) ∧
  (∀ s : State, s.wf = true →
    (∀ d, s.mirror = mirResync → ∃ t, exec (.resyncComplete (some d)) s = .next t ∧ s.keeps t [.regs, .mir, .log, .pool] ∧ t.pool = { s.pool with flash := t.pool.flash } ∧
      (∀ n, t.flash n = { s.flash n with owed := [], par := (s.flash n).map }) ∧ t.mirror = mirPaired ∧ t.mir.held = some d ∧
      t.r F.CROWN_MIRROR_STATUS.OWN_COPY [] = 1 ∧ t.r F.CROWN_MIRROR_STATUS.HELD [] = 1 ∧ t.r F.CROWN_MIRROR_STATUS.SOLO_MARK [] = 0 ∧ s.causes t = [0x881]) ∧
    (s.mirror = mirResync → s.boot.pend = none → ∃ t, exec (.resyncComplete none) s = .next t ∧ s.keeps t [.regs, .mir, .log] ∧ t.mirror = mirSolo ∧ s.causes t = [0x883, 0x884]) ∧
    (s.mirror = mirOff → ∃ t, exec .mirrorAdopt s = .next t ∧ s.keeps t [.regs] ∧ t.mirror = mirAdopting ∧ t.r F.CROWN_MIRROR_CTRL.ADOPT [] = 1) ∧
    (∀ d, s.mirror = mirAdopting → ∃ t, exec (.mirrorAdoptComplete (some d)) s = .next t ∧ t.time = s.time ∧ t.mirror = (if 0 < s.mir.octs then mirResync else mirSolo) ∧ t.r F.CROWN_MIRROR_CTRL.ADOPT [] = 0 ∧
      t.r F.CROWN_MIRROR_RESTORE_SEQ.SEQ [] = d.seq % 2 ^ 64 ∧ 0x885 ∈ s.causes t ∧ (if 0 < s.mir.octs then 0x880 else 0x884) ∈ s.causes t) ∧
    (s.mirror = mirAdopting → ∃ t, exec (.mirrorAdoptComplete none) s = .next t ∧ t.time = s.time ∧ t.mirror = mirLost ∧ t.r F.CROWN_MIRROR_CTRL.ADOPT [] = 0 ∧ 0x882 ∈ s.causes t ∧
      t.cleat.ents = [] ∧ ∀ e, (t.ext e).st = .free ∨ (t.ext e).st = .lost) ∧
    (s.mirror = mirLost → ∃ t, exec .mirrorClearLost s = .next t ∧ s.keeps t [.regs, .mir, .log] ∧ t.mirror = (if 0 < s.mir.octs then mirResync else mirSolo)))

/-- HEALTH_DECAY (R520): each score falls by the larger of 1 and S >> DECAY_SHIFT, not below 0. -/
def Obligations.HealthScoresDecay : Prop :=
  ∀ s : State, s.wf = true → (∀ n, s.r F.CROWN_HEALTH.SCORE [n] < 65536) → ∃ t, exec .healthDecay s = .next t ∧ s.keeps t [.regs] ∧
    ∀ n < 1112, t.r F.CROWN_HEALTH.SCORE [n] = s.r F.CROWN_HEALTH.SCORE [n] - max 1 (s.r F.CROWN_HEALTH.SCORE [n] / 2 ^ s.r F.CROWN_HEALTH_CFG.DECAY_SHIFT [])

/-! ### The Logline (R490 to R497, R504) -/

/-- LOGLINE_RECORD (R494, R495): the oldest record that a source has under way arrives: it takes the next SEQ at the head of the Crown ring, and its class bit is set; one that its rate limit holds back only counts.
Choices of the model in it: log entry 17. -/
def Obligations.RecordsArriveInTheOrderOfTheirSource : Prop :=
  ∀ (s : State) (pre post : List LogRec) (r : LogRec), s.wf = true → s.log.wire = pre ++ r :: post → (∀ x ∈ pre, x.src ≠ r.src) →
    (s.heldBack r = false → ∃ t q, exec (.loglineRecord r.src) s = .next t ∧ s.keeps t [.regs, .log, .sent] ∧ t.log.wire = pre ++ post ∧ t.log.seq = s.log.seq + 1 ∧
      t.log.crown = (q :: s.log.crown).take crownCap ∧ q.seq = s.log.seq ∧ q.cause = r.cause ∧ q.src = r.src ∧ q.time = r.time ∧ q.obj0 = r.obj0 ∧ q.status = r.status ∧
      (rateLimited r.cause = false → q = { r with seq := s.log.seq }) ∧
      (256 ≤ r.cause → r.cause < 2560 → bit (t.r F.LOG_INT_STATUS.CLASS []) (r.cause / 256 - 1) = true)) ∧
    (s.heldBack r = true → ∃ t, exec (.loglineRecord r.src) s = .next t ∧ s.keeps t [.log] ∧ t.log.wire = pre ++ post ∧ t.log.crown = s.log.crown ∧ t.log.seq = s.log.seq ∧
      (SMap.get {} t.log.limits (limitKey r.cause r.obj0)).held = min 0xffff ((SMap.get {} s.log.limits (limitKey r.cause r.obj0)).held + 1))

/-- LOG_EXPORT_DATAGRAM and LOG_SAMPLE_FREE (R496, R504): a datagram takes 1 to 16 of the waiting records, oldest first, under a header of 16 bytes with the switch's name, the sequence number of the first and their count; one that cannot be sent is counted. A sample that is freed is gone from the store.
Choices of the model in it: log entry 17. -/
def Obligations.ExportAndSampleStore : Prop :=
  (∀ (n : Nat) (r : LogRec) (rs : List LogRec) (s : State), s.wf = true → 1 ≤ n → n ≤ 16 → s.log.toExport.take n = r :: rs →
    (∃ t, exec (.logExportDatagram n true) s = .next t ∧ s.keeps t [.log, .sent] ∧ t.log = { s.log with toExport := s.log.toExport.drop n } ∧
      t.sent = .logExport s.exportDst (s.r F.LOG_EXPORT_PORT.UDP_PORT []) (beBytes 2 0x4C47 ++ beBytes 2 (swName (s.r F.FELT_STAGE.STAGE_ID []) (s.r F.FELT_STAGE.SWITCH_INDEX [])) ++
        beBytes 8 r.seq ++ beBytes 2 (rs.length + 1) ++ beBytes 2 0) (r :: rs) :: s.sent) ∧
    (∃ t, exec (.logExportDatagram n false) s = .next t ∧ s.keeps t [.regs, .log] ∧ t.log = { s.log with toExport := s.log.toExport.drop n } ∧
      t.r F.LOG_EXPORT_DROP_COUNT.COUNT [] = min (s.r F.LOG_EXPORT_DROP_COUNT.COUNT [] + 1) (2 ^ F.LOG_EXPORT_DROP_COUNT.COUNT.w - 1))) ∧
  (∀ (id : Nat) (s : State), s.wf = true → id < 65536 → ∃ t, exec (.logSampleFree id) s = .next t ∧ s.keeps t [.log] ∧ t.log.crown = s.log.crown ∧ t.log.wire = s.log.wire ∧
    (∀ m ∈ t.log.store ++ t.log.ovf, m.id ≠ id) ∧ (∀ m ∈ s.log.store ++ s.log.ovf, m.id ≠ id → m ∈ t.log.store ++ t.log.ovf))

/-! ### Management and attestation (R484, R485, R539, R554) -/

/-- The PLDM requests of R539 are answered while the module serves them: TID, types, commands and versions, a sensor's present reading, and the states of a firmware update as they follow each other. Message numbers and completion codes
are those of log entry 30. -/
def Obligations.PldmRequestsAreAnswered : Prop :=
  ∀ s : State, s.serves = true →
    (exec .pldmGetTid s = .next { s with sent := .pldm 0x02 [0, Config.terminusId] :: s.sent }) ∧
    (exec .pldmGetPldmTypes s = .next { s with sent := .pldm 0x04 [0, 0, 2, 5] :: s.sent }) ∧
    (∀ t ∈ [0, 2, 5], (∃ l, exec (.pldmGetPldmCommands t) s = .next { s with sent := .pldm 0x05 (0 :: l) :: s.sent } ∧ l ≠ []) ∧
      exec (.pldmGetPldmVersion t) s = .next { s with sent := .pldm 0x03 [0, Config.pldmData 0x03 t] :: s.sent }) ∧
    (exec (.pldmSensorRead .power) s = .next { s with sent := .pldm 0x211 [0, s.r F.PWR_STATUS.POWER_W []] :: s.sent }) ∧
    (∀ i < 19, exec (.pldmSensorRead (.rail i)) s = .next { s with sent := .pldm 0x211 [0, s.r F.PWR_RAIL.CURRENT [i]] :: s.sent }) ∧
    (∀ d < 25, exec (.pldmSensorRead (.temp d)) s = .next { s with sent := .pldm 0x211 [0, s.r F.PWR_TEMP.TEMP [d]] :: s.sent }) ∧
    (exec (.pldmSensorRead .bootPhase) s = .next { s with sent := .pldm 0x221 [0, s.r F.CROWN_BOOT_STATUS.PHASE []] :: s.sent }) ∧
    (exec (.pldmSensorRead .faults) s = .next { s with sent := .pldm 0x221 [0, s.faultWord] :: s.sent }) ∧
    (∀ (m : FwMsg) (a b : Nat), (m, a, b) ∈ [(FwMsg.requestUpdate, 0, 1), (.passTable true, 1, 2), (.updateComponent, 2, 3), (.transferComplete true, 3, 4), (.verifyComplete true, 4, 5),
        (.applyComplete true, 5, 6), (.cancelComponent, 3, 2), (.cancelUpdate, 6, 0)] → s.boot.upd = a →
      ∃ t c, exec (.pldmFirmwareUpdate m) s = .next t ∧ s.keeps t [.boot, .sent] ∧ t.boot = { s.boot with upd := b } ∧ t.sent = .pldm c [0] :: s.sent)

/-- The attestation responder (R481, R484, R485). GET_VERSION, GET_CAPABILITIES and NEGOTIATE_ALGORITHMS in this order agree the algorithms with a requester; before that, digests are refused. An agreed requester gets the SHA-384 digests of
its certificate chains, their bytes, a signed challenge and signed measurements, whose signatures are free values that are drawn anew. A handshake opens a session, FINISH that verifies completes it, END_SESSION ends it; on the mailbox of a CXL
link that waits for its keys PSK_EXCHANGE opens the IDE session under the key that follows from both nonces (R480) and KEY_PROG inside it programs the keys, and outside it is refused under cause 0x609. Codes are those of log entry 31. -/
def Obligations.SpdmServesItsRequesters : Prop :=
  (∀ (s : State) (q : Nat), SMap.rising s.boot.spdm = true → q < 514 → s.hostUp = true →
    (∃ t, exec (.spdmGetVersion q) s = .next t ∧ s.keeps t [.boot, .sent] ∧ t.spdm q = { stage := 1 } ∧ t.sent = .spdm 0x04 [q, 0x12, 0x13] :: s.sent) ∧
    ((s.spdm q).stage = 1 → ∃ t, exec (.spdmGetCapabilities q 0x13) s = .next t ∧ s.keeps t [.boot, .sent] ∧ t.spdm q = { s.spdm q with stage := 2, ver := 0x13 } ∧ ∃ f, t.sent = .spdm 0x61 [q, 0x13, f] :: s.sent) ∧
    ((s.spdm q).stage = 2 → ∃ t l, exec (.spdmNegotiateAlgorithms q true) s = .next t ∧ s.keeps t [.boot, .sent] ∧ t.spdm q = { s.spdm q with stage := 3 } ∧ t.sent = .spdm 0x63 (q :: l) :: s.sent) ∧
    ((s.spdm q).stage < 3 → exec (.spdmGetDigests q) s = .next { s with sent := .spdm 0x7F [q, 0x04] :: s.sent })) ∧
  (∀ (s : State) (q : Nat), q < 514 → s.hostUp = true → 3 ≤ (s.spdm q).stage →
    (exec (.spdmGetDigests q) s = .next { s with sent := .spdm 0x01 [q, 3, ofLe (sha384 (certChain 0)), ofLe (sha384 (certChain 1))] :: s.sent }) ∧
    (∀ slot off len, slot ≤ 1 → off < (certChain slot).length → ∃ v, exec (.spdmGetCertificate q slot off len) s = .next { s with sent := .spdm 0x02 v :: s.sent } ∧
      v = q :: slot :: min len ((certChain slot).length - off) :: ((certChain slot).length - off - len) :: (((certChain slot).drop off).take len).map (·.toNat)) ∧
    (∀ slot nonce, slot ≤ 1 → ∃ v, exec (.spdmChallenge q slot nonce) s = .next { s with free := s.free + 1, sent := .spdm 0x03 [q, slot, nonce, v] :: s.sent }) ∧
    (∀ nonce, ∃ v, exec (.spdmGetMeasurements q 5 nonce true) s = .next { s with free := s.free + 1, sent := .spdm 0x60 (q :: 5 :: s.securityState.map (·.toNat) ++ [nonce, v]) :: s.sent }) ∧
    (∀ nonce, exec (.spdmGetMeasurements q 0 nonce false) s = .next { s with sent := .spdm 0x60 [q, 21] :: s.sent })) ∧
  (∀ (s : State) (q : Nat), s.wf = true → SMap.rising s.boot.spdm = true → q < 514 → s.hostUp = true →
    (∀ slot, 3 ≤ (s.spdm q).stage → slot ≤ 1 → (s.spdm q).half = none → ∃ t id, exec (.spdmKeyExchange q slot) s = .next t ∧ s.keeps t [.boot, .sent] ∧ t.spdm q = { s.spdm q with half := some id } ∧
      (∀ k ∈ (s.spdm q).open_, k < id) ∧ t.sent = .spdm 0x64 [q, id, slot] :: s.sent) ∧
    (∀ id, 3 ≤ (s.spdm q).stage → (s.spdm q).half = some id → ∃ t, exec (.spdmFinish q id true) s = .next t ∧ s.keeps t [.boot, .sent] ∧
      t.spdm q = { s.spdm q with half := none, open_ := (s.spdm q).open_ ++ [id] } ∧ t.sent = .spdm 0x65 [q, id] :: s.sent) ∧
    (∀ id, 3 ≤ (s.spdm q).stage → id ∈ (s.spdm q).open_ → ∃ t, exec (.spdmEndSession q id) s = .next t ∧ s.keeps t [.boot, .sent] ∧ id ∉ (t.spdm q).open_ ∧ t.sent = .spdm 0x6C [q, id] :: s.sent) ∧
    (∀ p, q = p + 2 → s.ideWaits p = true → 3 ≤ (s.spdm q).stage → ∀ nonce : List Byte, ∃ t c v, exec (.spdmPskExchange q nonce) s = .next t ∧ s.keeps t [.ports, .sent, .free] ∧
      (t.port p).ide = max 1 (s.port p).ide ∧ v.length = 32 ∧ (t.port p).nonce = v ∧ (t.port p).prk = prkLink v nonce (s.linkZ p) ∧ t.free = s.free + 1 ∧ t.sent = .spdm c (q :: v.map (·.toNat)) :: s.sent) ∧
    (∀ p < 512, s.ideOn p = true → (s.port p).ide ≠ 0 → (s.port p).step ≠ 7 → ∃ t, exec (.ideKeyProg p true) s = .next t ∧ s.keeps t [.ports] ∧ (t.port p).ide = 2) ∧
    (∀ p < 512, s.ideOn p = true → ∃ t, exec (.ideKeyProg p false) s = .next t ∧ s.keeps t [.log] ∧ s.causes t = [0x609]))

/-- MGMT_MESSAGE (R14, R554): with the port enabled and no power-cycle request, a message of a VALID manager key accesses registers in its session's own path: a read of CROWN_FAULT_STATUS answers its word; one that fails its tag is dropped under cause 0x627.
Choices of the model in it: log entries 10, 49. -/
def Obligations.ManagementMessagesAccessRegisters : Prop :=
  ∀ (s : State) (key : Nat), s.wf = true → key < 4 → s.r F.HOST_MGMT_CTRL.EN [] = 1 → s.pins.pcycReqN = true → s.r F.HOST_MGMT_PEER.VALID [key] = 1 → s.r F.CROWN_LC_STATUS.LC_STATE [] = 1 →
    (exec (.mgmtMessage key true (.read 0x28 4)) s = .next { s with sent := .mgmt key [s.word 0x28] :: s.sent }) ∧
    (∀ v, v < 65536 → ∃ t, exec (.mgmtMessage key true (.write 0xa210 4 v)) s = .next t ∧ s.keeps t [.regs] ∧ t.r F.CROWN_HEALTH_WT_0.WEIGHT [] = v) ∧
    (∀ op, ∃ t, exec (.mgmtMessage key false op) s = .next t ∧ s.keeps t [.log] ∧ s.causes t = [0x627])

/-! ### The BTP transport (R47 to R84) -/

/-- BTP_PACKET_RECEIVE (R47, R50, R51, R65, R70, R81): a datagram to the BTP port with a bad checksum is counted and dropped, a short one and one of another version are recorded and dropped, and a LOAD in sequence on an OPEN connection advances
the receive sequence and is entered in the tables or answered.
Choices of the model in it: log entries 24, 25. -/
def Obligations.PacketsAreReceivedInSequence : Prop :=
  ∀ (die port : Nat) (bytes : List Byte) (s : State), s.wf = true → s.portShut (64 * die + port) = false → s.r F.BRIM_BTP_CTRL.BTP_EN [die] = 1 →
    (∀ v ce, ∃ t, exec (.btpPacketReceive die port (s.r F.BRIM_BTP_CTRL.UDP_PORT [die]) false ce v bytes) s = .next t ∧ s.keeps t [.regs] ∧
      t.r F.BRIM_BTP_DROP_COUNT.COUNT [die] = min (s.r F.BRIM_BTP_DROP_COUNT.COUNT [die] + 1) (2 ^ F.BRIM_BTP_DROP_COUNT.COUNT.w - 1)) ∧
    (∀ v ce, bytes.length < 24 → ∃ t, exec (.btpPacketReceive die port (s.r F.BRIM_BTP_CTRL.UDP_PORT [die]) true ce v bytes) s = .next t ∧ s.keeps t [.log] ∧ s.causes t = [0x803]) ∧
    (∀ v ce p, Pkt.parse bytes = some p → p.ver ≠ 2 → ∃ t, exec (.btpPacketReceive die port (s.r F.BRIM_BTP_CTRL.UDP_PORT [die]) true ce v bytes) s = .next t ∧ s.keeps t [.log] ∧ s.causes t = [0x802]) ∧
    (∀ p, Pkt.parse bytes = some p → p.ver = 2 → p.op = 0x10 → p.resp = false → p.chk = false → p.ackValid = false → p.sack = none → p.extN = 2 → p.words.length = 2 → retrySet 0x10 false p.words = false →
      p.plen ≤ 8192 → bytes.length = 40 + p.plen → (s.conn p.dst).st = .open → connDie p.dst = die → bit (s.conn p.dst).portSet port = true → (s.conn p.dst).chk = 0 → (s.conn p.dst).held = [] →
      p.psn = (s.conn p.dst).rxNext → p.psn < 2 ^ 32 → p.epoch = s.r F.FELT_ROUTE_EPOCH.CURRENT [] →
      ∃ t, exec (.btpPacketReceive die port (s.r F.BRIM_BTP_CTRL.UDP_PORT [die]) true false .confirmed bytes) s = .next t ∧ (t.conn p.dst).rxNext = (p.psn + 1) % 2 ^ 32 ∧ (t.conn p.dst).st = .open ∧
        ((∃ r q, t.req r = some q ∧ q.src = .conn p.dst ∧ q.tid = p.tid ∧ q.op = 0x10) ∨ ∃ o ∈ (t.conn p.dst).out, o.resp = true ∧ o.tid = p.tid ∧ o.op = 0x10))

/-- BTP_ACK, BTP_RETRANSMIT_TIMER and BTP_ACK_TIMER (R70 to R73): an ACK retires the packets up to its ACK_PSN; a packet whose timer expires is sent again under the same PSN and the current route epoch with its timer doubled, and beyond RETRY_LIMIT the
connection is in ERROR under cause 0x810; an ACK, due after a receipt, enters the response queue of the connection's port with ACK_PSN, its own next PSN, the route epoch, CREDIT and, where a gap stands, the SACK word, in a datagram with
ECT(0) whose source port is a hash with bit 15 set (R47, R48, R50, R55, R67).
Choices of the model in it: log entries 24, 25. -/
def Obligations.AcknowledgeAndRetransmit : Prop :=
  ∀ (c : Nat) (s : State), s.wf = true →
    (∀ a psn, (s.conn c).st = .open → s.r F.BRIM_BTP_CTRL.BTP_EN [connDie c] = 1 → newer32 a (((s.conn c).txNext + 2 ^ 32 - 1) % 2 ^ 32) = false → (∀ p ∈ (s.conn c).out, p.sacked = false) →
      ∃ t, exec (.btpAck c (s.r F.FELT_ROUTE_EPOCH.CURRENT []) psn a none) s = .next t ∧ s.keeps t [.btp] ∧ (t.conn c).out = (s.conn c).out.filter (fun p => newer32 p.psn a) ∧ (t.conn c).st = .open) ∧
    (∀ psn p, (s.conn c).out.find? (fun o => decide (o.psn = psn)) = some p → p.sacked = false → p.sends ≤ p.limit →
      ∃ t, exec (.btpRetransmitTimer c psn) s = .next t ∧ s.keeps t [.btp, .regs] ∧ ∃ o ∈ (t.conn c).out, o.psn = psn ∧ o.sends = p.sends + 1 ∧ o.data = p.data ∧ o.tid = p.tid ∧
        o.epoch = s.r F.FELT_ROUTE_EPOCH.CURRENT [] ∧ o.limit = s.r F.BRIM_BTP_TIMER.RETRY_LIMIT [connDie c] ∧ o.rto = min (2 * p.rto) (max (s.r F.BRIM_BTP_TIMER.RTO_MAX_US [connDie c]) (s.r F.BRIM_BTP_TIMER.RTO_INIT_US [connDie c]))) ∧
    (∀ psn p, (s.conn c).out.find? (fun o => decide (o.psn = psn)) = some p → p.sacked = false → p.limit < p.sends →
      ∃ t, exec (.btpRetransmitTimer c psn) s = .next t ∧ (t.conn c).st = .error ∧ t.time = s.time ∧ 0x810 ∈ s.causes t) ∧
    ((s.conn c).unacked ≠ 0 → (s.conn c).st = .open → ∃ t, exec (.btpAckTimer c) s = .next t ∧ s.keeps t [.btp, .regs] ∧ (t.conn c).unacked = 0 ∧ (t.conn c).rxNext = (s.conn c).rxNext ∧
      ∀ m, s.connPort c = some m → 80 ≤ s.mtu (connDie c) m → ∃ net hdr ext, t.respQ (64 * connDie c + m) = s.respQ (64 * connDie c + m) ++ [.btp c net hdr ext [] []] ∧
        hdr.op = 0x00 ∧ hdr.resp = false ∧ hdr.dst = (s.conn c).peerConn ∧ hdr.psn = (s.conn c).txNext ∧ hdr.ackPsn = (s.conn c).ackPsn ∧ hdr.ackValid = true ∧
        hdr.epoch = s.r F.FELT_ROUTE_EPOCH.CURRENT [] ∧ hdr.credit = s.credit c ∧ hdr.sack = (s.conn c).sack.isSome ∧ ext = extBytes (s.conn c).sack.toList ∧
        net.ecn = 2 ∧ 32768 ≤ net.udpSrc ∧ net.udpSrc < 65536 ∧ net.flow = net.udpSrc ∧ net.dst = (s.conn c).peerAddr ∧ net.udpDst = s.r F.BRIM_BTP_CTRL.UDP_PORT [connDie c])

/-- CONN_OPEN, CONN_CLOSE and CONN_CLOSING_TIMEOUT (R65, R66): the right token opens a CREATED connection and is answered OK, a wrong one leaves it CREATED and is answered ACCESS_DENIED under 0x830, and the sixteenth failed open moves the entry to ERROR; CLOSE makes an OPEN one CLOSING; 1 ms later it is FREE. -/
def Obligations.ConnectionsOpenAndClose : Prop :=
  ∀ (c : Nat) (s : State), s.wf = true →
    (∀ r q, s.req r = some q → q.src = .conn c → q.resp = false → q.op = 0x01 → (s.conn c).st = .created → q.data.length = 16 →
      (ofLe q.data = (s.conn c).token → ∃ t, exec (.connOpen r) s = .next t ∧ t.time = s.time ∧ (t.conn c).st = .open ∧ t.req r = none ∧ ∃ p ∈ (t.conn c).out, p.resp = true ∧ p.tid = q.tid ∧ p.status = stOk) ∧
      (ofLe q.data ≠ (s.conn c).token →
        ((s.conn c).badOpens < 15 → ∃ t, exec (.connOpen r) s = .next t ∧ t.time = s.time ∧ (t.conn c).st = .created ∧ (t.conn c).badOpens = (s.conn c).badOpens + 1 ∧ t.req r = none ∧ 0x830 ∈ s.causes t ∧
          ∃ p ∈ (t.conn c).out, p.resp = true ∧ p.tid = q.tid ∧ p.status = stDenied) ∧
        ((s.conn c).badOpens = 15 → ∃ t, exec (.connOpen r) s = .next t ∧ t.time = s.time ∧ (t.conn c).st = .error ∧ t.req r = none ∧ 0x830 ∈ s.causes t ∧
          ∀ m, s.connPort c = some m → 72 ≤ s.mtu (connDie c) m → ∃ x ∈ t.respQ (64 * connDie c + m), x.responds c q.tid stDenied))) ∧
    (∀ r q, s.req r = some q → q.src = .conn c → q.resp = false → q.op = 0x02 → (s.conn c).st = .open → ∃ t, exec (.connClose r) s = .next t ∧ t.time = s.time ∧ (t.conn c).st = .closing ∧ t.req r = none ∧
      ∃ p ∈ (t.conn c).out, p.resp = true ∧ p.tid = q.tid ∧ p.status = stOk) ∧
    ((s.conn c).st = .closing → ∃ t, exec (.connClosingTimeout c) s = .next t ∧ t.time = s.time ∧ t.conn c = {} ∧ ∀ e ∈ s.openOn c, t.req e.1 = none)

/-- BTP_RESPONSE_RECEIVE and BTP_REQUEST_TIMEOUT (R58, R74): a response with OK to a request that the switch has sent, other than a read, ends it and answers those it stands for; without a response it ends with TIMEOUT.
Choices of the model in it: log entry 26. -/
def Obligations.SentRequestsEnd : Prop :=
  ∀ (n : Nat) (o : OutReq) (s : State), s.wf = true → SMap.get none s.btp.outs n = some o → (∀ r ∈ o.owners, ∃ q, s.req r = some q ∧ q.resp = false) →
    (∀ r q, s.req r = some q → q.resp = true → q.src = .conn o.conn → s.outOf o.conn q.tid = some (n, o) → q.status = stOk → o.op ≠ 0x14 →
      ∃ t, exec (.btpResponseReceive r) s = .next t ∧ t.time = s.time ∧ t.req r = none ∧ SMap.get none t.btp.outs n = none ∧ ∀ k ∈ o.owners, t.req k = none) ∧
    (∃ t, exec (.btpRequestTimeout n) s = .next t ∧ t.time = s.time ∧ SMap.get none t.btp.outs n = none ∧ ∀ k ∈ o.owners, t.req k = none)

/-- ECN_RATE_INTERVAL and ROUTE_DRAIN_EXPIRY (R48, R81): after a 10 µs interval with a CE mark the send rate is halved, down to 1/64 of port rate, and without one it rises by 1/16; DRAIN_US after a commit of the epoch the previous route map is no longer usable. -/
def Obligations.RatesAndRouteDrain : Prop :=
  ∀ (n : Nat) (s : State), s.wf = true →
    ((s.conn n).st ≠ .free → ∃ t, exec (.ecnRateInterval false n) s = .next t ∧ s.keeps t [.btp] ∧
      t.conn n = { s.conn n with ce := false, rate := if (s.conn n).ce = true then max 1 ((s.conn n).rate / 2) else min 64 ((s.conn n).rate + 4) }) ∧
    ((s.qp n).live = true → ∃ t, exec (.ecnRateInterval true n) s = .next t ∧ s.keeps t [.btp] ∧ t.qp n = { s.qp n with rate := min 64 ((s.qp n).rate + 4) }) ∧
    (exec .routeDrainExpiry s = .next { s with btp := { s.btp with prevMap := false, prevRoutes := [] } })

/-! ### Memory requests at their home (R59 to R61, R76, R130) -/

/-- LOAD and BULK_READ (R59): a read at its turn of pages that are neither held nor POISONED, in tiers whose links carry traffic (R451), is answered OK with the bytes of memory, and leaves memory as it is. -/
def Obligations.ReadsReturnMemory : Prop :=
  ∀ (s : State) (r e : Nat) (q : Req) (far : List Byte), s.wf = true → q.addr % 2 ^ 52 + q.len ≤ 2 ^ 52 →
    (∀ p ∈ pagesOf (q.addr % 2 ^ 52) q.len, s.readHeld p = false ∧ (s.page p).st ≠ .poisoned) → s.poisoned (q.addr % 2 ^ 52) q.len = [] → s.mapMisses [(s.ext e, q.addr % 2 ^ 52, q.len)] = [] → s.rangeWaits (s.ext e) (q.addr % 2 ^ 52) q.len false = false →
    (s.turn r 0x10 q e → s.leads r = none → s.combinable r q = false → ∃ t, exec (.load r .ok far) s = .next t ∧ t.pool.mem = s.pool.mem ∧ t.time = s.time ∧ s.ended t r q stOk (s.memBytes (q.addr % 2 ^ 52) q.len)) ∧
    (s.turn r 0x14 q e → ∃ t, exec (.bulkRead r .ok far) s = .next t ∧ t.pool.mem = s.pool.mem ∧ t.time = s.time ∧ s.ended t r q stOk (s.memBytes (q.addr % 2 ^ 52) q.len))

/-- STORE and BULK_WRITE_SEGMENT (R57, R59): a write at its turn that its pages can take puts its bytes in memory and no other; the store, and the transfer with its last segment, are answered OK. -/
def Obligations.WritesStoreTheirBytes : Prop :=
  ∀ (s : State) (r e : Nat) (q : Req), s.wf = true →
    (s.turn r 0x11 q e → q.data ≠ [] → s.writeAcc (s.ext e) (q.addr % 2 ^ 52) q.data.length false = .ok →
      ∃ t, exec (.store r) s = .next t ∧ t.time = s.time ∧ s.wrote t (q.addr % 2 ^ 52) q.data ∧ s.ended t r q stOk []) ∧
    (∀ o bs rest, s.turn r 0x15 q e → q.segs = (o, bs) :: rest → bs ≠ [] → s.writeAcc (s.ext e) (q.addr % 2 ^ 52 + o) bs.length false = .ok →
      ∃ t, exec (.bulkWriteSegment r) s = .next t ∧ t.time = s.time ∧ s.wrote t (q.addr % 2 ^ 52 + o) bs ∧
        (q.placed + bs.length = q.want → t.req r = none) ∧ (q.placed + bs.length ≠ q.want → t.req r = some { q with segs := rest, placed := q.placed + bs.length }))

/-- ATOMIC (R60): an integer atomic at its turn stores ADD, AND, OR, XOR, SWAP, CAS, and the signed or unsigned MIN and MAX of the old value and the operand at its width, and returns the old value. -/
def Obligations.AtomicsApplyTheirOperation : Prop :=
  ∀ (s : State) (r e : Nat) (q : Req) (old A B new : Nat), s.wf = true → s.turn r 0x12 q e → s.leads r = none → s.combinable r q = false → q.asize = 4 ∨ q.asize = 8 → q.atype ≤ 1 →
    s.poisoned (q.addr % 2 ^ 52) q.asize = [] → s.readAcc (s.ext e) (q.addr % 2 ^ 52) q.asize .ok = .ok → s.writeAcc (s.ext e) (q.addr % 2 ^ 52) q.asize false = .ok → s.mapMisses [(s.ext e, q.addr % 2 ^ 52, q.asize)] = [] →
    old = ofLe (s.memBytes (q.addr % 2 ^ 52) q.asize) → A = q.opA % 2 ^ (8 * q.asize) → B = q.opB % 2 ^ (8 * q.asize) →
    (q.atop = 0 ∧ new = (old + A) % 2 ^ (8 * q.asize)) ∨ (q.atop = 1 ∧ q.atype = 0 ∧ new = min old A) ∨ (q.atop = 2 ∧ q.atype = 0 ∧ new = max old A) ∨
      (q.atop = 1 ∧ q.atype = 1 ∧ (new = old ∨ new = A) ∧ sext (8 * q.asize) new = min (sext (8 * q.asize) old) (sext (8 * q.asize) A)) ∨
      (q.atop = 2 ∧ q.atype = 1 ∧ (new = old ∨ new = A) ∧ sext (8 * q.asize) new = max (sext (8 * q.asize) old) (sext (8 * q.asize) A)) ∨
      (q.atop = 3 ∧ new = old &&& A) ∨ (q.atop = 4 ∧ new = old ||| A) ∨ (q.atop = 5 ∧ new = old ^^^ A) ∨ (q.atop = 6 ∧ new = A) ∨ (q.atop = 7 ∧ new = if old = B then A else old) →
    ∃ t, exec (.atomic r .ok) s = .next t ∧ t.time = s.time ∧ s.wrote t (q.addr % 2 ^ 52) (leBytes q.asize new) ∧ s.ended t r q stOk (leBytes q.asize old)

/-! ### Near-pool operations, triggers and combining (R61, R91, R109, R110, R130 to R132, R183 to R189, R350 to R356) -/

/-- NEAR_OP that writes (R130): FILL, COPY between ranges that do not meet, and ACCUMULATE at their turn put their result in the destination and no other byte, and are answered OK. The pages of the destination lie in the hot tier. -/
def Obligations.NearWritesStoreTheirResult : Prop :=
  ∀ (s : State) (r e tl : Nat) (q : Req) (src : Bool) (far : FarSource) (bs : List Byte), s.wf = true → s.turn r 0x16 q e → q.placed = 0 → 64 ≤ q.len → q.len % 64 = 0 → q.addr % 64 = 0 → q.opA % 64 = 0 ∨ q.nearFn = 1 → (s.ext e).prot = 0 →
    (∀ p ∈ pagesOf (q.addr % 2 ^ 52) q.len, (s.page p).st = .valid ∧ s.readHeld p = false ∧ s.pageHeld p = false ∧ ∃ f, (s.page p).place = .hot f none) → s.poisoned (q.addr % 2 ^ 52) q.len = [] →
    (q.nearFn ≠ 1 → (s.ext (q.ext2.getD e)).coherent = false ∧ (s.extAt (q.opA % 2 ^ 52)).isSome = true ∧ s.poisoned (q.opA % 2 ^ 52) q.len = [] ∧
      s.mapMisses [(s.ext (q.ext2.getD e), q.opA % 2 ^ 52, q.len)] = [] ∧ s.rangeWaits (s.ext (q.ext2.getD e)) (q.opA % 2 ^ 52) q.len false = false ∧
      (q.addr % 2 ^ 52 + q.len ≤ q.opA % 2 ^ 52 ∨ q.opA % 2 ^ 52 + q.len ≤ q.addr % 2 ^ 52) ∧
      ∀ p ∈ pagesOf (q.opA % 2 ^ 52) q.len, (s.page p).st ≠ .poisoned ∧ s.readHeld p = false ∧ s.pageHeld p = false) →
    (q.nearFn = 1 ∧ bs = (List.range (q.len / 8)).flatMap (fun _ => leBytes 8 q.opA)) ∨ (q.nearFn = 2 ∧ bs = s.memBytes (q.opA % 2 ^ 52) q.len) ∨
      (q.nearFn = 5 ∧ (q.asize = 4 ∨ q.asize = 8) ∧ bs = (List.range (q.len / q.asize)).flatMap (fun i => leBytes q.asize (atomApply q.atop q.asize q.atype
        (ofLe (s.memBytes (q.addr % 2 ^ 52 + q.asize * i) q.asize)) (ofLe (s.memBytes (q.opA % 2 ^ 52 + q.asize * i) q.asize)) 0))) →
    ∃ t, exec (.nearOp r .ok tl src far) s = .next t ∧ t.time = s.time ∧ s.wrote t (q.addr % 2 ^ 52) bs ∧ s.ended t r q stOk []

/-- NEAR_OP that reads and TRIGGER (R61, R130, R131, R355, R356): COMPARE answers the first offset that differs, REDUCE the reduction, and memory stays; a trigger to the launch slot of an ACTIVE knot launches the instance that has been parked longest with
the knot in s5, the source in s6, the length in s7 and the argument in v0, or waits in the queue. -/
def Obligations.NearReadsAndTriggers : Prop :=
  ∀ (s : State) (r : Nat) (q : Req), s.wf = true →
    (∀ e tl src far, s.turn r 0x16 q e → s.mapMisses (s.nearReads e q) = [] → (∀ y ∈ s.nearReads e q, s.rangeWaits y.1 y.2.1 y.2.2 false = false) → 64 ≤ q.len → s.poisoned (q.addr % 2 ^ 52) q.len = [] → (s.ext (q.ext2.getD e)).coherent = false →
      (∀ p ∈ pagesOf (q.addr % 2 ^ 52) q.len, (s.page p).st ≠ .poisoned ∧ s.readHeld p = false ∧ s.pageHeld p = false) →
      (q.nearFn = 3 → (s.extAt (q.opA % 2 ^ 52)).isSome = true → s.poisoned (q.opA % 2 ^ 52) q.len = [] →
        (∀ p ∈ pagesOf (q.opA % 2 ^ 52) q.len, (s.page p).st ≠ .poisoned ∧ s.readHeld p = false ∧ s.pageHeld p = false) →
        ∃ t, exec (.nearOp r .ok tl src far) s = .next t ∧ t.time = s.time ∧ t.pool.mem = s.pool.mem ∧
          s.ended t r q stOk (leBytes 8 (firstDiff (s.memBytes (q.addr % 2 ^ 52) q.len) (s.memBytes (q.opA % 2 ^ 52) q.len)))) ∧
      (q.nearFn = 4 → ∃ t, exec (.nearOp r .ok tl src far) s = .next t ∧ t.time = s.time ∧ t.pool.mem = s.pool.mem ∧
        s.ended t r q stOk (leBytes q.asize (q.reduce (s.memBytes (q.addr % 2 ^ 52) q.len))))) ∧
    (∀ n, s.req r = some q → q.op = 0x13 → q.resp = false → q.wait = .none → q.retryOf = none → s.inOrder r q = true → s.clearPath q → q.dest = .knotWin → s.slotOf (q.addr % 2 ^ 52) = some (n, 0x40) →
      (s.knot n).held.contains (.req r) = false → s.knotPart n = some q.part → q.data.length ≤ 64 → (s.knot n).st = .active → s.r F.KNOT.TRIG_EN [n] = 1 → s.hasInstance q.part (s.r F.KNOT.TRIG_PROG [n]) = true →
      (∀ c, s.parked q.part (s.r F.KNOT.TRIG_PROG [n]) = some c → ∃ t, exec (.trigger r) s = .next t ∧ t.time = s.time ∧ t.pool.mem = s.pool.mem ∧ s.ended t r q stOk [] ∧ (t.ctx c).st = .ready ∧
        (t.ctx c).pc = s.entryOf (s.ctx c) ∧ (t.ctx c).sr 5 = n % 2 ^ 64 ∧ (t.ctx c).sr 6 = (match q.src with | .conn k => k % 65536 | .ctx k _ => 65536 + k % 65536 | _ => 0) ∧
        (t.ctx c).sr 7 = q.data.length ∧ (t.ctx c).vr 0 = (argLanes q.data).map (fun w => w % 2 ^ 32)) ∧
      (s.parked q.part (s.r F.KNOT.TRIG_PROG [n]) = none → s.knots.launches.length < 4096 →
        s.knots.launches.countP (fun l => l.part = q.part) < s.r F.KNOT_LAUNCH.MAX_QUEUED [q.part] →
        ∃ t l, exec (.trigger r) s = .next t ∧ t.time = s.time ∧ t.pool.mem = s.pool.mem ∧ s.ended t r q stOk [] ∧ t.knots.launches = s.knots.launches ++ [l] ∧ l.knot = n ∧ l.part = q.part ∧
          l.prog = s.r F.KNOT.TRIG_PROG [n] ∧ l.args = q.data))

/-- FULLER_ATOMIC_HOLD_EXPIRY, FULLER_FORWARD_HOLD_EXPIRY and FULLER_MERGED_RESPONSE (R185, R187, R189): the merged atomic applies the combined operands to its line and keeps the old one, the merged request of a forwarding entry goes out, and the
response fans out: each participant still open gets its own bytes, or its serial value among all whose operands were sent.
Choices of the model in it: log entry 38. -/
def Obligations.FullerMergesAndFansOut : Prop :=
  ∀ (s : State) (e : Nat) (x : Comb), s.wf = true → s.combAt e = some x →
    (∀ r q n, x.forward = false → x.atomic.isSome = true → x.sent = false → s.leader x = some r → s.req r = some q → q.ext = some n → (s.ext n).coherent = false → q.atype ≤ 1 →
      s.poisoned (x.line * 64) 64 = [] → s.readAcc (s.ext n) (x.line * 64) 64 .ok = .ok → s.writeAcc (s.ext n) (x.line * 64) 64 false = .ok → s.mapMisses [(s.ext n, x.line * 64, 64)] = [] →
      ∃ t, exec (.fullerAtomicHoldExpiry e .ok) s = .next t ∧ t.time = s.time ∧ t.btp = s.btp ∧ s.wrote t (x.line * 64) (combApply ((s.combReqs x).map (·.2)) (s.memBytes (x.line * 64) 64)) ∧
        t.combAt e = some { x with sent := true, closed := true, ops := s.combReqs x, status := stOk, reply := some (s.memBytes (x.line * 64) 64) }) ∧
    (∀ p ps c, x.forward = true → x.sent = false → x.parts.filterMap (fun r => (s.req r).map (fun q => (r, q))) = p :: ps → s.exitConn p.2 = some c → p.2.op = 0x10 ∨ p.2.op = 0x12 →
      (∀ i, p.2.dest ≠ .gateway i) → ∃ t k o, exec (.fullerForwardHoldExpiry e) s = .next t ∧ t.time = s.time ∧ t.pool = s.pool ∧ SMap.get none t.btp.outs k = some o ∧ o.conn = c ∧ o.op = p.2.op ∧
        (ps = [] → t.combAt e = none ∧ o.addr = p.2.addr ∧ o.owners = [p.1]) ∧
        (ps ≠ [] → t.combAt e = some { x with sent := true, closed := true, ops := p :: ps } ∧ o.comb = some e ∧ o.addr = if x.atomic.isSome = true then p.2.addr else x.line * 64)) ∧
    (∀ d, x.reply = some d → ∃ t, exec (.fullerMergedResponse e) s = .next t ∧ t.time = s.time ∧ t.pool.mem = s.pool.mem ∧ t.combAt e = none ∧ (∀ r ∈ x.parts, t.req r = none) ∧
      ∀ r q c, r ∈ x.parts → s.req r = some q → q.src = .conn c → (s.conn c).st ≠ .free → (s.conn c).st ≠ .error → q.op = 0x10 ∨ q.op = 0x12 →
        ∃ p ∈ (t.conn c).out, p.resp = true ∧ p.tid = q.tid ∧ p.op = q.op ∧ p.status = x.status ∧
          (x.status = stOk → x.atomic = none → p.data = (d.drop (q.addr % 64)).take q.len) ∧
          (x.status = stOk → x.atomic.isSome = true → (∃ y, (r, y) ∈ x.ops) → ∃ v, (r, v) ∈ serialValues (fun y => if x.forward then ofLe d else leAt d (y.addr % 64) y.asize) x.ops ∧
            p.data = leBytes q.asize v))

/-- GATEWAY_GATHER_TIMEOUT and FORWARDED_REQUEST (R91, R109, R110): what a gathering holds goes out to its gateway; a request of another switch is served by its home in the same epoch, goes on by a route in at most two hops, and is dropped under 0x304
beyond them.
Choices of the model in it: log entries 26, 52. -/
def Obligations.StageRequestsMoveOn : Prop :=
  ∀ s : State, s.wf = true →
    (∀ i g, s.btp.gathers[i]? = some g → s.gatherReady g = true → (s.conn g.gate).st = .open → (∀ r ∈ g.reqs, ∃ q, s.req r = some q ∧ q.op = (if g.store = true then 0x11 else 0x10)) →
      ∃ t, exec (.gatewayGatherTimeout i) s = .next t ∧ t.time = s.time ∧ t.pool = s.pool ∧ t.btp.gathers = s.btp.gathers.erase g ∧
        ∀ r ∈ g.reqs, ∀ q, s.req r = some q → ∃ k o, t.req r = some { q with wait := .sent k } ∧ SMap.get none t.btp.outs k = some o ∧ o.conn = g.gate ∧ r ∈ o.owners) ∧
    (∀ r q c hops, s.req r = some q → q.src = .conn c → q.resp = false → q.wait = .other → q.dest = .home → memOp q.op = true →
      (∀ e d a b, hops < 3 → s.look tagLocation q.addr = .hit e → e.kind = 8 → (s.ext (e.result % 2 ^ 20)).epoch % 65536 = q.attr % 65536 → bits e.result 20 4 = q.part →
        (s.ext (e.result % 2 ^ 20)).part = q.part → q.addr + q.span - 1 ≤ e.hi → s.homeVerdict q none (e.result % 2 ^ 20) = .serve d a b →
        ∃ t, exec (.forwardedRequest r hops) s = .next t ∧ s.keeps t [.btp, .pool] ∧ t.req r = some { q with dest := d, ext := a, ext2 := b, wait := .none, hops := hops }) ∧
      (∀ e k, hops < 2 → s.look tagLocation q.addr = .hit e → e.kind = 9 → some (e.result % 16) ≠ s.peerIdx c → s.connTo (e.result % 16) = some k → q.op = 0x10 →
        ∃ t n o, exec (.forwardedRequest r hops) s = .next t ∧ t.time = s.time ∧ t.pool = s.pool ∧ t.req r = some { q with dest := .route (e.result % 16), hops := hops + 1, wait := .sent n } ∧
          SMap.get none t.btp.outs n = some o ∧ o.conn = k ∧ o.op = q.op ∧ o.addr = q.addr ∧ o.len = q.len ∧ o.owners = [r]) ∧
      (3 ≤ hops → s.mirror ≠ mirLost → ∃ t, exec (.forwardedRequest r hops) s = .next t ∧ t.time = s.time ∧ t.req r = none ∧ 0x304 ∈ s.causes t))

/-! ### RoCE and services (R88 to R90, R94 to R96) -/

/-- ROCE_RDMA_WRITE, ROCE_RDMA_READ_REQUEST, ROCE_UNSUPPORTED_REQUEST, ROCE_ACK_RECEIVE and ROCE_CNP_RECEIVE (R89, R90): a transfer in order with a good R_Key becomes a request at the address the key gives and moves the expected PSN on; an unknown
R_Key is answered with a NAK under 0x840 and stops the queue pair; an unsupported request, a packet above the path MTU and a READ above 16 MiB or beyond the 16 that may be outstanding get NAK Invalid Request; a CE-marked packet brings
a CNP; an ACK retires packets, a NAK has the packets from its PSN on sent again, and a received CNP halves the rate. PSN rules, NAK codes and the answers to what is above a limit are log entry 29. -/
def Obligations.QueuePairsTransfer : Prop :=
  ∀ (n port : Nat) (s : State), s.wf = true → (s.qp n).live = true → s.portShut (64 * qpDie n + port) = false → s.r F.BRIM_BTP_CTRL.ROCE_EN [qpDie n] = 1 → bit (s.qp n).portSet port = true →
    ((s.qp n).err = false → (s.qp n).rxPsn < 2 ^ 24 →
      (∃ t, exec (.roceUnsupportedRequest n port (s.qp n).rxPsn true false) s = .next t ∧ s.keeps t [.sent] ∧ t.sent = roceMsg n (.nak (s.qp n).rxPsn 1) :: s.sent) ∧
      ((s.qp n).lastCnp = none → ∃ t, exec (.roceUnsupportedRequest n port (s.qp n).rxPsn true true) s = .next t ∧ s.keeps t [.btp, .sent] ∧ t.qp n = { s.qp n with lastCnp := some s.time.now } ∧
        t.sent = roceMsg n (.nak (s.qp n).rxPsn 1) :: roceMsg n .cnp :: s.sent) ∧
      (∀ k va len data, data.length ≤ (s.qp n).mtu → s.rkey n k = .error false → ∃ t, exec (.roceRdmaWrite n port (s.qp n).rxPsn (.first k va len) true false data) s = .next t ∧ s.keeps t [.btp, .log, .sent] ∧
        t.qp n = { s.qp n with err := true } ∧ s.causes t = [0x840] ∧ t.sent = roceMsg n (.nak (s.qp n).rxPsn 2) :: s.sent) ∧
      (∀ seg data, (s.qp n).mtu < data.length → ∃ t, exec (.roceRdmaWrite n port (s.qp n).rxPsn seg true false data) s = .next t ∧ s.keeps t [.sent] ∧ t.sent = roceMsg n (.nak (s.qp n).rxPsn 1) :: s.sent) ∧
      (∀ k va len, 2 ^ 24 < len ∨ 16 ≤ ((s.openQp n).filter (fun e => decide (e.2.op = 0x14))).length → ∃ t, exec (.roceRdmaReadRequest n port (s.qp n).rxPsn k va len true false) s = .next t ∧ s.keeps t [.sent] ∧
        t.sent = roceMsg n (.nak (s.qp n).rxPsn 1) :: s.sent) ∧
      (bit (s.qp n).services 2 = true → s.fenced (s.qp n).part = false → (s.qp n).maxOut = 0 ∨ (s.openQp n).length < (s.qp n).maxOut →
        (∀ k va len data b acc e q, s.rkey n k = .ok (b, acc) → data ≠ [] → data.length ≤ len → data.length ≤ (s.qp n).mtu → acc &&& 2 = 2 →
          q = { src := .qp n, op := 0x15, psn := (s.qp n).rxPsn, ord := 2, part := (s.qp n).part, addr := s.hall (b + va), len := data.length, want := data.length, rcv := data.length, segs := [(0, data)] } →
          s.rights (s.qp n).tag q.part q.addr q.len 2 false = .ok → s.resolve q (s.qp n).tag 0x830 = .serve .home (some e) none →
          ∃ t, exec (.roceRdmaWrite n port (s.qp n).rxPsn (.first k va len) true false data) s = .next t ∧ s.keeps t [.btp, .pool, .nextId] ∧ t.req s.nextId = some { q with ext := some e } ∧
            t.qp n = { s.qp n with rxPsn := ((s.qp n).rxPsn + 1) % 2 ^ 24, wAddr := b + va + data.length, wLeft := len - data.length, wAcc := acc, wKey := k }) ∧
        (∀ data e q, data ≠ [] → data.length ≤ (s.qp n).wLeft → data.length ≤ (s.qp n).mtu → (s.qp n).wAcc &&& 2 = 2 →
          q = { src := .qp n, op := 0x15, psn := (s.qp n).rxPsn, ord := 2, part := (s.qp n).part, addr := s.hall (s.qp n).wAddr, len := data.length, want := data.length, rcv := data.length, segs := [(0, data)] } →
          s.rights (s.qp n).tag q.part q.addr q.len 2 false = .ok → s.resolve q (s.qp n).tag 0x830 = .serve .home (some e) none →
          ∃ t, exec (.roceRdmaWrite n port (s.qp n).rxPsn .next true false data) s = .next t ∧ s.keeps t [.btp, .pool, .nextId] ∧ t.req s.nextId = some { q with ext := some e } ∧
            t.qp n = { s.qp n with rxPsn := ((s.qp n).rxPsn + 1) % 2 ^ 24, wAddr := (s.qp n).wAddr + data.length, wLeft := (s.qp n).wLeft - data.length }) ∧
        (∀ k va len b acc e q, s.rkey n k = .ok (b, acc) → 0 < len → len ≤ 2 ^ 24 → ((s.openQp n).filter (fun e => decide (e.2.op = 0x14))).length < 16 → acc &&& 1 = 1 →
          q = { src := .qp n, op := 0x14, psn := (s.qp n).rxPsn, ord := 2, part := (s.qp n).part, addr := s.hall (b + va), len := len } →
          s.rights (s.qp n).tag q.part q.addr q.len 1 false = .ok → s.resolve q (s.qp n).tag 0x830 = .serve .home (some e) none →
          ∃ t, exec (.roceRdmaReadRequest n port (s.qp n).rxPsn k va len true false) s = .next t ∧ s.keeps t [.btp, .pool, .nextId] ∧ t.req s.nextId = some { q with ext := some e } ∧
            t.qp n = { s.qp n with rxPsn := ((s.qp n).rxPsn + max 1 (cdiv len (s.qp n).mtu)) % 2 ^ 24 }))) ∧
    (∀ psn, ∃ t, exec (.roceAckReceive n port psn false true) s = .next t ∧ s.keeps t [.btp] ∧ t.qp n = { s.qp n with out := (s.qp n).out.filter (fun p => !psn24le p.1 psn) }) ∧
    (∀ psn, ∃ t, exec (.roceAckReceive n port psn true true) s = .next t ∧ s.keeps t [.btp, .sent] ∧ t.qp n = { s.qp n with out := (s.qp n).out.filter (fun p => psn24le psn p.1) } ∧
      ∀ p ∈ (s.qp n).out, psn24le psn p.1 = true → roceMsg n (.read p.1 p.2) ∈ s.newMsgs t) ∧
    (∃ t, exec (.roceCnpReceive n port true) s = .next t ∧ s.keeps t [.btp] ∧ t.qp n = { s.qp n with rate := max 1 ((s.qp n).rate / 2) })

/-- SVC_KV_PUT, SVC_KV_GET, SVC_KV_DEL, SVC_PS_PUSH and SVC_PS_PULL (R95): a service request whose body is complete stores, returns or removes the block of its key, or adds to or returns the elements of its parameter table, and is answered OK.
Choices of the model in it: log entry 42. -/
def Obligations.ServicesKeepBlocksAndTables : Prop :=
  ∀ (r : Nat) (q : Req) (s : State), s.wf = true → s.serviceTurn r q.op q → q.want ≤ q.rcv →
    (q.op = 0x30 → ∃ t, exec (.svcKvPut r) s = .next t ∧ t.time = s.time ∧ t.pool.mem = s.pool.mem ∧ s.ended t r q stOk [] ∧
      t.svcMode q.part = { s.svcMode q.part with kv := SMap.set none (s.svcMode q.part).kv q.svcKey (some q.data) }) ∧
    (q.op = 0x31 → ∃ t, exec (.svcKvGet r) s = .next t ∧ t.time = s.time ∧ t.eng.svc = s.eng.svc ∧ s.ended t r q stOk (svcBlock q s.free (SMap.get none (s.svcMode q.part).kv q.svcKey))) ∧
    (q.op = 0x31 → SMap.get none (s.svcMode q.part).kv q.svcKey = none → ∃ t, exec (.svcKvGet r) s = .next t ∧ s.ended t r q stOk []) ∧
    (∀ bs, q.op = 0x31 → SMap.get none (s.svcMode q.part).kv q.svcKey = some bs → bs.length = q.svcLen → ∃ t, exec (.svcKvGet r) s = .next t ∧ s.ended t r q stOk bs) ∧
    (q.op = 0x32 → ∃ t, exec (.svcKvDel r) s = .next t ∧ t.time = s.time ∧ s.ended t r q stOk [] ∧ t.svcMode q.part = { s.svcMode q.part with kv := SMap.set none (s.svcMode q.part).kv q.svcKey none }) ∧
    (q.op = 0x34 → ∃ t, exec (.svcPsPush r) s = .next t ∧ t.time = s.time ∧ s.ended t r q stOk [] ∧ (t.svcMode q.part).kv = (s.svcMode q.part).kv ∧
      (∀ v, q.svcType = 0 → elems 4 q.data = [v] → (t.svcMode q.part).ps =
        SMap.set 0 (s.svcMode q.part).ps (q.psKey 0) (BitVec.ofNat 32 (f32Add 0 (SMap.get (0 : Lane) (s.svcMode q.part).ps (q.psKey 0)).toNat v)))) ∧
    (q.op = 0x35 → ∃ t, exec (.svcPsPull r) s = .next t ∧ t.time = s.time ∧ t.eng.svc = s.eng.svc ∧ s.ended t r q stOk ((List.range q.svcLen).flatMap (fun i =>
      leBytes q.svcElem (svcOfFp32 q.svcType (SMap.get (0 : Lane) (s.svcMode q.part).ps (q.psKey i)).toNat))))

/-! ### The fabric-manager mailbox (R113 to R119) -/

/-- The extent and page commands of the mailbox (R102 to R107, R114, R115, R117, R134): EXT_ADD takes an extent into ADDING, REVOKE puts an ACTIVE one into DRAINING, RELEASE a DRAINED one into RELEASING, QUERY shows state and open requests, SET_POLICY
changes the pin flags, ROUTE adds a route, and PAGE_CLEAR fills a POISONED page with zeros; RELEASE with SCRUB_ON_RELEASE fills the extent with zeros; a command behind an EXT_ADD that is under way waits for its turn; an extent in a wrong state
and a reserved opcode complete so.
Choices of the model in it: log entries 32, 33. -/
def Obligations.MailboxManagesExtents : Prop :=
  ∀ (slot : Nat) (s : State), s.wf = true →
    (∀ n, s.mboxReady slot 0x01 → (s.ext (s.mboxExt slot)).st = .free → s.fenced (s.newExt slot).part = false → (s.newExt slot).formOk = true → s.floorOk (s.newExt slot) = true →
      (s.pool.exts.all fun y => !(decide (y.2.st ≠ .free) && meets (s.newExt slot).base (s.newExt slot).log2 y.2.base y.2.log2)) = true → s.pool.routes = [] → s.roomFor (s.newExt slot) = true →
      n = (s.newExt slot).size / 2 ^ 21 → s.newPageBase n + n ≤ 2 ^ 27 →
      ∃ t, exec (.mboxExtAdd slot) s = .next t ∧ s.keeps t [.regs, .log, .pool, .cleat, .mir, .sent] ∧ t.r F.TIER_MBOX.GO [slot] = 1 ∧ (∃ u, t.cleat.upds = s.cleat.upds ++ [u] ∧ u.src = .adding (s.mboxExt slot)) ∧
        t.ext (s.mboxExt slot) = { s.newExt slot with pageBase := s.newPageBase n, slot1 := s.newSlot (s.newExt slot).set1 n, slot2 := s.newSlot (s.newExt slot).set2 n }) ∧
    (s.mboxStarts slot 0x04 → s.mboxHeld slot = true → ∃ t, exec (.mboxExtQuery slot) s = .next t ∧ s.keeps t [.regs, .pool] ∧ t.r F.TIER_MBOX.GO [slot] = 1 ∧ t.r F.TIER_MBOX.DONE [slot] = s.r F.TIER_MBOX.DONE [slot] ∧
      t.pool = { s.pool with waits := s.pool.waits ++ [slot] }) ∧
    (s.mboxReady slot 0x01 → (s.ext (s.mboxExt slot)).st = .active → ∃ t, exec (.mboxExtAdd slot) s = .next t ∧ s.mboxEnds t slot 4 ∧ t.pool = s.pool ∧ s.causes t = [0x350]) ∧
    (s.mboxReady slot 0x02 → (s.ext (s.mboxExt slot)).st = .active → s.mbox slot 2 % 65536 = 0 → ∃ t, exec (.mboxExtRevoke slot) s = .next t ∧ s.mboxEnds t slot 0 ∧
      t.ext (s.mboxExt slot) = { s.ext (s.mboxExt slot) with st := if (s.ext (s.mboxExt slot)).openReq = 0 then .drained else .draining }) ∧
    (s.mboxReady slot 0x03 → (s.ext (s.mboxExt slot)).st = .drained → ∃ t, exec (.mboxExtRelease slot) s = .next t ∧ s.mboxEnds t slot 0 ∧
      t.ext (s.mboxExt slot) = { s.ext (s.mboxExt slot) with st := .releasing } ∧
      ((s.ext (s.mboxExt slot)).scrub = false → s.keeps t [.regs, .log, .pool, .cleat, .mir, .sent] ∧ t.pool.mem = s.pool.mem) ∧
      ((s.ext (s.mboxExt slot)).scrub = true → ∀ b, SMap.get 0 t.pool.mem b =
        if (s.ext (s.mboxExt slot)).base ≤ b ∧ b < (s.ext (s.mboxExt slot)).base + (s.ext (s.mboxExt slot)).size then 0 else SMap.get 0 s.pool.mem b)) ∧
    (s.mboxReady slot 0x04 → (s.ext (s.mboxExt slot)).st ≠ .free → (s.ext (s.mboxExt slot)).st ≠ .adding → ∃ t, exec (.mboxExtQuery slot) s = .next t ∧ s.keeps t [.regs, .sent] ∧ s.mboxEnds t slot 0 ∧
      t.r F.TIER_MBOX.RSP [slot, 1] % 256 = (s.ext (s.mboxExt slot)).st.num ∧ t.r F.TIER_MBOX.RSP [slot, 2] = (s.ext (s.mboxExt slot)).openReq % 2 ^ 32) ∧
    (∀ f, s.mboxReady slot 0x05 → (s.ext (s.mboxExt slot)).st = .active → s.fenced (s.ext (s.mboxExt slot)).part = false → f = s.mbox slot 2 % 1024 → f / 8 = (s.ext (s.mboxExt slot)).flags / 8 → f % 4 ≠ 3 →
      ((s.ext (s.mboxExt slot)).set1 = 0xFF → f % 2 = 1) → ∃ t, exec (.mboxExtSetPolicy slot) s = .next t ∧ s.keeps t [.regs, .pool, .mir, .sent] ∧ s.mboxEnds t slot 0 ∧
        t.ext (s.mboxExt slot) = { s.ext (s.mboxExt slot) with flags := f }) ∧
    (∀ b l, s.mboxReady slot 0x06 → b = s.mbox slot 2 + s.mbox slot 3 % 2 ^ 20 * 2 ^ 32 → l = bits (s.mbox slot 1) 8 5 → 21 ≤ l → l ≤ 30 → b % 2 ^ l = 0 → s.mbox slot 1 % 2 = 1 → s.pool.routes = [] →
      (s.pool.exts.all fun y => !(decide (y.2.st ≠ .free) && meets b l y.2.base y.2.log2)) = true → ∃ t, exec (.mboxExtRoute slot) s = .next t ∧ s.keeps t [.regs, .pool, .cleat, .mir, .sent] ∧
        s.mboxEnds t slot 0 ∧ SMap.get none t.pool.routes b = some { log2 := l, home := bits (s.mbox slot 1) 4 4, epoch := s.mbox slot 4, inst := true }) ∧
    (∀ a e, s.mboxReady slot 0x07 → a = s.mbox slot 1 + s.mbox slot 2 * 2 ^ 32 → a % 2 ^ 21 = 0 → s.extAt a = some e → (s.ext e).st = .active → s.fenced (s.ext e).part = false → (s.page (a / 2 ^ 21)).st = .poisoned →
      ∃ t, exec (.mboxPageClear slot) s = .next t ∧ s.keeps t [.regs, .pool, .mir, .sent] ∧ s.mboxEnds t slot 0 ∧ t.page (a / 2 ^ 21) = {} ∧
        (∀ b, a ≤ b → b < a + 2 ^ 21 → SMap.get 0 t.pool.mem b = 0) ∧ (∀ b, b < a ∨ a + 2 ^ 21 ≤ b → SMap.get 0 t.pool.mem b = SMap.get 0 s.pool.mem b)) ∧
    (∀ o, o ∉ [0x01, 0x02, 0x03, 0x04, 0x05, 0x06, 0x07, 0x10, 0x11, 0x12, 0x13, 0x20, 0x21, 0x22, 0x24, 0x25] → s.mboxReady slot o → ∃ t, exec (.mboxReservedOpcode slot) s = .next t ∧ s.keeps t [.regs, .log, .sent] ∧ s.mboxEnds t slot 1 ∧ s.causes t = [0x350])

/-- The tray, stripe-set, connection and queue-pair commands of the mailbox (R64, R65, R88, R116 to R119, R122): they attach and remove a tray, define a stripe set and start its rebuild, create, modify and destroy a connection or a queue pair.
Choices of the model in it: log entries 32, 33. -/
def Obligations.MailboxManagesTraysAndConnections : Prop :=
  ∀ (slot : Nat) (s : State), s.wf = true →
    (∀ d t0 kind die port, s.mboxReady slot 0x10 → t0 = s.mbox slot 1 % 64 → die = bits (s.mbox slot 1) 6 3 → port = bits (s.mbox slot 1) 9 6 → kind = bits (s.mbox slot 1) 15 1 → s.trayAt t0 = none → die ≤ 3 → d.kind = kind →
      s.r F.BRIM_OCTET.MODE [die, port / 4] = (if kind = 1 then 2 else 3) → (kind = 1 → flashTrayOk d = true) →
      ∃ t, exec (.mboxTrayAttach slot (some d)) s = .next t ∧ s.keeps t [.regs, .log, .pool, .sent] ∧ s.mboxEnds t slot 0 ∧
        t.trayAt t0 = some { kind := kind, die := die, port := port, cap := if kind = 1 then s.flashUsable d else d.bytes * 31 / 32 }) ∧
    (s.mboxReady slot 0x11 → s.trayAt (s.mbox slot 1 % 64) ≠ none → s.pool.sets = [] → ∃ t, exec (.mboxTrayDetach slot) s = .next t ∧ s.keeps t [.regs, .pool, .sent] ∧ s.mboxEnds t slot 0 ∧
      t.trayAt (s.mbox slot 1 % 64) = none) ∧
    (∀ k m ts, s.mboxReady slot 0x12 → k = s.mbox slot 1 % 256 → k ≠ 255 → m = bits (s.mbox slot 1) 8 2 → m ≤ 1 → bits (s.mbox slot 1) 10 3 ≤ 6 → s.sset k = none →
      ts = (List.range 64).filter (fun i => bit (s.mbox slot 2 + s.mbox slot 3 * 2 ^ 32) i) → ts ≠ [] → ts.length ≤ 32 → (m = 1 → 3 ≤ ts.length ∧ ts.length ≤ 16) →
      (∀ i ∈ ts, ∃ y, s.trayAt i = some y ∧ y.kind = 0) → ∃ t, exec (.mboxStripeSetDefine slot) s = .next t ∧ s.keeps t [.regs, .pool, .sent] ∧ s.mboxEnds t slot 0 ∧
        t.sset k = some { mode := m, unit := bits (s.mbox slot 1) 10 3, staging := bit (s.mbox slot 1) 13, trays := ts }) ∧
    (∀ k failed repl y f z, s.mboxReady slot 0x13 → k = s.mbox slot 1 % 256 → failed = bits (s.mbox slot 1) 8 6 → repl = bits (s.mbox slot 1) 14 6 → s.sset k = some y → s.trayAt failed = some f → s.trayAt repl = some z →
      failed ∈ y.degraded → failed ∈ y.trays → y.rebuild = none → z.kind = f.kind → f.cap ≤ z.cap → z.lost = false → s.spare failed = some repl →
      ∃ t, exec (.mboxStripeSetRebuild slot) s = .next t ∧ s.keeps t [.regs, .pool, .log, .sent] ∧ s.mboxEnds t slot 0 ∧ t.sset k = some { y with rebuild := some (failed, repl) } ∧ s.causes t = [0x321]) ∧
    (∀ die, s.mboxReady slot 0x20 → die = bits (s.mbox slot 1) 16 3 → s.partSt (s.newConn slot).part = ptActive → s.chkOk die (s.newConn slot).chk = true →
      SMap.freshFrom (8192 * die) (s.btp.conns.filter (fun e => decide (8192 * die ≤ e.1))) < 8192 * (die + 1) →
      ∃ t c, exec (.mboxConnCreate slot) s = .next t ∧ s.keeps t [.regs, .btp, .sent] ∧ s.mboxEnds t slot 0 ∧ connDie c = die ∧ s.conn c = {} ∧ t.conn c = s.newConn slot ∧ t.r F.TIER_MBOX.RSP [slot, 1] = c) ∧
    (∀ c, s.mboxReady slot 0x21 → c = s.mbox slot 1 % 65536 → (s.conn c).st = .open → (s.newConn slot).part = (s.conn c).part → s.partSt (s.conn c).part = ptActive → s.chkOk (connDie c) (s.newConn slot).chk = true →
      ∃ t, exec (.mboxConnModify slot) s = .next t ∧ s.keeps t [.regs, .btp, .sent] ∧ s.mboxEnds t slot 0 ∧ (t.conn c).portSet = (s.newConn slot).portSet ∧ (t.conn c).services = (s.newConn slot).services ∧
        (t.conn c).tag = (s.newConn slot).tag ∧ (t.conn c).st = .open ∧ (t.conn c).rxNext = (s.conn c).rxNext ∧ (t.conn c).txNext = (s.conn c).txNext) ∧
    (∀ c, s.mboxReady slot 0x22 → c = s.mbox slot 1 % 65536 →
      ((s.conn c).st = .error ∨ (s.conn c).st = .fenced → ∃ t, exec (.mboxConnDestroy slot) s = .next t ∧ s.keeps t [.regs, .btp, .sent] ∧ s.mboxEnds t slot 0 ∧ t.conn c = {}) ∧
      ((s.conn c).st = .open → (s.conn c).out ≠ [] → ∃ t, exec (.mboxConnDestroy slot) s = .next t ∧ s.keeps t [.regs, .btp, .sent] ∧ s.mboxEnds t slot 0 ∧ t.conn c = { s.conn c with st := .closing })) ∧
    (∀ n, n = bits (s.mbox slot 1) 16 3 * 2048 + s.mbox slot 1 % 2048 →
      (s.mboxReady slot 0x24 → (s.qp n).live = false → s.partSt (s.newConn slot).part = ptActive → s.mbox slot 6 % 65536 = 0 → s.mbox slot 12 < 2 ^ 24 → s.mbox slot 13 = 0 → s.mbox slot 14 = 0 → s.mbox slot 15 = 0 →
        ∃ t, exec (.mboxQpCreate slot) s = .next t ∧ s.keeps t [.regs, .btp, .sent] ∧ s.mboxEnds t slot 0 ∧ (t.qp n).live = true ∧ (t.qp n).err = false ∧ (t.qp n).peerQp = s.mbox slot 12 ∧ (t.qp n).mtu ∈ [1024, 2048, 4096] ∧
          (t.qp n).part = (s.newConn slot).part ∧ (t.qp n).tag = (s.newConn slot).tag)) ∧
    (∀ n, n = s.mbox slot 1 % 2 ^ 24 → s.mboxReady slot 0x25 → (s.qp n).live = true → s.openQp n = [] → ∃ t, exec (.mboxQpDestroy slot) s = .next t ∧ s.keeps t [.regs, .btp, .sent] ∧ s.mboxEnds t slot 0 ∧ t.qp n = {})

/-! ### Extents, pages and trays (R104 to R108, R121 to R128, R159) -/

/-- The life of an extent (R104 to R107, R117, R121): ADDING becomes ACTIVE with its HOME and rights entries in the Cleat, or FREE again with the reason, once the updates of the Cleat before it are done; the drain timeout makes a DRAINING one DRAINED and ends its requests; a RELEASING one becomes FREE with its pages and bytes
cleared; a RECOVERING one becomes ACTIVE.
Choices of the model in it: log entries 32, 36. -/
def Obligations.ExtentsRunTheirLife : Prop :=
  ∀ (e : Nat) (s : State), s.wf = true →
    ((s.ext e).st = .adding → s.addingTurn e = false → exec (.extentAddingComplete e) s = .next s) ∧
    ((s.ext e).st = .adding → (∀ u ∈ s.cleat.upds, u.src = .adding e) → s.pool.waits = [] → SMap.get none s.pool.routes (s.ext e).base = none →
      (s.cleatCheck (s.homeOp e (s.ext e)) none true = clDone → ((cleatDo (s.homeOp e (s.ext e))).run s).cleatCheck (s.rightsOp e (s.ext e)) none true = clDone →
        ∃ t, exec (.extentAddingComplete e) s = .next t ∧ s.keeps t [.regs, .pool, .cleat, .mir, .sent] ∧ t.ext e = { s.ext e with st := .active, slot := none } ∧
          (∃ c ∈ t.cleat.ents, c.tag = tagLocation ∧ c.lo = s.hall (s.ext e).base ∧ c.hi = s.hall (s.ext e).base + (s.ext e).size - 1 ∧ c.kind = 8 ∧ c.result % 2 ^ 20 = e % 2 ^ 20 ∧ bits c.result 20 4 = (s.ext e).part % 16) ∧
          (∃ c ∈ t.cleat.ents, c.tag = (s.ext e).tag ∧ c.lo = s.hall (s.ext e).base ∧ c.hi = s.hall (s.ext e).base + (s.ext e).size - 1 ∧ c.kind = 1 ∧ bits c.result 24 4 = (s.ext e).part % 16 ∧ c.result % 16 = (s.ext e).acc % 16) ∧
          (∀ m, (s.ext e).slot = some m → s.mboxEnds t m 0)) ∧
      (∀ m, s.cleatCheck (s.homeOp e (s.ext e)) none true = clOverlap → (s.ext e).slot = some m → ∃ t, exec (.extentAddingComplete e) s = .next t ∧ t.cleat.ents = s.cleat.ents ∧ t.ext e = {} ∧ s.mboxEnds t m 5)) ∧
    ((s.ext e).st = .draining → ∃ t, exec (.extentDrainTimeout e) s = .next t ∧ t.time = s.time ∧ (t.ext e).st = .drained ∧
      (s.hitch.txns = [] → ∀ r q, s.req r = some q → q.resp = false → q.ext = some e ∨ q.ext2 = some e → t.req r = none ∧ 0x302 ∈ s.causes t)) ∧
    ((s.ext e).st = .releasing → ∃ t, exec (.extentReleaseComplete e) s = .next t ∧ s.keeps t [.regs, .pool, .cleat, .mir, .sent] ∧ t.ext e = {} ∧ (∀ p, (s.ext e).hasPage p = true → t.page p = {}) ∧
      (∀ b, (s.ext e).base ≤ b → b < (s.ext e).base + (s.ext e).size → SMap.get 0 t.pool.mem b = 0) ∧ (∀ b, b < (s.ext e).base ∨ (s.ext e).base + (s.ext e).size ≤ b → SMap.get 0 t.pool.mem b = SMap.get 0 s.pool.mem b)) ∧
    ((s.ext e).st = .recovering → s.coldFloor (s.ext e) = false → (s.ext e).compressed = false → ∃ t, exec (.extentRecoveryComplete e []) s = .next t ∧ s.keeps t [.regs, .pool, .mir, .sent] ∧ t.ext e = { s.ext e with st := .active } ∧
      ∀ r ∈ t.pool.rows, r ∈ s.pool.rows ∧ r.1 ≠ (s.ext e).set1)

/-- Pages and trays (R122, R126 to R128): a placement window chooses the pages whose count reached the threshold and clears the counts; a migration takes its destination, copies in at most five rounds, and after a good read-back the descriptor names the destination; a prefetch deadline
is recorded LATE; a lost tray makes its sets DEGRADED and a finished rebuild puts the replacement in the member's place, and pauses while a partition with pages in the set is fenced.
Choices of the model in it: log entries 33, 34, 36, 58. -/
def Obligations.PagesMoveAndTraysRebuild : Prop :=
  ∀ s : State, s.wf = true →
    (∃ t, exec .placementWindowExpiry s = .next t ∧ s.keeps t [.pool] ∧ (∀ p, t.page p = { s.page p with cnt := 0 }) ∧
      (s.r F.TIER_CTRL.MIGRATE_EN [] = 1 → ∀ p, p ∈ t.pool.chosen ↔ s.r F.TIER_POLICY.PROMOTE_THRESH [] ≤ (s.page p).cnt ∧ s.movable p = true ∧ s.promotable p = true)) ∧
    (∀ p e, s.extAt (p * 2 ^ 21) = some e → s.r F.TIER_CTRL.MIGRATE_EN [] = 1 → s.movable p = true →
      (∀ k q, k ≠ .demote → s.called p k = true → s.moveTo (s.ext e) p k = some q → ∃ t m, exec (.pageMigrationStart p k) s = .next t ∧ s.keeps t [.regs, .pool, .mir, .sent] ∧
        t.page p = { s.page p with st := .migrating } ∧ SMap.get none t.pool.migs p = some m ∧ m.kind = k ∧ m.dst = q ∧ m.verify = false) ∧
      (256 * s.hotFree < s.r F.TIER_POLICY.HBM_LOW_WATER [] * s.hotTotal → s.demotable p = true → (∀ n, s.demotable n = true → (s.page p).used ≤ (s.page n).used) → (s.page p).floorValid = true →
        ∃ t, exec (.pageMigrationStart p .demote) s = .next t ∧ s.keeps t [.regs, .pool, .mir, .sent] ∧ t.page p = { s.page p with place := .floor, floorValid := false } ∧
          t.r F.TIER_DEMOTE_COUNT.COUNT [] = min (s.r F.TIER_DEMOTE_COUNT.COUNT [] + 1) (2 ^ F.TIER_DEMOTE_COUNT.COUNT.w - 1))) ∧
    (∀ p m, SMap.get none s.pool.migs p = some m →
      (m.verify = false → m.recopy = 0 → m.cold = false → ∃ t, exec (.pageMigrationCopyDone p) s = .next t ∧ s.keeps t [.pool] ∧ SMap.get none t.pool.migs p = some { m with verify := true }) ∧
      (m.verify = false → m.recopy ≠ 0 → m.rounds < 4 → ∃ t, exec (.pageMigrationCopyDone p) s = .next t ∧ s.keeps t [.pool] ∧ SMap.get none t.pool.migs p = some { m with recopy := 0, rounds := m.rounds + 1 }) ∧
      (m.verify = false → m.recopy ≠ 0 → 4 ≤ m.rounds → ∃ t, exec (.pageMigrationCopyDone p) s = .next t ∧ s.keeps t [.regs, .pool, .log] ∧ SMap.get none t.pool.migs p = none ∧ s.causes t = [0x330] ∧
        (t.page p).place = (s.page p).place) ∧
      (m.verify = true → m.cold = false → (s.extAt (p * 2 ^ 21)).isSome = true → ∃ t, exec (.pageMigrationVerifyDone p true) s = .next t ∧ t.time = s.time ∧ t.pool.mem = s.pool.mem ∧ SMap.get none t.pool.migs p = none ∧
        (t.page p).place = m.dst ∧ (t.page p).st = (if (s.page p).st = .migrating then .valid else (s.page p).st))) ∧
    (∀ o f, s.pool.prefetch.find? (fun f => decide (f.op = o)) = some f → f.late = false → s.r F.TIER_CTRL.MIGRATE_EN [] = 1 → ∃ t, exec (.prefetchDeadline o) s = .next t ∧ s.keeps t [.regs, .pool, .log] ∧
      s.causes t = [0x360] ∧ { f with late := true } ∈ t.pool.prefetch) ∧
    (∀ i x, s.trayAt i = some x → x.lost = false → ∃ t, exec (.trayLost i) s = .next t ∧ t.time = s.time ∧ t.trayAt i = some { x with lost := true } ∧ 0x320 ∈ s.causes t ∧
      ∀ k y, s.sset k = some y → i ∈ y.trays → ∃ z, t.sset k = some z ∧ i ∈ z.degraded ∧ z.trays = y.trays) ∧
    (∀ k y failed repl, s.sset k = some y → y.rebuild = some (failed, repl) → s.coldSet k = false → (∀ x ∈ s.pool.exts, s.fenced x.2.part = false) → s.r F.TIER_CTRL.AUTO_REBUILD [] = 0 → ∃ t, exec (.rebuildComplete k) s = .next t ∧ s.keeps t [.regs, .pool, .log] ∧ s.causes t = [0x322] ∧
      t.sset k = some { y with trays := y.trays.map (fun n => if n = failed then repl else n), degraded := y.degraded.filter (fun n => decide (n ≠ failed)), rebuild := none }) ∧
    (∀ k y p e, s.sset k = some y → y.rebuild ≠ none → (s.page p).st ≠ .zero → s.extAt (p * 2 ^ 21) = some e → s.fenced (s.ext e).part = true → k ∈ (s.ext e).floors.map (·.1) → exec (.rebuildComplete k) s = .next s)

/-! ### Flash trays (R140 to R159, R470) -/

/-- The journal and the map of a flash tray (R141, R145 to R148, R470): an append makes its group durable and a group that is durable and acknowledged commits its records to the map; a failed append is written again in a new journal zone under 0x377; the partner's ACK and its
100 µs limit let a group commit; a checkpoint ends, once its CKPT_END is on the tray, with its root record; a map page arrives; a demotion's groups follow its appends; a block of an older key epoch is discarded under 0x605, and a current one that is a row's parity ends
that row's update (R121).
Choices of the model in it: log entries 35, 58. -/
def Obligations.FlashTraysJournalTheirMap : Prop :=
  ∀ (n : Nat) (s : State), s.wf = true → SMap.wf {} (s.flash n).zn = true →
    (∀ g gs z, (s.flash n).groups = g :: gs → (s.flash n).jz = some z →
      (2 ≤ g.left → ∃ t, exec (.journalAppendComplete n) s = .next t ∧ t.time = s.time ∧ (t.flash n).groups.head? = some { g with left := g.left - 1 } ∧ (t.flash n).map = (s.flash n).map) ∧
      (g.left = 1 → g.acked = true → g.act = .none → gs = [] → (s.flash n).recovering = false → ∃ t, exec (.journalAppendComplete n) s = .next t ∧ t.time = s.time ∧ (t.flash n).map = g.recs.foldl (fun m r => r.applyMap m) (s.flash n).map ∧
        g ∉ (t.flash n).groups)) ∧
    (∀ g gs z h, (s.flash n).groups = g :: gs → 0 < g.left → (s.flash n).take .journal = some (z, h) → ∃ t, exec (.journalAppendFailed n) s = .next t ∧ t.time = s.time ∧ s.causes t = [0x377] ∧
      (t.flash n).groups.head? = some { g with left := cdiv g.recs.length 64 } ∧ ((t.flash n).zone z).role = .journal) ∧
    (∀ g gs, (s.flash n).owed = g :: gs → ∃ t, exec (.journalPartnerAck n) s = .next t ∧ s.keeps t [.pool] ∧ t.flash n = { s.flash n with owed := gs, par := mapAfter (s.flash n).par g }) ∧
    (∀ g gs, (s.flash n).groups = g :: gs → 0 < g.left → g.acked = false →
      ((s.flash n).owed = [] → ∃ t, exec (.journalPartnerAck n) s = .next t ∧ t.time = s.time ∧ (t.flash n).groups.head? = some { g with acked := true } ∧ (t.flash n).par = mapAfter (s.flash n).par g.recs) ∧
      (g.alone = false → ∃ t, exec (.journalAckTimeout n) s = .next t ∧ t.time = s.time ∧ (t.flash n).groups.head? = some { g with alone := true } ∧ (t.flash n).unmirrored = true ∧ s.causes t = [0x376])) ∧
    (∀ c, (s.flash n).ckpt = some c → (c.ended = false → exec (.checkpointComplete n) s = .next s) ∧ (c.ended = true → ∃ t, exec (.checkpointComplete n) s = .next t ∧ t.time = s.time ∧
      (t.flash n).cz0 = some c.zone ∧ (t.flash n).roots = (s.flash n).roots + 1 ∧ (t.flash n).rootRecs.head? = some { jseq := (s.flash n).jseq, zone := c.zone, start := c.start } ∧
      Msg.tray n trayAppend [(s.flash n).roots % 2, (s.flash n).jseq, c.zone, c.start] [] ∈ s.newMsgs t)) ∧
    (∀ m, m ∈ (s.flash n).reads → s.pool.mapCache.length < s.mapPages → ∃ t, exec (.mapPageReadComplete n m true false) s = .next t ∧ s.keeps t [.pool] ∧ m ∉ (t.flash n).reads ∧ t.pool.mapCache.head? = some (n, m)) ∧
    (∀ p m, SMap.get none s.pool.migs p = some m → m.cold = true → m.verify = true → m.locs ≠ [] → m.trays = [] →
      (∃ t, exec (.demotionAppendComplete p true) s = .next t ∧ t.time = s.time ∧ SMap.get none t.pool.migs p = some { m with trays := (m.locs.map (·.1)).eraseDups }) ∧
      (m.restarts < 2 → ∃ t, exec (.demotionAppendComplete p false) s = .next t ∧ t.time = s.time ∧ SMap.get none t.pool.migs p = some { kind := m.kind, dst := m.dst, restarts := m.restarts + 1, cold := true } ∧
        0x331 ∈ s.causes t)) ∧
    (∀ p e, p < 16 → (e < s.r F.CROWN_KEY_EPOCH.EPOCH [p] → ∃ t, exec (.trayCompletion n p e) s = .next t ∧ s.keeps t [.regs, .log] ∧ s.causes t = [0x605] ∧
        t.r F.CROWN_OLD_EPOCH_COUNT.COUNT [] = min (s.r F.CROWN_OLD_EPOCH_COUNT.COUNT [] + 1) (2 ^ F.CROWN_OLD_EPOCH_COUNT.COUNT.w - 1)) ∧
      (s.r F.CROWN_KEY_EPOCH.EPOCH [p] ≤ e → s.pool.rows = [] → exec (.trayCompletion n p e) s = .next s) ∧
      (∀ k row y, s.r F.CROWN_KEY_EPOCH.EPOCH [p] ≤ e → s.pool.rows.head? = some (k, row) → s.sset k = some y → y.parityTray row = n → ∃ t, exec (.trayCompletion n p e) s = .next t ∧ s.keeps t [.regs, .pool, .mir, .sent] ∧
        t.pool.rows = s.pool.rows.filter (fun r => decide (r ≠ (k, row)))))

/-- Zones of a flash tray (R150, R153, R157, R158): a collection's copy is read back and its moves journaled, a failed destination is abandoned under 0x371, a reset zone is journaled free, and a Read Only or Offline zone is retired.
Choices of the model in it: log entry 35. -/
def Obligations.FlashZonesAreCollectedAndRetired : Prop :=
  ∀ (n : Nat) (s : State), s.wf = true → SMap.wf {} (s.flash n).zn = true →
    (∀ g, (s.flash n).gc = some g → g.stage = .copy → ∃ t, exec (.gcCopyComplete n true) s = .next t ∧ s.keeps t [.pool] ∧
      (t.flash n).gc = some { g with stage := .check, moved := (s.flash n).valid g.src } ∧ ((t.flash n).zone g.dst).sum = ((s.flash n).valid g.src).map (fun e => e.1 + 1)) ∧
    (∀ g, (s.flash n).gc = some g → g.stage = .check → ∃ t, exec (.gcVerifyComplete n true) s = .next t ∧ t.time = s.time ∧ (t.flash n).gc = some { g with stage := .commit } ∧ ∃ j ∈ (t.flash n).groups, j.act = .gc g.src g.dst) ∧
    (∀ g, (s.flash n).gc = some g → g.stage = .check → ((s.flash n).zone g.dst).role ≠ .retired → ∃ t, exec (.gcVerifyComplete n false) s = .next t ∧ t.time = s.time ∧ ((t.flash n).zone g.dst).role = .dropped ∧ 0x371 ∈ s.causes t) ∧
    (∀ z, ((s.flash n).zone z).role = .dropped → (s.flash n).groups.any (fun g => decide (g.act = .free z)) = false → ∃ t, exec (.zoneResetComplete n z) s = .next t ∧ t.time = s.time ∧
      ∃ j ∈ (t.flash n).groups, j.act = .free z) ∧
    (∀ z, z < (s.flash n).zones → ((s.flash n).zone z).role ≠ .retired → ∃ t, exec (.zoneReadOnly n z) s = .next t ∧ t.time = s.time ∧ ((t.flash n).zone z).role = .retired ∧ 0x373 ∈ s.causes t) ∧
    (∀ z, z < (s.flash n).zones → ((s.flash n).zone z).offline = false → ∃ t, exec (.zoneOffline n z) s = .next t ∧ t.time = s.time ∧ ((t.flash n).zone z).role = .retired ∧ ((t.flash n).zone z).offline = true ∧
      0x375 ∈ s.causes t)

/-! ### CXL agents (R163 to R182) -/

/-- The CXL requests of an agent on a line that no one else holds (R166, R170, R171, R173): an uncached read gets the data; RdShared and MemRd S take the line in S, RdAny, RdOwn, RdOwnNoData and MemRd A in EM; the writes put their data in memory; an evict or flush by the holder
frees the line, a dirty one with its data; RdOwn of a line that others share snoops them first; hints and ignored messages do nothing, and an unlisted message is an error under 0x420. A port without an agent is served uncached.
Choices of the model in it: log entry 27. -/
def Obligations.AgentsTakeLinesInTurn : Prop :=
  ∀ (port key n l w : Nat) (s : State), s.wf = true →
    (s.dirAt l = none → s.freeWay l (s.agentPart n) = some w →
      (s.agentTurn port key n l .rdCurr → ∃ t, exec (.cxlRdcurr port key) s = .next t ∧ s.keeps t [.hitch, .sent] ∧ t.txnAt l = none ∧ t.dirAt l = none ∧ Msg.cxl port cxlData l (s.memBytes (l * 64) 64) ∈ s.newMsgs t) ∧
      (s.agentTurn port key n l .rdCurr → ∃ t, exec (.cxlMemrd port key .i) s = .next t ∧ s.keeps t [.hitch, .sent] ∧ t.txnAt l = none ∧ t.dirAt l = none ∧ Msg.cxl port cxlData l (s.memBytes (l * 64) 64) ∈ s.newMsgs t) ∧
      (s.agentTurn port key n l .memRdData → ∃ t, exec (.cxlMemrddata port key) s = .next t ∧ s.keeps t [.hitch, .sent] ∧ t.txnAt l = none ∧ t.dirAt l = none ∧ Msg.cxl port cxlData l (s.memBytes (l * 64) 64) ∈ s.newMsgs t) ∧
      (s.agentTurn port key n l .rdShared → ∃ t, exec (.cxlRdshared port key) s = .next t ∧ s.keeps t [.regs, .hitch, .mir, .sent] ∧ t.txnAt l = none ∧
        t.dirAt l = some { line := l, em := false, holders := [n], part := s.agentPart n, way := w } ∧ Msg.cxl port (if s.isHost n then cxlCmpS else cxlGoS) l (s.memBytes (l * 64) 64) ∈ s.newMsgs t) ∧
      (s.agentTurn port key n l .rdShared → ∃ t, exec (.cxlMemrd port key .s) s = .next t ∧ s.keeps t [.regs, .hitch, .mir, .sent] ∧ t.txnAt l = none ∧
        t.dirAt l = some { line := l, em := false, holders := [n], part := s.agentPart n, way := w } ∧ Msg.cxl port (if s.isHost n then cxlCmpS else cxlGoS) l (s.memBytes (l * 64) 64) ∈ s.newMsgs t) ∧
      (s.agentTurn port key n l .rdAny → s.r F.HITCH_CTRL.NO_E [] = 0 → ∃ t, exec (.cxlRdany port key) s = .next t ∧ s.keeps t [.regs, .hitch, .mir, .sent] ∧ t.txnAt l = none ∧
        t.dirAt l = some { line := l, em := true, holders := [n], part := s.agentPart n, way := w } ∧ Msg.cxl port (if s.isHost n then cxlCmpE else cxlGoE) l (s.memBytes (l * 64) 64) ∈ s.newMsgs t) ∧
      (s.agentTurn port key n l .rdOwn → ∃ t, exec (.cxlRdown port key) s = .next t ∧ s.keeps t [.regs, .hitch, .mir, .sent] ∧ t.txnAt l = none ∧
        t.dirAt l = some { line := l, em := true, holders := [n], part := s.agentPart n, way := w } ∧ Msg.cxl port (if s.isHost n then cxlCmpE else cxlGoE) l (s.memBytes (l * 64) 64) ∈ s.newMsgs t) ∧
      (s.agentTurn port key n l .rdOwn → ∃ t, exec (.cxlMemrd port key .a) s = .next t ∧ s.keeps t [.regs, .hitch, .mir, .sent] ∧ t.txnAt l = none ∧
        t.dirAt l = some { line := l, em := true, holders := [n], part := s.agentPart n, way := w } ∧ Msg.cxl port (if s.isHost n then cxlCmpE else cxlGoE) l (s.memBytes (l * 64) 64) ∈ s.newMsgs t) ∧
      (s.agentTurn port key n l .rdOwnNoData → ∃ t, exec (.cxlRdownnodata port key) s = .next t ∧ s.keeps t [.regs, .hitch, .mir, .sent] ∧ t.txnAt l = none ∧
        t.dirAt l = some { line := l, em := true, holders := [n], part := s.agentPart n, way := w } ∧ Msg.cxl port (if s.isHost n then cxlCmpE else cxlGoENoData) l [] ∈ s.newMsgs t)) ∧
    (∀ data, s.dirAt l = none → data.length = 64 → (s.extAt (l * 64)).isSome = true →
      (s.agentTurn port key n l .itoMWr → ∃ t, exec (.cxlItomwr port key data false) s = .next t ∧ t.time = s.time ∧ s.wrote t (l * 64) data ∧ t.dirAt l = none ∧ Msg.cxl port cxlGoWritePull l [] ∈ s.newMsgs t) ∧
      (s.agentTurn port key n l .wrCur → ∃ t, exec (.cxlWrcur port key data false) s = .next t ∧ t.time = s.time ∧ s.wrote t (l * 64) data ∧ t.dirAt l = none ∧ Msg.cxl port cxlGoWritePull l [] ∈ s.newMsgs t) ∧
      (s.agentTurn port key n l .wrInv → ∃ t, exec (.cxlWrinv port key data false) s = .next t ∧ t.time = s.time ∧ s.wrote t (l * 64) data ∧ t.dirAt l = none ∧ Msg.cxl port cxlWritePull l [] ∈ s.newMsgs t ∧ Msg.cxl port cxlGoI l [] ∈ s.newMsgs t)) ∧
    (∀ d data, s.dirAt l = some d → d.holders = [n] →
      (s.agentTurn port key n l .clFlush → ∃ t, exec (.cxlClflush port key) s = .next t ∧ s.keeps t [.regs, .hitch, .mir, .sent] ∧ t.dirAt l = none ∧ t.txnAt l = none ∧ Msg.cxl port cxlGoI l [] ∈ s.newMsgs t) ∧
      (s.agentTurn port key n l .cleanEvict → ∃ t, exec (.cxlCleanevict port key) s = .next t ∧ s.keeps t [.regs, .hitch, .mir, .sent] ∧ t.dirAt l = none ∧ t.txnAt l = none ∧ Msg.cxl port cxlGoI l [] ∈ s.newMsgs t) ∧
      (s.agentTurn port key n l .cleanEvictNoData → ∃ t, exec (.cxlCleanevictnodata port key) s = .next t ∧ s.keeps t [.regs, .hitch, .mir, .sent] ∧ t.dirAt l = none ∧ t.txnAt l = none ∧ Msg.cxl port cxlGoI l [] ∈ s.newMsgs t) ∧
      (s.agentTurn port key n l .memClnEvct → ∃ t, exec (.cxlMemclnevct port key) s = .next t ∧ s.keeps t [.regs, .hitch, .mir, .sent] ∧ t.dirAt l = none ∧ t.txnAt l = none ∧ Msg.cxl port cxlCmp l [] ∈ s.newMsgs t) ∧
      (d.em = true → data.length = 64 → (s.extAt (l * 64)).isSome = true →
        (s.agentTurn port key n l .dirtyEvict → ∃ t, exec (.cxlDirtyevict port key data false) s = .next t ∧ t.time = s.time ∧ s.wrote t (l * 64) data ∧ t.dirAt l = none ∧ Msg.cxl port cxlGoWritePull l [] ∈ s.newMsgs t) ∧
        (s.agentTurn port key n l .memWr → ∃ t, exec (.cxlMemwr port key data false) s = .next t ∧ t.time = s.time ∧ s.wrote t (l * 64) data ∧ t.dirAt l = none ∧ Msg.cxl port cxlCmp l [] ∈ s.newMsgs t))) ∧
    (∀ d, s.dirAt l = some d → d.em = false → d.holders.filter (· ≠ n) ≠ [] → (∀ m ∈ d.holders, s.agentSt m = agActive) → s.agentTurn port key n l .rdOwn → ∃ t, exec (.cxlRdown port key) s = .next t ∧ s.keeps t [.hitch, .sent] ∧
      t.dirAt l = some d ∧ t.txnAt l = some { kind := .cxl .rdOwn n [] false, snoop := .inv, waitFor := d.holders.filter (· ≠ n) } ∧ ∀ m ∈ d.holders, m ≠ n → Msg.snoop m .inv l ∈ s.newMsgs t) ∧
    (∀ fa acc e, s.agentOf port = none → s.portShut port = false → s.hostMap port key = some (fa, acc) → acc &&& 1 = 1 → s.fenced (Config.portPart port % 16) = false →
      s.resolve { src := .cxlPort port, op := 0x10, part := Config.portPart port % 16, addr := s.hall (fa / 64 * 64), len := 64 } (portTag port) 0x830 = .serve .home (some e) none →
      ∃ t q, exec (.cxlMemrddata port key) s = .next t ∧ s.keeps t [.btp, .pool, .nextId] ∧ t.req s.nextId = some q ∧ q.src = .cxlPort port ∧ q.op = 0x10 ∧ q.addr = s.hall (fa / 64 * 64) ∧ q.len = 64 ∧ q.ext = some e) ∧
    exec (.cxlCacheflushed port) s = .next s ∧ exec (.cxlMemspecrd port key) s = .next s ∧ exec (.cxlBiconflict port l) s = .next { s with sent := .cxl port cxlBiConflictAck l [] :: s.sent } ∧
    (∃ t, exec (.cxlUnlistedMessage port) s = .next t ∧ s.keeps t [.log, .sent] ∧ s.causes t = [0x420] ∧ t.sent = .cxl port cxlErr 0 [] :: s.sent)

/-- Snoop responses, probes, the loss of an agent and the clearing of poison (R172, R173, R177 to R182): a response takes its agent out of those waited for and brings its data to memory; the last one completes the request; one that no snoop waits for is discarded under 0x404; a
probe period asks every ACTIVE agent whose link no fence holds; nothing counts against an agent whose link is in Recovery or fenced (R191, R451); a missed snoop, HB_MISS missed probes or a link that is down put an agent into RECALLING under 0x403, 0x402 and 0x401; its walk frees its lines, poisons those it owned under 0x410, and ends in LOST; a clear removes the mark under 0x414.
Choices of the model in it: log entry 27. -/
def Obligations.SnoopsProbesAndAgentLoss : Prop :=
  ∀ (n l : Nat) (s : State), s.wf = true →
    (l ≠ probeLine → s.snooped n l = false → (∀ k data p, ∃ t, exec (.cxlSnoopResponse n l k data p) s = .next t ∧ s.keeps t [.log] ∧ s.causes t = [0x404]) ∧
      (∀ k, ∃ t, exec (.cxlBirsp n l k) s = .next t ∧ s.keeps t [.log] ∧ s.causes t = [0x404])) ∧
    (∀ x d, l ≠ probeLine → s.txnAt l = some x → n ∈ x.waitFor → x.waitFor.erase n ≠ [] → s.dirAt l = some d → d.holders.filter (· ≠ n) ≠ [] →
      (∃ t, exec (.cxlSnoopResponse n l .iHitI [] false) s = .next t ∧ s.keeps t [.regs, .hitch, .mir, .sent] ∧ t.txnAt l = some { x with waitFor := x.waitFor.erase n } ∧
        t.dirAt l = some { d with holders := d.holders.filter (· ≠ n) }) ∧
      (∃ t, exec (.cxlBirsp n l .i) s = .next t ∧ s.keeps t [.regs, .hitch, .mir, .sent] ∧ t.txnAt l = some { x with waitFor := x.waitFor.erase n } ∧
        t.dirAt l = some { d with holders := d.holders.filter (· ≠ n) }) ∧
      (∀ data, data.length = 64 → (s.extAt (l * 64)).isSome = true → ∃ t, exec (.cxlSnoopResponse n l .iFwdM data false) s = .next t ∧ t.time = s.time ∧ s.wrote t (l * 64) data ∧
        t.txnAt l = some { x with waitFor := x.waitFor.erase n })) ∧
    (∀ m d, l ≠ probeLine → s.agentSt m = agActive → s.hitch.stalls = [] → s.hitch.ingress = [] → s.hitch.txns = [(l, some { kind := .cxl .rdOwn m [] false, snoop := .inv, waitFor := [n] })] → s.dirAt l = some d → d.holders = [n] → bit (s.r F.HITCH_WAYMASK.WAYS [s.agentPart m]) d.way = true → d.way < 16 →
      (∀ k e, s.dirAt k = some e → dirSet k = dirSet l → k ≠ l → e.way ≠ d.way) → SMap.get false s.pool.poison l = false → (s.page (l * 64 / 2 ^ 21)).st ≠ .poisoned →
      ∃ t e, exec (.cxlSnoopResponse n l .iHitI [] false) s = .next t ∧ s.keeps t [.regs, .hitch, .mir, .sent] ∧ t.txnAt l = none ∧ t.dirAt l = some e ∧ e.em = true ∧ e.holders = [m] ∧
        Msg.cxl (s.agentPort m) (if s.isHost m then cxlCmpE else cxlGoE) l (s.memBytes (l * 64) 64) ∈ s.newMsgs t) ∧
    (∃ t, exec .livenessProbePeriod s = .next t ∧ s.keeps t [.sent] ∧ ∀ k, k < 32 → s.agentSt k = agActive → s.link (s.agentPort k) ≠ lkFenced → Msg.snoop k .cur probeLine ∈ s.newMsgs t) ∧
    (s.linkQuiet n = true → exec (.livenessProbeTimeout n) s = .next s ∧ exec (.snoopTimeout n l) s = .next s) ∧
    (s.link (s.agentPort n) = lkFenced → exec (.agentLinkDown n) s = .next s) ∧
    (s.agentSt n = agActive → s.linkQuiet n = false →
      (SMap.get 0 s.hitch.probes n + 1 < s.r F.HITCH_TIMING.HB_MISS [] → ∃ t, exec (.livenessProbeTimeout n) s = .next t ∧ s.keeps t [.hitch] ∧ SMap.get 0 t.hitch.probes n = SMap.get 0 s.hitch.probes n + 1) ∧
      (s.r F.HITCH_TIMING.HB_MISS [] ≤ SMap.get 0 s.hitch.probes n + 1 → ∃ t, exec (.livenessProbeTimeout n) s = .next t ∧ t.time = s.time ∧ t.agentSt n = agRecalling ∧ 0x402 ∈ s.causes t) ∧
      (s.snooped n l = true → ∃ t, exec (.snoopTimeout n l) s = .next t ∧ t.time = s.time ∧ t.agentSt n = agRecalling ∧ 0x403 ∈ s.causes t)) ∧
    (s.agentSt n = agActive → s.link (s.agentPort n) ≠ lkFenced → ∃ t, exec (.agentLinkDown n) s = .next t ∧ t.time = s.time ∧ t.agentSt n = agRecalling ∧ 0x401 ∈ s.causes t) ∧
    (s.agentSt n = agRecalling → n ∉ s.hitch.heldValid → s.hitch.stalls = [] → s.hitch.ingress = [] → ∃ t, exec (.agentLossWalkComplete n) s = .next t ∧ t.time = s.time ∧ t.agentSt n = agLost ∧
      ∀ k d, s.dirAt k = some d → n ∈ d.holders → (∀ e, t.dirAt k = some e → n ∉ e.holders) ∧ (d.em = true → SMap.get false t.pool.poison k = true)) ∧
    (s.reach 0x1002000 = true → s.r F.HITCH_POISON_CTRL.GO [] = 0 → s.r F.HITCH_POISON_CTRL.MODE [] = 0 → s.r F.HITCH_POISON_ADDR.LINE [] = l → s.hitch.txns = [] → s.hitch.stalls = [] → s.hitch.ingress = [] → s.dirAt l = none → SMap.get false s.pool.poison l = true →
      ∃ t, exec .hitchPoisonClear s = .next t ∧ t.time = s.time ∧ t.r F.HITCH_POISON_CTRL.GO [] = 0 ∧ t.r F.HITCH_POISON_CTRL.DONE [] = 1 ∧ t.r F.HITCH_POISON_CTRL.WAS_POISONED [] = 1 ∧
        SMap.get false t.pool.poison l = false ∧ s.wrote t (l * 64) (List.replicate 64 0) ∧ 0x414 ∈ s.causes t)

/-! ### Programs and contexts (R202, R209 to R218) -/

/-- The program commands (R210 to R213, R215): PROG_LOAD enters a finalized image under the lowest free PROG_ID, PROG_UNLOAD removes a program without contexts, PROG_PLACE puts an instance on the named context with its registers set and starts its zeroing, and a reserved opcode completes so.
Choices of the model in it: log entry 41. -/
def Obligations.ProgramsLoadAndPlace : Prop :=
  ∀ (view : Option Nat) (slot : Nat) (s : State), s.wf = true →
    (∀ o, o ∉ [1, 2, 3, 4, 5, 6, 7, 0x10, 0x11] → s.slotReady view slot o → ∃ t, exec (.progReservedOpcode view slot) s = .next t ∧ s.keeps t [.regs, .log, .sent] ∧ s.slotEnds t view slot 1 ∧ s.causes t = [0x550]) ∧
    (∀ x far farBind p img, s.slotReady view slot 1 → p = (match view with | some v => v | none => bits (s.slotWord view slot 1) 20 4) → s.slotWord view slot 7 ≤ 4096 → s.partSt p = ptActive →
      s.firmwareRead p (s.slotPair view slot 2) (s.slotWord view slot 4) x far = some img →
      (∀ g, s.finalize p img (s.firmwareRead p (s.slotPair view slot 5) (8 * s.slotWord view slot 7) .ok farBind) = .ok g → s.programs.length < 4096 → s.programs.countP (fun e => decide (e.2.part = p)) < 1024 →
        ∃ t id, exec (.progLoad view slot x far farBind) s = .next t ∧ s.keeps t [.regs, .eng, .sent] ∧ s.slotEnds t view slot 0 ∧ t.slotRsp view slot = id ∧ SMap.get none s.eng.progs id = none ∧
          (∀ i, i < id → SMap.get none s.eng.progs i ≠ none) ∧ SMap.get none t.eng.progs id = some g) ∧
      (s.finalize p img (s.firmwareRead p (s.slotPair view slot 5) (8 * s.slotWord view slot 7) .ok farBind) = .error 0x10 →
        ∃ t, exec (.progLoad view slot x far farBind) s = .next t ∧ s.keeps t [.regs, .log, .sent] ∧ s.slotEnds t view slot 0x10 ∧ s.causes t = [0x551])) ∧
    (∀ pid g, s.slotReady view slot 2 → pid = s.slotWord view slot 1 % 4096 → SMap.get none s.eng.progs pid = some g → view = none ∨ view = some g.part → s.ctxsOf pid = [] → s.namedByKnot pid g.part = false →
      ∃ t, exec (.progUnload view slot) s = .next t ∧ s.keeps t [.regs, .eng, .sent] ∧ s.slotEnds t view slot 0 ∧ SMap.get none t.eng.progs pid = none) ∧
    (∀ pid g c x, s.slotReady view slot 3 → pid = s.slotWord view slot 1 % 4096 → SMap.get none s.eng.progs pid = some g → view = none ∨ view = some g.part → s.slotWord view slot 2 % 2 ^ 13 = 1 →
      bit (s.slotWord view slot 3) 10 = true → c = s.slotWord view slot 4 % 4096 → s.partSt g.part = ptActive → bit (s.slotWord view slot 3 % 256) (ctxDie c) = true → s.engAvail (ctxEng c) = true → (s.ctx c).placed = false →
      s.fitAt (g.need pid) none c = some x →
      ∃ t, exec (.progPlace view slot) s = .next t ∧ s.keeps t [.regs, .eng, .sent] ∧ s.slotEnds t view slot 0 ∧ t.slotRsp view slot = 1 ∧ (t.ctx c).prog = pid ∧ (t.ctx c).part = g.part ∧ (t.ctx c).pc = g.entry ∧
        (t.ctx c).mode = bit (s.slotWord view slot 3) 8 ∧ (t.ctx c).zero = some (if bit (s.slotWord view slot 3) 8 then .park else .start) ∧ (t.ctx c).scrBase = x.scr ∧ (t.ctx c).scrSize = g.scr ∧
        (t.ctx c).cluBase = x.clu ∧ (t.ctx c).sr 0 = 0 ∧ (t.ctx c).sr 1 = 1 ∧ (t.ctx c).sr 2 = s.slotPair view slot 5 % 2 ^ 64 ∧ (t.ctx c).sr 3 = s.slotPair view slot 7 % 2 ^ 64 ∧ (t.ctx c).sr 4 = s.slotPair view slot 9 % 2 ^ 64)

/-- The context commands, the end of a zeroing and the service mode (R202, R214, R215, R217, R218): STOP and RESUME, RESET and FREE act on the named context; a context whose zeroing ends becomes what it was to become; SVC_ENABLE places its contexts and turns the mode on, SVC_DISABLE drains it, and
1 ms later it is off and its contexts are freed.
Choices of the model in it: log entries 41, 42. -/
def Obligations.ContextsAreCommanded : Prop :=
  ∀ (view : Option Nat) (slot c : Nat) (s : State), s.wf = true →
    (s.slotReady view slot 4 → s.slotCtx view slot c → (s.ctx c).st = .ready ∨ (s.ctx c).st = .parked → ∃ t, exec (.ctxStop view slot) s = .next t ∧ s.keeps t [.regs, .eng, .sent] ∧ s.slotEnds t view slot 0 ∧
      t.ctx c = { s.ctx c with st := .stopped, wasParked := decide ((s.ctx c).st = .parked) } ∧ ∀ d, d ≠ c → t.ctx d = s.ctx d) ∧
    (s.slotReady view slot 5 → s.slotCtx view slot c → (s.ctx c).st = .stopped → (s.ctx c).wasParked = false → (s.ctx c).halting = false → ∃ t, exec (.ctxResume view slot) s = .next t ∧ s.keeps t [.regs, .eng, .sent] ∧
      s.slotEnds t view slot 0 ∧ t.ctx c = { s.ctx c with st := .ready, monAt := s.time.now } ∧ ∀ d, d ≠ c → t.ctx d = s.ctx d) ∧
    (s.slotReady view slot 6 → s.slotCtx view slot c → (s.ctx c).st = .done ∨ (s.ctx c).st = .faulted ∨ (s.ctx c).st = .stopped → ∃ t, exec (.ctxReset view slot) s = .next t ∧ s.slotEnds t view slot 0 ∧
      (t.ctx c).st = (if (s.ctx c).mode then .parked else .ready) ∧ (t.ctx c).zero = some (if (s.ctx c).mode then .park else .start) ∧ (t.ctx c).pc = s.entryOf (s.ctx c)) ∧
    (s.slotReady view slot 7 → s.slotCtx view slot c → (s.ctx c).st = .done ∨ (s.ctx c).st = .faulted ∨ (s.ctx c).st = .stopped ∨ (s.ctx c).st = .parked → ∃ t, exec (.ctxFree view slot) s = .next t ∧ s.slotEnds t view slot 0 ∧
      (t.ctx c).st = .free ∧ (t.ctx c).zero = some .free) ∧
    ((s.ctx c).st ≠ .stopped → (s.ctx c).st ≠ .fenced →
      ((s.ctx c).zero = some .start → ∃ t, exec (.windowZeroingComplete c) s = .next t ∧ s.keeps t [.eng] ∧ t.ctx c = { s.ctx c with zero := none, resetting := false, st := .ready, issuedAt := s.eng.order, monAt := s.time.now }) ∧
      ((s.ctx c).zero = some .park → s.r F.CROWN_HEALTH.FENCED [ctxEng c] = 0 → s.excess (s.ctx c) = false → ∃ t, exec (.windowZeroingComplete c) s = .next t ∧ s.keeps t [.eng] ∧
        t.ctx c = { s.ctx c with zero := none, resetting := false, st := .parked, parkedAt := s.eng.order + 1 }) ∧
      ((s.ctx c).zero = some .free → ∃ t, exec (.windowZeroingComplete c) s = .next t ∧ t.time = s.time ∧ t.ctx c = {})) ∧
    (∀ p n r, s.slotReady none slot 0x10 → p = bits (s.slotWord none slot 1) 20 4 → n = s.slotWord none slot 2 % 256 → 8 ≤ n → n ≤ 128 → n % 8 = 0 → s.partSt p = ptActive → (s.svcMode p).on = false →
      placeAll (fun t _ => t.svcSpot ((t.eng.ctxs.countP (fun e => e.2.svc && decide (e.2.part = p) && decide (e.2.st = .free) && decide (e.2.zero = some .start))) % 8)) svcNeed
        ((List.range n).map (fun i => { part := p, inst := i, count := n, svc := true })) [] s = some r →
      ∃ t, exec (.svcEnable none slot) s = .next t ∧ s.keeps t [.regs, .eng, .sent] ∧ s.slotEnds t none slot 0 ∧ (t.svcMode p).on = true ∧ (t.svcMode p).index = s.slotPair none slot 3 ∧
        (t.svcMode p).data = s.slotPair none slot 5 ∧ r.2.length = n ∧ ∀ d ∈ r.2, (t.ctx d).zero.isSome = true) ∧
    (∀ p, s.slotReady none slot 0x11 → p = bits (s.slotWord none slot 1) 20 4 → (s.svcMode p).on = true → ∃ t, exec (.svcDisable none slot) s = .next t ∧ s.keeps t [.regs, .eng, .sent] ∧ s.slotEnds t none slot 0 ∧
      t.svcMode p = { s.svcMode p with draining := true }) ∧
    (∀ p, (s.svcMode p).draining = true → ∃ t, exec (.svcDisableTimeout p) s = .next t ∧ t.time = s.time ∧ t.svcMode p = { s.svcMode p with on := false, draining := false } ∧
      ∀ d, (s.ctx d).svc = true → (s.ctx d).part = p → (s.ctx d).st ≠ .free → (t.ctx d).zero = some .free)

/-- Watchdogs, resets and fences of engines (R216, R498 to R501, R521): an expiry resets the context, or the engine, which stays in reset or offline, and is recorded under 0x530, 0x531 and 0x534; without its enable bit it is only recorded; the issue credits gain D; CROWN_ENG_FENCE takes an engine out and puts it back.
Choices of the model in it: log entry 43. -/
def Obligations.WatchdogsResetContextsAndEngines : Prop :=
  ∀ (c e : Nat) (s : State), s.wf = true → s.boot.pend = none →
    ((s.ctx c).st = .ready → (s.ctx c).halting = false → s.waitsOf c = [] →
      (s.r F.CROWN_WDT_CTRL.CTX_EN [] = 1 → ∃ t, exec (.ctxWatchdogExpiry c) s = .next t ∧ t.time = s.time ∧ 0x530 ∈ s.causes t ∧ (t.ctx c).last = stTimeout ∧ (t.ctx c).resetting = true ∧ (t.ctx c).zero.isSome = true) ∧
      (s.r F.CROWN_WDT_CTRL.CTX_EN [] = 0 → ∃ t, exec (.ctxWatchdogExpiry c) s = .next t ∧ s.keeps t [.log] ∧ s.causes t = [0x530])) ∧
    (c ∈ engCtxs e → (s.ctx c).st = .ready → (s.ctx c).halting = false → SMap.get 0 s.eng.engs e ≠ 2 →
      (s.r F.CROWN_WDT_CTRL.ENG_EN [] = 1 → ∃ t, exec (.engineWatchdogExpiry e) s = .next t ∧ t.time = s.time ∧ 0x531 ∈ s.causes t ∧ SMap.get 0 t.eng.engs e ≠ 0 ∧ (t.ctx c).last = stTimeout) ∧
      (s.r F.CROWN_WDT_CTRL.ENG_EN [] = 0 → ∃ t, exec (.engineWatchdogExpiry e) s = .next t ∧ s.keeps t [.log] ∧ s.causes t = [0x531])) ∧
    ((s.ctx c).resetting = true → SMap.get 0 s.eng.engs (ctxEng c) = 0 → ∃ t, exec (.contextResetTimeout c) s = .next t ∧ t.time = s.time ∧ 0x531 ∈ s.causes t ∧ SMap.get 0 t.eng.engs (ctxEng c) ≠ 0) ∧
    (SMap.get 0 s.eng.engs e = 1 → ∃ t, exec (.engineResetTimeout e) s = .next t ∧ t.time = s.time ∧ 0x534 ∈ s.causes t ∧ SMap.get 0 t.eng.engs e = 2 ∧ bit (t.r F.SPL_ENG_AVAIL.AVAIL [e / 64]) (e % 64) = false) ∧
    (∃ t, exec .issueCreditRefill s = .next t ∧ s.keeps t [.eng] ∧ ∀ i, SMap.get 128 t.eng.mcred i = min 128 (SMap.get 128 s.eng.mcred i + s.r F.PWR_STATUS.DUTY []) ∧
      SMap.get 128 t.eng.vcred i = min 128 (SMap.get 128 s.eng.vcred i + s.r F.PWR_STATUS.DUTY [])) ∧
    (e = s.r F.CROWN_ENG_FENCE.ENGINE [] → s.r F.CROWN_ENG_FENCE.GO [] = 0 → s.engOff e = false →
      (s.r F.CROWN_ENG_FENCE.FENCE [] = 1 → ∃ t, exec .engFenceCommand s = .next t ∧ t.time = s.time ∧ bit (t.r F.SPL_ENG_AVAIL.AVAIL [e / 64]) (e % 64) = false ∧ t.r F.CROWN_HEALTH.FENCED [e] = 1 ∧ 0x902 ∈ s.causes t ∧
        t.r F.CROWN_ENG_FENCE.DONE [] = 1 ∧ t.r F.CROWN_ENG_FENCE.RESULT [] = 0 ∧ (c ∈ engCtxs e → (s.ctx c).st = .done → (t.ctx c).zero = some .free)) ∧
      (s.r F.CROWN_ENG_FENCE.FENCE [] = 0 → ∃ t, exec .engFenceCommand s = .next t ∧ s.keeps t [.regs, .log] ∧ bit (t.r F.SPL_ENG_AVAIL.AVAIL [e / 64]) (e % 64) = true ∧ t.r F.CROWN_HEALTH.FENCED [e] = 0 ∧
        t.r F.CROWN_ENG_FENCE.DONE [] = 1 ∧ t.r F.CROWN_ENG_FENCE.RESULT [] = 0))

/-! ### Knots (R345 to R360) -/

/-- Signals, arrivals, waits, deadlines and commands of a knot (R345 to R348, R353, R355, R356, R360): a signal adds to a COUNTER and sets an EVENT and keeps the first failure; an arrival counts at a BARRIER and the last one starts the next generation; a wait reaches its knot behind the arrivals on its handle before it, and returns at once or stays; a deadline returns LATE; a stage release lets a member
go; rearm makes a BROKEN knot ACTIVE; a queued launch starts on a PARKED instance. -/
def Obligations.KnotsCountArriveAndWake : Prop :=
  ∀ (n : Nat) (s : State), s.wf = true →
    (∀ i g, SMap.get none s.knots.sigs i = some g → g.knot = n → (s.knot n).waits = [] →
      ((s.knot n).st = .active → s.knotTy n = tyCounter → g.status = stOk → ∃ t, exec (.knotSignalApply i) s = .next t ∧ s.keeps t [.regs, .knots, .mir, .sent] ∧ SMap.get none t.knots.sigs i = none ∧
        t.knot n = { s.knot n with value := ((s.knot n).value + 1) % 2 ^ 64 }) ∧
      ((s.knot n).st = .active → s.knotTy n = tyEvent → g.status ≠ stOk → ∃ t, exec (.knotSignalApply i) s = .next t ∧ s.keeps t [.regs, .knots, .mir, .sent] ∧ SMap.get none t.knots.sigs i = none ∧
        t.knot n = { s.knot n with value := 1, fail := if (s.knot n).fail = 0 then g.status else (s.knot n).fail }) ∧
      ((s.knot n).st = .broken → ∃ t, exec (.knotSignalApply i) s = .next t ∧ s.keeps t [.knots, .log] ∧ t.knot n = s.knot n ∧ s.causes t = [0x50B])) ∧
    (∀ o p, s.aop o = some p → p.kind = .knotArr → p.a = n → s.storesBefore o p = false → (s.knot n).held.contains (.op o) = false → (s.knot n).st = .active → s.knotTy n = tyBarrier → s.r F.KNOT.STAGE [n] = 0 →
      (s.ctx p.ctx).halting = false → (s.knot n).waits = [] →
      ((s.knot n).arrived + 1 ≠ s.barTarget n → ∃ t, exec (.knotArrivalApply o) s = .next t ∧ s.keeps t [.regs, .knots, .eng, .mir, .sent] ∧ t.aop o = none ∧ t.knot n = { s.knot n with arrived := (s.knot n).arrived + 1 } ∧
        (p.dead = false → ((s.ctx p.ctx).handle p.fn).bound = true → ((s.ctx p.ctx).handle p.fn).id = p.b → ((t.ctx p.ctx).handle p.fn).arrGen = some (s.knot n).gen) ∧
        (p.dead = false → ∀ w y, o < w → s.aop w = some y → y.ctx = p.ctx → y.dead = false → y.kind = .knotWait → y.fn = p.fn → y.b = p.b → t.aop w = some { y with gen := some (s.knot n).gen })) ∧
      ((s.knot n).arrived + 1 = s.barTarget n → ∃ t, exec (.knotArrivalApply o) s = .next t ∧ s.keeps t [.regs, .knots, .eng, .mir, .sent] ∧ t.aop o = none ∧
        t.knot n = { s.knot n with arrived := 0, gen := ((s.knot n).gen + 1) % 2 ^ 32 })) ∧
    (∀ o p r, s.aop o = some p → p.kind = .knotWait → p.a = n → p.dst = .s r → p.dead = false → (s.ctx p.ctx).halting = false →
      (s.handleOps p .knotArr (fun i => decide (i < o)) ≠ [] → exec (.knotWaitArrive o) s = .next s) ∧
      (s.handleOps p .knotArr (fun i => decide (i < o)) = [] → ((s.knot n).waits.any fun w => decide (w.op = o)) = false → s.waitNow n p.gen = none → ∃ t, exec (.knotWaitArrive o) s = .next t ∧
        s.keeps t [.knots] ∧ t.knot n = { s.knot n with waits := (s.knot n).waits ++ [{ ctx := p.ctx, op := o, gen := p.gen.getD (s.knot n).gen }] }) ∧
      (s.handleOps p .knotArr (fun i => decide (i < o)) = [] → ((s.knot n).waits.any fun w => decide (w.op = o)) = false → (s.knot n).st = .active → s.knotTy n = tyEvent → (s.knot n).value ≠ 0 → ∃ t, exec (.knotWaitArrive o) s = .next t ∧
        s.keeps t [.eng] ∧ t.aop o = none ∧ (t.ctx p.ctx).sr r = waitWord stOk true (s.knot n).value) ∧
      (p.deadline.isSome = true → ∃ t, exec (.knotWaitDeadline o) s = .next t ∧ s.keeps t [.regs, .knots, .eng] ∧ t.aop o = none ∧ (t.ctx p.ctx).sr r = waitWord stLate false (s.knotShown n) ∧
        (∀ w ∈ (t.knot n).waits, w.op ≠ o) ∧ (t.knot n).value = (s.knot n).value)) ∧
    (∀ r q c, s.req r = some q → q.src = .conn c → s.peerIdx c = some (s.r F.KNOT.HOME_INDEX [n]) → q.op = 0x11 → q.len = 8 → q.resp = false → q.wait = .none → q.dest = .knotWin → s.slotOf (q.addr % 2 ^ 52) = some (n, 0x18) →
      s.knotPart n = some q.part → (s.knot n).st = .active → s.knotTy n = tyBarrier → s.r F.KNOT.STAGE [n] = 2 → (s.knot n).held = [] → (s.knot n).waits = [] →
      ∃ t, exec (.knotStageRelease r) s = .next t ∧ t.time = s.time ∧ t.knot n = { s.knot n with gen := ((s.knot n).gen + 1) % 2 ^ 32, arrived := 0 } ∧ s.ended t r q stOk []) ∧
    (s.reach 0x1400000 = true → (s.knot n).st = .broken → (s.knot n).ownerFreed = false → ∃ t, exec (.knotRearm n) s = .next t ∧ s.keeps t [.regs, .knots, .mir, .sent] ∧
      t.knot n = { s.knot n with st := .active, value := wrap 64 (sext 32 (s.r F.KNOT.INIT [n])), arrived := 0, gen := ((s.knot n).gen + 1) % 2 ^ 32, fail := 0 }) ∧
    (s.reach 0x1400000 = true → ∃ t, exec (.knotClrFail n) s = .next t ∧ s.keeps t [.regs, .knots, .mir, .sent] ∧ t.knot n = { s.knot n with fail := 0 }) ∧
    (∀ p g l c, s.knots.launches.find? (fun l => decide (l.part = p ∧ l.prog = g)) = some l → s.parked p g = some c → ∃ t, exec (.knotQueuedLaunchStart p g) s = .next t ∧ s.keeps t [.knots, .eng] ∧
      t.knots.launches = s.knots.launches.erase l ∧ (t.ctx c).st = .ready ∧ (t.ctx c).pc = s.entryOf (s.ctx c) ∧ (t.ctx c).sr 5 = l.knot % 2 ^ 64)

/-! ### Instructions of programs -/

/-- The scalar and control instructions (R270 to R274, R207): s.alu and s.cmp as arithmetic on 64-bit words with the corners of R232, s.li, s.getl and s.setl; the branches, which fault under 0x501 where the target is no instruction start; halt; cap.rd, st.rd, st.clr and time.rd. Each writes its destination,
moves PC and leaves every other register, context and byte as it was. -/
def Obligations.ScalarInstructionsAct : Prop :=
  ∀ (c : Nat) (i : Ins) (s : State) (x : Ctx) (A B : Word) (near : Int), s.wf = true → x = s.ctx c → A = x.sw i.sa → B = i.bw x → near = x.pc + sext 16 i.imm * 8 →
    (s.atIns c 0x00 i → i.fn < 16 → ∃ t r, exec (.iSAlu c) s = .next t ∧ s.retired t c i (x.setS i.dst (BitVec.toNat r)) ∧
      [A + B, A - B, A * B, BitVec.ofNat 64 (A.toNat * B.toNat / 2 ^ 64), BitVec.ofInt 64 (A.toInt * B.toInt / 2 ^ 64), BitVec.smtUDiv A B, (if B = 0 then -1 else A.sdiv B), A % B, (if B = 0 then A else A.srem B),
        A &&& B, A ||| B, A ^^^ B, (if 64 ≤ B.toNat then 0 else A <<< B.toNat), (if 64 ≤ B.toNat then 0 else A >>> B.toNat), A.sshiftRight (min B.toNat 63), B][i.fn]? = some r) ∧
    (s.atIns c 0x01 i → i.fn < 10 → ∃ t r, exec (.iSCmp c) s = .next t ∧ s.retired t c i (x.setS i.dst (BitVec.toNat r)) ∧
      [(if A = B then 1 else 0), (if A = B then 0 else 1), (if A.toNat < B.toNat then 1 else 0), (if A.toInt < B.toInt then 1 else 0), (if A.toNat ≤ B.toNat then 1 else 0), (if A.toInt ≤ B.toInt then 1 else 0),
        (if A.toNat ≤ B.toNat then A else B), (if A.toInt ≤ B.toInt then A else B), (if A.toNat ≤ B.toNat then B else A), (if A.toInt ≤ B.toInt then B else A)][i.fn]? = some r) ∧
    (s.atIns c 0x02 i → ∃ t, exec (.iSLi c) s = .next t ∧ s.retired t c i (x.setS i.dst i.ext)) ∧
    (s.atIns c 0x03 i → ∃ t, exec (.iSGetl c) s = .next t ∧ s.retired t c i (x.setS i.dst (x.lane i.sa (B.toNat % 64)))) ∧
    (s.atIns c 0x04 i → ∃ t, exec (.iSSetl c) s = .next t ∧ s.retired t c i (x.setV i.dst ((List.range 64).map (fun l => if l = B.toNat % 64 then A.toNat % 2 ^ 32 else x.lane i.dst l)))) ∧
    (s.startAt c near →
      (s.atIns c 0x10 i → ∃ t, exec (.iBr c) s = .next t ∧ s.branched t c x near.toNat) ∧
      (s.atIns c 0x11 i → i.fn = 0 ∧ A = 0 ∨ i.fn = 1 ∧ A ≠ 0 ∨ i.fn = 2 ∧ A.toInt < 0 ∨ i.fn = 3 ∧ 0 ≤ A.toInt → ∃ t, exec (.iBc c) s = .next t ∧ s.branched t c x near.toNat) ∧
      (s.atIns c 0x12 i → i.fn = 0 ∧ x.pr i.sa ≠ 0 ∨ i.fn = 1 ∧ x.pr i.sa = 0 ∨ i.fn = 2 ∧ x.pr i.sa = 2 ^ 64 - 1 → ∃ t, exec (.iBp c) s = .next t ∧ s.branched t c x near.toNat) ∧
      (s.atIns c 0x14 i → ∃ t, exec (.iCall c) s = .next t ∧ s.branched t c (x.setS i.dst (x.pc + 8)) near.toNat)) ∧
    (s.atIns c 0x11 i → i.fn = 0 ∧ A ≠ 0 ∨ i.fn = 1 ∧ A = 0 ∨ i.fn = 2 ∧ 0 ≤ A.toInt ∨ i.fn = 3 ∧ A.toInt < 0 → ∃ t, exec (.iBc c) s = .next t ∧ s.retired t c i x) ∧
    (s.atIns c 0x12 i → i.fn = 0 ∧ x.pr i.sa = 0 ∨ i.fn = 1 ∧ x.pr i.sa ≠ 0 ∨ i.fn = 2 ∧ x.pr i.sa ≠ 2 ^ 64 - 1 → ∃ t, exec (.iBp c) s = .next t ∧ s.retired t c i x) ∧
    (s.atIns c 0x13 i → s.startAt c (x.pc + sext 48 i.ext * 8) → ∃ t, exec (.iBrL c) s = .next t ∧ s.branched t c x ((x.pc : Int) + sext 48 i.ext * 8).toNat) ∧
    (s.atIns c 0x15 i → s.startAt c A.toNat → ∃ t, exec (.iJr c) s = .next t ∧ s.branched t c x A.toNat) ∧
    (s.atIns c 0x15 i → s.faultStays c → ¬ s.startAt c A.toNat → ∃ t, exec (.iJr c) s = .next t ∧ s.faults t c 0x501 stDenied) ∧
    (s.atIns c 0x16 i → s.r F.CROWN_HEALTH.FENCED [ctxEng c] = 0 →
      (s.opsOf c = [] → x.mode = false → ∃ t, exec (.iHalt c) s = .next t ∧ s.retired t c i { x with st := .done }) ∧
      (s.opsOf c ≠ [] → ∃ t, exec (.iHalt c) s = .next t ∧ s.retired t c i { x with halting := true })) ∧
    (s.atIns c 0x17 i → ∃ t, exec (.iCapRd c) s = .next t ∧ s.retired t c i (x.setS i.dst (capability c x B.toNat))) ∧
    (s.atIns c 0x18 i → ∃ t, exec (.iStRd c) s = .next t ∧ s.retired t c i (x.setS i.dst x.stat)) ∧
    (s.atIns c 0x19 i → ∃ t, exec (.iStClr c) s = .next t ∧ s.retired t c i { x with stat := 0 }) ∧
    (s.atIns c 0x1A i → ∃ t, exec (.iTimeRd c) s = .next t ∧ s.retired t c i (x.setS i.dst (s.shadow (ctxDie c))))

/-- The vector, predicate, reduction, conversion, local memory and tile instructions (R234 to R244, R275 to R281, R285, R302 to R304): each acts on the active lanes of its operands by the merge rule of R240, a load or store of an aligned place in a window moves its bytes and one that is not
faults under 0x504 or 0x502 and does nothing, mma adds a product to its tile and advances the count of the engine. The functions of one element are those of the model (vIalu, vFalu, cvt and the others of Machine/IsaVector.lean). -/
def Obligations.VectorAndLocalInstructionsAct : Prop :=
  ∀ (c : Nat) (i : Ins) (s : State) (x : Ctx) (a n : Nat), s.wf = true → x = s.ctx c → a = i.addr x → n = 2 ^ (i.fn % 4) →
    (s.atIns c 0x20 i → ∃ t, exec (.iVIalu c) s = .next t ∧ s.retired t c i (x.merged i i.dst fun l => perElem (intW i.fmt) (vIalu i.fn (intW i.fmt) (decide (i.fmt ≠ 1)) i.sat) (x.lane i.sa l) (i.laneB x (immLane (intW i.fmt) i.imm) l))) ∧
    (s.atIns c 0x21 i → ∃ t, exec (.iVIcmp c) s = .next t ∧ s.retired t c i (x.mergedP i i.dst fun l => relInt i.fn (elemVal 32 (decide (i.fmt = 0)) (x.lane i.sa l)) (elemVal 32 (decide (i.fmt = 0)) (i.laneB x (immLane 32 i.imm) l)))) ∧
    (s.atIns c 0x22 i → i.fn < 5 → ∃ t f, exec (.iVMov c) s = .next t ∧ s.retired t c i (x.merged i i.dst f) ∧ ∀ l, l < 64 →
      [x.lane i.sa l, x.sr i.sa % 2 ^ 32, (x.sr i.sa + l) % 2 ^ 32, x.lane i.sa (x.lane i.sb l % 64), x.lane i.sa ((l + x.sr i.sb) % 64)][i.fn]? = some (f l)) ∧
    (s.atIns c 0x23 i → i.fn < 6 → ∃ t r, exec (.iPOp c) s = .next t ∧ s.retired t c i (x.setP i.dst (BitVec.toNat (w := 64) r)) ∧
      [x.pr i.sa &&& x.pr i.sb, x.pr i.sa ||| x.pr i.sb, x.pr i.sa ^^^ x.pr i.sb, x.pr i.sa &&& (2 ^ 64 - 1 - x.pr i.sb), 2 ^ 64 - 1 - x.pr i.sa, 2 ^ min 64 (x.sr i.sa) - 1][i.fn]? = some r.toNat) ∧
    (s.atIns c 0x24 i → ∃ t, exec (.iPCnt c) s = .next t ∧ s.retired t c i (x.setS i.dst ((List.range 64).countP (fun l => bit (x.pr i.sa) l)))) ∧
    (s.atIns c 0x30 i → ∃ t, exec (.iVFalu c) s = .next t ∧ s.retired t c i (x.merged i i.dst fun l => perElem (fltW i.fmt) (vFalu i.fmt i.fn i.rm) (x.lane i.sa l) (i.laneB x (fltImm i.fmt i.imm) l))) ∧
    (s.atIns c 0x31 i → ∃ t, exec (.iVFfma c) s = .next t ∧ s.retired t c i (x.merged i i.dst fun l => perElem3 (fltW i.fmt) (vFfma i.fmt i.fn i.rm) (x.lane i.sa l) (i.laneB x (fltImm i.fmt i.imm) l) (x.lane i.sc l))) ∧
    (s.atIns c 0x32 i → ∃ t, exec (.iVFcmp c) s = .next t ∧ s.retired t c i (x.mergedP i i.dst fun l => relFlt i.fn (fp32.dec (x.lane i.sa l)) (fp32.dec (i.laneB x (fltImm 2 i.imm) l)))) ∧
    (s.atIns c 0x33 i → ∃ t, exec (.iVFlong c) s = .next t ∧ s.retired t c i (x.merged i i.dst fun l => vFlong i.fn i.rm (x.lane i.sa l) (x.lane i.sb l))) ∧
    (s.atIns c 0x50 i → ∃ t, exec (.iRedV c) s = .next t ∧ s.retired t c i (x.setS i.dst (redV i.fmt i.fn i.rm (x.pr i.pg) (x.vr i.sa)))) ∧
    (s.atIns c 0x51 i → ∃ t k, exec (.iRedTopk c) s = .next t ∧ s.retired t c i ((x.setV i.dst (List.map (fun e => if (fp32.dec e.s).isNaN then fp32.nan else e.s) k)).setV (i.dst + 1) (k.map (·.i))) ∧
      k = topk (candsOf 0 (x.vr i.dst) (x.vr (i.dst + 1)) ++ (candsOf 1 (x.vr i.sa) (x.vr i.sb)).filter (fun e => bit (x.pr i.pg) e.pos)) ∧ k.length = 64) ∧
    (s.atIns c 0xE0 i → ∃ t, exec (.iCvt c) s = .next t ∧ s.retired t c i (x.merged i i.dst fun l => cvt i.fmt i.fn i.rm i.sat (x.lane i.sa l))) ∧
    (s.atIns c 0xE1 i → ∃ t, exec (.iVPack c) s = .next t ∧ s.retired t c i (x.setV i.dst (vPack i.fn (x.vr i.sa) (x.vr i.sb) (x.vr i.dst)))) ∧
    (s.atIns c 0xE2 i → ∃ t u v, exec (.iMxQ c) s = .next t ∧ u = mxQuant i.fmt i.rm i.sat ((List.range 32).map fun l => fp32.dec (x.lane i.sa l)) ∧ v = mxQuant i.fmt i.rm i.sat ((List.range 32).map fun l => fp32.dec (x.lane i.sa (32 + l))) ∧
      s.retired t c i ((x.setV i.dst ((List.range 64).map fun l => bits (packElems (mxBits i.fmt) (u.2 ++ v.2)) (32 * l) 32)).setS i.sc (u.1 + 256 * v.1))) ∧
    (s.atIns c 0xE3 i → ∃ t, exec (.iMxDq c) s = .next t ∧ s.retired t c i (x.setV i.dst ((List.range 64).map fun l =>
      mxValue i.fmt (bits (packElems 32 (x.vr i.sa)) (mxBits i.fmt * l) (mxBits i.fmt)) (bits (x.sr i.sb) (8 * (l / 32)) 8)))) ∧
    (∀ p, x.locate c a n = some p → a % n = 0 →
      (s.atIns c 0x70 i → ∃ t, exec (.iLdS c .ok) s = .next t ∧ s.retired t c i (x.setS i.dst (if 4 ≤ i.fn then wrap 64 (sext (8 * n) (ofLe (s.localBytes p n))) else ofLe (s.localBytes p n)))) ∧
      (s.atIns c 0x70 i → s.faultStays c → ∃ t, exec (.iLdS c .uncorrectable) s = .next t ∧ t.ctx c = { x with st := .faulted, last := stUncorr, halting := false, rid := s.nextRid (srcEng (ctxDie c)) } ∧ 0x503 ∈ s.causes t) ∧
      (s.atIns c 0x71 i → ∃ t, exec (.iStS c) s = .next t ∧ s.retiredMem t c i x ∧ s.localStored t p (leBytes n (x.sr i.sb)))) ∧
    (s.atIns c 0x70 i → s.faultStays c → a % n ≠ 0 → ∃ t, exec (.iLdS c .ok) s = .next t ∧ s.faults t c 0x504 stDenied) ∧
    (s.atIns c 0x71 i → s.faultStays c → a % n = 0 → x.locate c a n = none → ∃ t, exec (.iStS c) s = .next t ∧ s.faults t c 0x502 stDenied) ∧
    (x.lanesIn c i (i.lane x) →
      (s.atIns c 0x72 i → ∃ t, exec (.iLdV c .ok) s = .next t ∧ s.retired t c i (x.merged i i.dst fun l => ofLe ((s.readLocal c (i.lane x l) 4).getD []))) ∧
      (s.atIns c 0x73 i → ∃ t, exec (.iStV c) s = .next t ∧ s.retiredMem t c i x ∧ s.lanesStored t c x i (i.lane x) (x.lane i.sb))) ∧
    (x.lanesIn c i (i.laneX x) →
      (s.atIns c 0x74 i → ∃ t, exec (.iLdVx c .ok) s = .next t ∧ s.retired t c i (x.merged i i.dst fun l => ofLe ((s.readLocal c (i.laneX x l) 4).getD []))) ∧
      (s.atIns c 0x75 i → ∃ t, exec (.iStVx c) s = .next t ∧ s.retiredMem t c i x ∧ s.lanesStored t c x i (i.laneX x) (x.lane i.sc))) ∧
    (SMap.wf 0 x.a = true →
      (∀ pa pb, s.atIns c 0x40 i → x.scratchFault c (x.sr i.sa) (panelBytes i.fmt 64) 64 = none → x.scratchFault c (x.sr i.sb) (panelBytes i.fmt 96) 64 = none → s.readLocal c (x.sr i.sa) (panelBytes i.fmt 64) = some pa →
        s.readLocal c (x.sr i.sb) (panelBytes i.fmt 96) = some pb → ∃ t y, exec (.iMma c .ok) s = .next t ∧ s.retired t c i y ∧ SMap.get 0 t.eng.mmaCount (ctxEng c) = SMap.get 0 s.eng.mmaCount (ctxEng c) + 1 ∧
          x.tilesTo y fun m => (tilePos i.dst m).map fun e => BitVec.ofNat 32 (mmaElem i.fmt pa pb e.1 e.2 (if i.acc then fp32.dec (x.tile i.dst e.1 e.2) else .fin false 0 0))) ∧
      (s.atIns c 0x41 i → ∃ t y, exec (.iTileZero c) s = .next t ∧ s.retired t c i y ∧ x.tilesTo y fun m => (tilePos i.dst m).map fun _ => 0) ∧
      (s.atIns c 0x43 i → ∃ t y, exec (.iTileWrc c) s = .next t ∧ s.retired t c i y ∧ x.tilesTo y fun m => (tilePos i.dst m).bind fun e =>
        let l := e.1 - bits (x.sr i.sb) 16 16
        if e.2 = bits (x.sr i.sb) 0 16 ∧ bits (x.sr i.sb) 16 16 ≤ e.1 then (if bit (x.pr i.pg) l then some (BitVec.ofNat 32 (x.lane i.sa l)) else if i.z then some 0 else none) else none)) ∧
    (s.atIns c 0x42 i → ∃ t, exec (.iTileRdc c .ok) s = .next t ∧ s.retired t c i (x.merged i i.dst fun l =>
      if bits (x.sr i.sb) 16 16 + l < 64 ∧ bits (x.sr i.sb) 0 16 < 96 then x.tile i.sa (bits (x.sr i.sb) 16 16 + l) (bits (x.sr i.sb) 0 16) else 0))

/-- The asynchronous instructions are issued (R225, R256 to R261, R282 to R301, R305): under its limit in flight and with its checks passed, each retires with its operation in flight under the next number: a fabric instruction with its request in the stream of the context, a unit's with what it read at issue.
knot.bind, knot.test and cleat.look act at once. A misaligned fab.ld ends at issue with ACCESS_DENIED, its register 0.
Choices of the model in it: log entry 40. -/
def Obligations.AsynchronousInstructionsIssue : Prop :=
  ∀ (c : Nat) (i : Ins) (s : State) (x : Ctx) (k : AKind → AOp), s.wf = true → x = s.ctx c → k = i.opFor x c →
    (s.inFlight c fabKinds < s.r F.SPL_FAB_CTRL.MAX_INFLIGHT [ctxDie c] → ∀ n : Nat,
      (s.atIns c 0x90 i → n = (if i.fn = 4 then 256 else 2 ^ i.fn) →
        (∀ q d e e2, x.sr i.sa % n = 0 → q = ({ src := .tier, op := 0x10, addr := x.sr i.sa, len := n, attr := mkAttr 0 0 0 i.nocomb 0 } : Req) → s.passes c i q F.SPL_PART_ACCESS.MEM d e e2 →
          ∃ t, exec (.iFabLd c) s = .next t ∧ s.asks t c i { ctx := c, pc := x.pc, kind := .fabLd, dst := if i.fn = 4 then .v i.dst else .s i.dst } q d e e2) ∧
        (x.sr i.sa % n ≠ 0 → i.fn ≠ 4 → i.trap = false → ∃ t, exec (.iFabLd c) s = .next t ∧ t.aop s.nextId = none ∧ 0x509 ∈ s.causes t ∧
          t.ctx c = (({ x with pc := x.pc + i.len, issuedAt := s.eng.order + 1, monAt := s.time.now } : Ctx).setS i.dst 0).note stDenied x.pc)) ∧
      (∀ q d e e2, s.atIns c 0x91 i → x.knotOk c i → n = (if i.fn = 4 then 256 else 2 ^ i.fn) → x.sr i.sa % n = 0 →
        q = ({ src := .tier, op := 0x11, addr := x.sr i.sa, len := n, data := if i.fn = 4 then (x.vr i.sb).flatMap (leBytes 4) else leBytes n (x.sr i.sb) } : Req) → s.passes c i q F.SPL_PART_ACCESS.MEM d e e2 →
        ∃ t, exec (.iFabSt c) s = .next t ∧ s.asks t c i (k .fabSt) q d e e2) ∧
      (∀ u q d e e2, s.atIns c (if u then 0x93 else 0x92) i → n = 4 * 2 ^ (atomForm u i.fmt).1 →
        q = ({ src := .tier, op := 0x12, addr := x.sr i.sa, attr := mkAttr i.fn (atomForm u i.fmt).1 (atomForm u i.fmt).2 i.nocomb 0, opA := x.sr i.sb % 2 ^ (8 * n), opB := x.sr i.dst % 2 ^ (8 * n) } : Req) →
        s.passes c i q F.SPL_PART_ACCESS.MEM d e e2 → ∃ t, exec (if u then .iFabAtomu c else .iFabAtom c) s = .next t ∧
          s.asks t c i { ctx := c, pc := x.pc, kind := .fabAtom, dst := .s i.dst, a := (atomForm u i.fmt).2, len := n } q d e e2) ∧
      (∀ q d e e2, s.atIns c 0x94 i → x.knotOk c i → i.fn ≤ 8 → q = ({ src := .tier, op := 0x13, addr := x.sr i.sa, len := 8 * i.fn, data := ((x.vr i.sb).flatMap (leBytes 4)).take (8 * i.fn) } : Req) →
        s.passes c i q F.SPL_PART_ACCESS.TRIGGER d e e2 → ∃ t, exec (.iFabTrig c) s = .next t ∧ s.asks t c i (k .fabTrig) q d e e2) ∧
      (∀ p, n = x.sr i.sb / 2 ^ 32 → x.sr i.sa % 64 = 0 → x.sr i.sb % 64 = 0 → n % 64 = 0 → 64 ≤ n → n ≤ 2 ^ 24 → x.locate c (x.sr i.sb % 2 ^ 32) n = some p → x.knotOk c i → ∀ q d e e2, s.passes c i q F.SPL_PART_ACCESS.BULK d e e2 →
        (s.atIns c 0x95 i → q = { src := .tier, op := 0x14, addr := x.sr i.sa, len := n } → ∃ t, exec (.iFabBld c) s = .next t ∧ s.asks t c i { k .fabBld with dst := .win p.1 p.2, len := n } q d e e2) ∧
        (s.atIns c 0x96 i → q = { src := .tier, op := 0x15, addr := x.sr i.sa, len := n, want := n, rcv := n, segs := [(0, s.localBytes p n)] } →
          ∃ t, exec (.iFabBst c .ok) s = .next t ∧ s.asks t c i { k .fabBst with dst := .win p.1 p.2, len := n } q d e e2)) ∧
      (∀ b q d e e2, s.atIns c 0x97 i → x.knotOk c i → x.scratchFault c (x.sr i.sa) 32 32 = none → s.readLocal c (x.sr i.sa) 32 = some b → byteAt b 20 ≤ 15 → leAt b 21 3 = 0 →
        q = ({ src := .tier, op := 0x16, addr := leAt b 0 8, len := leAt b 16 4, opA := leAt b 8 8, attr := mkAttr (byteAt b 20) (if i.fn ≤ 3 then 0 else (atomForm false i.fmt).1) (if i.fn ≤ 3 then 0 else (atomForm false i.fmt).2) false i.fn } : Req) →
        s.passes c i q F.SPL_PART_ACCESS.NEAR d e e2 →
        ∃ t o, exec (.iFabNear c .ok) s = .next t ∧ s.asks t c i o q d e e2 ∧ o = { k .fabNear with dst := o.dst, len := leAt b 16 4 } ∧ ∀ p, x.locate c (x.sr i.sa + 24) 8 = some p → o.dst = .win p.1 p.2) ∧
      (∀ p, s.atIns c 0x58 i → x.knotOk c i → n = x.sr i.sb / 2 ^ 32 → x.sr i.sb % 64 = 0 → n % 64 = 0 → 64 ≤ n → n ≤ 8192 → x.locate c (x.sr i.sb % 2 ^ 32) n = some p →
        ∃ t, exec (.iRedAdd c .ok) s = .next t ∧ s.asks t c i (k .redAdd) { src := .tier, op := 0x20, attr := 256 + 16 * i.fn + i.fmt, words := [x.sr i.sa, 0], data := s.localBytes p n } .service none none)) ∧
    (s.inFlight c [.gather, .filter] < 8 → x.knotOk c i →
      (∀ a d, s.atIns c 0x60 i → a = x.sr i.sa % 2 ^ 32 → d = x.sr i.dst % 2 ^ 32 → 2 ^ 31 ≤ a → d < 2 ^ 31 →
        (∀ l, l < 64 → bit (x.pr i.pg) l = true → a - 2 ^ 31 + x.lane i.sb l + gfBytes i.fmt ≤ x.cluSize * 65536 ∧ (a - 2 ^ 31 + x.lane i.sb l) % gfBytes i.fmt = 0 ∧
          d + l * gfBytes i.fmt + gfBytes i.fmt ≤ x.scrSize * 65536 ∧ (d + l * gfBytes i.fmt) % gfBytes i.fmt = 0) →
        ∃ t, exec (.iGfGather c) s = .next t ∧ s.unitHas t c i x { k .gather with a := d, len := gfBytes i.fmt, mask := x.pr i.pg, words := (List.range 64).map (fun l => a - 2 ^ 31 + x.lane i.sb l) }) ∧
      (∀ b, s.atIns c 0x61 i → x.scratchFault c (x.sr i.sa) 32 32 = none → s.readLocal c (x.sr i.sa) 32 = some b → filterOk i.fmt i.fn b = true → filterOut c x i.fmt i.fn b = none →
        ∃ t, exec (.iGfFilter c .ok) s = .next t ∧ s.unitHas t c i x { k .filter with data := b, fn := i.fn, c := i.fmt })) ∧
    (∀ b, s.atIns c 0x80 i → s.inFlight c [.dma] < 8 → s.dmaSlots (ctxClu c) < 64 → x.knotOk c i → x.scratchFault c (x.sr i.sa) 64 64 = none → s.readLocal c (x.sr i.sa) 64 = some b → dmaOk b = true →
      ∃ t, exec (.iDma c .ok) s = .next t ∧ s.unitHas t c i x { k .dma with data := b }) ∧
    (∀ a n e y ps, s.atIns c 0x81 i → s.inFlight c [.pfPage] < 16 → x.knotOk c i → a = x.sr i.sa → n = bits (x.sr i.sb) 0 16 → a % 2 ^ 21 = 0 → 0 < n → n ≤ 512 → bits (x.sr i.sb) 16 16 = 0 → bits (x.sr i.sb) 32 16 ≠ 0 →
      bits (x.sr i.sb) 48 16 = 0 → (∀ f, s.extAt (a % 2 ^ 52) = some f → a % 2 ^ 52 + n * 2 ^ 21 ≤ (s.ext f).base + (s.ext f).size) →
      s.progVerdict c { src := .tier, op := 0x14, addr := a, len := n * 2 ^ 21, part := x.part } F.SPL_PART_ACCESS.BULK = .serve .home (some e) none → y = s.ext e → y.compressed = false → s.pool.prefetch = [] →
      ps = (pagesOf (a % 2 ^ 52) (n * 2 ^ 21)).filter (fun p => !s.placed y false p && decide ((s.page p).st ≠ .poisoned)) → ps ≠ [] →
      ∃ t f, exec (.iPfPage c) s = .next t ∧ s.launched t c i x (k .pfPage) ∧ t.pool.prefetch = [f] ∧ f.op = s.nextId ∧ f.ext = e ∧ f.staging = false ∧ f.pages = ps ∧ f.deadline = s.shadow (ctxDie c) + 1000 * bits (x.sr i.sb) 32 16) ∧
    (s.atIns c 0xA0 i → ∃ t, exec (.iKnotBind c) s = .next t ∧ s.retired t c i { x with k := SMap.set {} x.k i.dst { bound := true, knot := i.imm, id := s.eng.order + 1 } }) ∧
    (∀ h, h = x.handle i.sa → h.bound = true →
      (s.atIns c 0xA1 i → ∃ t, exec (.iKnotSig c) s = .next t ∧ s.unitHas t c i x { ctx := c, pc := x.pc, kind := .knotSig, a := h.knot, b := x.sr i.sb }) ∧
      (s.atIns c 0xA2 i → ∃ t, exec (.iKnotArr c) s = .next t ∧ s.unitHas t c i x { ctx := c, pc := x.pc, kind := .knotArr, a := h.knot, b := h.id, fn := i.sa }) ∧
      (s.inFlight c [.knotWait] < 8 →
        (s.atIns c 0xA3 i → ∃ t, exec (.iKnotWait c) s = .next t ∧ s.unitHas t c i x
          { ctx := c, pc := x.pc, kind := .knotWait, dst := .s i.dst, a := h.knot, b := h.id, fn := i.sa, gen := h.arrGen, deadline := if x.sr i.sb = 0 then none else some (s.shadow (ctxDie c) + x.sr i.sb) }) ∧
        (s.atIns c 0xA4 i → s.handleOps { ctx := c, pc := 0, kind := .knotWait, fn := i.sa, b := h.id } .knotArr (fun _ => true) = [] → ∃ t, exec (.iKnotTest c) s = .next t ∧ s.retired t c i (x.setS i.dst
          (match s.waitNow h.knot h.arrGen with | none => waitWord stOk false (s.knotShown h.knot) | some w => waitWord w.1 w.2 (s.knotShown h.knot)))))) ∧
    (∀ tag key, s.atIns c 0xB0 i → s.inFlight c [.cleatLook] < 8 → tag = bits (x.sr i.sb) 0 16 → bits (x.sr i.sb) 16 16 = 0 → s.lent x.part tag = true → bit i.fn 1 = false →
      key = (fun l => lookKey i.fmt (x.lane i.sa l) (if bit i.fn 0 then x.lane (i.sa + 1) l else 0)) → (∀ l, l < 64 → bit (x.pr i.pg) l = true → s.look tag (key l) ≠ .bad) →
      ∃ t, exec (.iCleatLook c .confirmed 0) s = .next t ∧ s.retired t c i (x.merged i i.dst fun l => match s.look tag (key l) with | .hit e => e.result % 2 ^ 32 | _ => bits (x.sr i.sb) 32 32)) ∧
    (s.inFlight c [.check] < 8 → x.chkSlot = true → x.knotOk c i →
      (∀ b, s.atIns c 0xC0 i → x.scratchFault c (x.sr i.sa) 32 32 = none → s.readLocal c (x.sr i.sa) 32 = some b → ∃ t, exec (.iChkCfg c .ok) s = .next t ∧ s.unitHas t c i x { k .check with fn := 0, data := b }) ∧
      (1 ≤ x.sr i.sb → x.sr i.sb ≤ 2 ^ 24 →
        (s.atIns c 0xC1 i → ∃ t, exec (.iChkUpd c) s = .next t ∧ s.unitHas t c i x { k .check with fn := 1, a := x.sr i.sa, len := x.sr i.sb }) ∧
        (s.atIns c 0xC2 i → ∃ t, exec (.iChkApp c) s = .next t ∧ s.unitHas t c i x { k .check with fn := 2, a := x.sr i.sa, len := x.sr i.sb })) ∧
      (s.atIns c 0xC3 i → ∃ t, exec (.iChkFin c) s = .next t ∧ s.unitHas t c i x { k .check with fn := 3, dst := .s i.dst }) ∧
      (s.atIns c 0xC4 i → ∃ t, exec (.iChkRd c) s = .next t ∧ s.unitHas t c i x { k .check with fn := 4, dst := .s i.dst }) ∧
      (s.atIns c 0xC5 i → ∃ t, exec (.iChkWr c) s = .next t ∧ s.unitHas t c i x { k .check with fn := 5, a := x.sr i.sa })) ∧
    (∀ b d p (w : Nat), s.inFlight c [.codec] < 4 → x.knotOk c i → x.scratchFault c (x.sr i.sa) 64 64 = none → s.readLocal c (x.sr i.sa) 64 = some b → x.locate c (x.sr i.sa + 48) 16 = some p → codecOk c x w b = true →
      (∀ m ∈ codecNeeds w b, s.unitRights c x.part m.1 m.2.1 m.2.2 = none) → s.codecDie none = some d →
      (s.atIns c 0xD0 i → w = cdCard → ∃ t, exec (.iCdcCard c .ok) s = .next t ∧ s.unitHas t c i x { k .codec with data := b, fn := w, dst := .win p.1 p.2, mask := d }) ∧
      (s.atIns c 0xD1 i → w = cdEncode → byteAt b 41 ≠ 1 → ∃ t, exec (.iCdcEncEncode c .ok) s = .next t ∧ s.unitHas t c i x { k .codec with data := b, fn := w, dst := .win p.1 p.2, mask := d }) ∧
      (s.atIns c 0xD1 i → w = cdFormat → byteAt b 41 = 1 → ∃ t, exec (.iCdcEncFormat c .ok) s = .next t ∧ s.unitHas t c i x { k .codec with data := b, fn := w, dst := .win p.1 p.2, mask := d }) ∧
      (s.atIns c 0xD2 i → w = cdDec → ∃ t, exec (.iCdcDec c .ok) s = .next t ∧ s.unitHas t c i x { k .codec with data := b, fn := w, dst := .win p.1 p.2, mask := d }))

/-- Asynchronous operations end (R226, R246, R256 to R259, R283, R284, R287, R299 to R301, R399 to R408): a response goes to its destination and the knot is signalled, a failed scalar load leaves 0 and its status in STAT, an operation without a response ends with TIMEOUT under 0x508; a descriptor, a gather or filter,
a check-value operation and a codec request do their work on local memory and signal; a codec unit places the block it encoded.
Choices of the model in it: log entries 2, 40, 54. -/
def Obligations.AsynchronousOperationsEnd : Prop :=
  ∀ (o : Nat) (p : AOp) (s : State) (x : Ctx), s.wf = true → s.aop o = some p → x = s.ctx p.ctx → p.dead = false → p.trap = false → p.crec = none → x.halting = false →
    (∀ st bs, p.reply = some (st, bs) →
      (∀ r, p.kind = .fabLd → p.dst = .s r → ∃ t, exec (.fabOpComplete o) s = .next t ∧ s.keeps t [.eng, .knots, .nextId] ∧ s.opEnds t o p st ∧ t.ctx p.ctx = if st = stOk then x.setS r (ofLe bs) else (x.setS r 0).note st p.pc) ∧
      (∀ r, p.kind = .fabLd → p.dst = .v r → st = stOk → ∃ t, exec (.fabOpComplete o) s = .next t ∧ s.keeps t [.eng, .knots, .nextId] ∧ s.opEnds t o p st ∧ t.ctx p.ctx = x.setV r (elems 4 bs)) ∧
      (∀ r, p.kind = .fabAtom → p.dst = .s r → st = stOk → ∃ t, exec (.fabOpComplete o) s = .next t ∧ s.keeps t [.eng, .knots, .nextId] ∧ s.opEnds t o p st ∧
        t.ctx p.ctx = x.setS r (if p.a = 1 then wrap 64 (sext (8 * p.len) (ofLe bs)) else ofLe bs)) ∧
      (∀ cl off, p.kind = .fabBld → p.dst = .win cl off → st = stOk → ∃ t, exec (.fabOpComplete o) s = .next t ∧ s.keeps t [.eng, .knots, .nextId] ∧ s.opEnds t o p st ∧ s.localStored t (cl, off) (bs.take p.len) ∧ t.ctx p.ctx = x) ∧
      (∀ cl off, p.kind = .fabNear → p.dst = .win cl off → ∃ t, exec (.fabOpComplete o) s = .next t ∧ s.keeps t [.eng, .knots, .nextId] ∧ s.opEnds t o p st ∧ s.localStored t (cl, off) (leBytes 8 (if st = stOk then ofLe (bs.take 8) else 0))) ∧
      (p.kind = .fabSt ∨ p.kind = .fabTrig ∨ p.kind = .fabBst ∨ p.kind = .redAdd → ∃ t, exec (.fabOpComplete o) s = .next t ∧ s.keeps t [.eng, .knots, .nextId] ∧ s.opEnds t o p st ∧ t.ctx p.ctx = x ∧
        t.eng.scratch = s.eng.scratch ∧ t.eng.clu = s.eng.clu)) ∧
    (∀ r, p.reply = none → p.kind = .fabLd → p.dst = .s r → ∃ t, exec (.fabOpTimeout o) s = .next t ∧ s.keeps t [.eng, .knots, .log, .nextId] ∧ s.opEnds t o p stTimeout ∧ s.causes t = [0x508] ∧
      t.ctx p.ctx = (x.setS r 0).note stTimeout p.pc) ∧
    (∀ b qs qd, p.kind = .dma → p.a = 0 → p.c = 0 → dmaRows p.data = (b, 1, 1) → byteAt p.data 16 = 0 → x.unitRange p.ctx (dmaAddr p.data false 0) b = some qs → x.unitRange p.ctx (dmaAddr p.data true 0) b = some qd →
      ∃ t, exec (.dmaComplete o .ok 0 [] []) s = .next t ∧ s.keeps t [.eng, .knots, .nextId] ∧ s.opEnds t o p stOk ∧ s.localStored t qd (s.localBytes qs b) ∧ t.ctx p.ctx = x) ∧
    (p.kind = .gather → (∀ l, l < 64 → bit p.mask l = true → (s.readLocal p.ctx (2 ^ 31 + p.words.getD l 0) p.len).isSome = true) → ∃ t, exec (.gatherFilterComplete o .ok) s = .next t ∧ s.keeps t [.eng, .knots, .nextId] ∧ s.opEnds t o p stOk ∧ t.ctx p.ctx = x ∧
      ∀ l q, l < 64 → bit p.mask l = true → x.locate p.ctx (p.a + l * p.len) p.len = some q → some (t.localBytes q p.len) = s.readLocal p.ctx (2 ^ 31 + p.words.getD l 0) p.len) ∧
    (∀ e n src kept qd qc, p.kind = .filter → e = gfBytes p.c → n = leAt p.data 8 4 → p.fn ≤ 3 → s.readLocal p.ctx (leAt p.data 0 4) (n * e) = some src → leAt p.data 16 4 = 0xFFFFFFFF →
      kept = (elems e src).filter (fun y => filterKeeps p.c p.fn y (leAt p.data 12 4 % 2 ^ (8 * e)) false) → x.locate p.ctx (leAt p.data 4 4) (e * kept.length) = some qd → x.locate p.ctx (leAt p.data 24 4) 4 = some qc →
      qc.1 ≠ qd.1 ∨ qc.2 + 4 ≤ qd.2 ∨ qd.2 + e * kept.length ≤ qc.2 →
      ∃ t, exec (.gatherFilterComplete o .ok) s = .next t ∧ s.keeps t [.eng, .knots, .nextId] ∧ s.opEnds t o p stOk ∧ t.localBytes qd (e * kept.length) = kept.flatMap (leBytes e) ∧ t.localBytes qc 4 = leBytes 4 kept.length) ∧
    (p.kind = .check → (∀ q ∈ s.opsOf p.ctx, q.2.kind = .check → o ≤ q.1) →
      (∀ k, p.fn = 0 → p.dst = .none → ChkSlot.ofBlock p.data = some k → ∃ t, exec (.checkValueComplete o .ok) s = .next t ∧ s.keeps t [.eng, .knots, .nextId] ∧ s.opEnds t o p stOk ∧ t.ctx p.ctx = { x with chk := k }) ∧
      (∀ q, p.fn = 1 → p.dst = .none → x.chk.width ≠ 0 → x.locate p.ctx p.a p.len = some q → ∃ t, exec (.checkValueComplete o .ok) s = .next t ∧ s.keeps t [.eng, .knots, .nextId] ∧ s.opEnds t o p stOk ∧
        t.ctx p.ctx = { x with chk := { x.chk with run := x.chk.feed x.chk.run (s.localBytes q p.len) } }) ∧
      (∀ q, p.fn = 2 → p.dst = .none → x.chk.width ≠ 0 → x.locate p.ctx p.a (p.len + x.chk.size) = some q → ∃ t, exec (.checkValueComplete o .ok) s = .next t ∧ s.keeps t [.eng, .knots, .nextId] ∧ s.opEnds t o p stOk ∧
        t.ctx p.ctx = { x with chk := { x.chk with run := x.chk.init } } ∧ s.localStored t (q.1, q.2 + p.len) (leBytes x.chk.size (x.chk.final (x.chk.feed x.chk.run (s.localBytes q p.len))))) ∧
      (∀ r, p.fn = 3 → p.dst = .s r → x.chk.width ≠ 0 → ∃ t, exec (.checkValueComplete o .ok) s = .next t ∧ s.keeps t [.eng, .knots, .nextId] ∧ s.opEnds t o p stOk ∧
        t.ctx p.ctx = ({ x with chk := { x.chk with run := x.chk.init } } : Ctx).setS r (x.chk.final x.chk.run)) ∧
      (∀ r, p.fn = 4 → p.dst = .s r → x.chk.width ≠ 0 → ∃ t, exec (.checkValueComplete o .ok) s = .next t ∧ s.keeps t [.eng, .knots, .nextId] ∧ s.opEnds t o p stOk ∧ t.ctx p.ctx = x.setS r x.chk.run) ∧
      (p.fn = 5 → p.dst = .none → x.chk.width ≠ 0 → ∃ t, exec (.checkValueComplete o .ok) s = .next t ∧ s.keeps t [.eng, .knots, .nextId] ∧ s.opEnds t o p stOk ∧ t.ctx p.ctx = { x with chk := { x.chk with run := p.a % 2 ^ x.chk.width } })) ∧
    (∀ cl off qs qd k, p.kind = .codec → p.dst = .win cl off → p.fn = cdCard → p.a = 0 → p.b = 0 → p.c = 0 → cdNblk p.data = 1 → cdNoBase p.data = true → cdSrcFab p.data = false → cdDstFab p.data = false →
      x.locate p.ctx (leAt p.data 8 8 % 2 ^ 32) 65536 = some qs → x.locate p.ctx (leAt p.data 24 8 % 2 ^ 32) 16 = some qd → cl ≠ qd.1 ∨ off + 12 ≤ qd.2 ∨ qd.2 + 16 ≤ off →
      k = encodeBlock (byteAt p.data 42) (cdBlock0 p.data) (s.localBytes qs 65536) (List.replicate 65536 0) →
      ∃ t, exec (.codecRequestComplete o .ok 0 [] []) s = .next t ∧ s.keeps t [.eng, .knots, .nextId] ∧ s.opEnds t o p stOk ∧ t.localBytes qd 16 = cardRecord (cdBlock0 p.data) k ∧ t.localBytes (cl, off) 12 = leBytes 8 k.size ++ leBytes 4 0xFFFFFFFF) ∧
    (∀ cl off, p.kind = .codec → p.dst = .win cl off → p.fn = cdEncode → cdNblk p.data ≤ p.a → ∃ t, exec (.codecRequestComplete o .ok 0 [] []) s = .next t ∧ s.keeps t [.eng, .knots, .nextId] ∧ s.opEnds t o p stOk ∧
      s.localStored t (cl, off) (leBytes 8 p.b ++ leBytes 4 0xFFFFFFFF)) ∧
    (∀ e y h b q k ws, p.kind = .codec → p.fn = cdEncode → p.c = 0 → p.a < cdNblk p.data → s.codecExt p = some e → y = s.ext e → y.gate = none → h = s.codecHdr y → h.ok = true → cdBlock0 p.data + cdNblk p.data ≤ h.nb → b = cdBlock0 p.data + p.a →
      (if h.noBase then none else s.unitRights p.ctx p.part (h.base + 65536 * b) 65536 1) = none → s.baseAcc h.noBase h.base b = .ok → cdSrcFab p.data = false → x.locate p.ctx (leAt p.data 8 8 % 2 ^ 32 + 65536 * p.a) 65536 = some q → k = encodeBlock h.wcode b (s.localBytes q 65536) (s.cardBase h.noBase h.base b []) →
      (s.codecEntry y b).1 = 0 → h.fill + k.size ≤ y.size → 72 + 8 * b ≤ h.fill →
      ws = [(y.base + 24, leBytes 8 (h.fill + k.size)), (y.base + h.fill, k.bytes), (y.base + 64 + 8 * b, leBytes 8 (k.state + (if k.state = 3 then 1024 else k.size / 64) * 2 ^ 16 + (if k.size = 0 then 0 else h.fill / 64) * 2 ^ 32))] →
      (∀ w ∈ ws, w.2 ≠ [] → s.writeAcc y w.1 w.2.length false = .ok ∧ ∀ n ∈ pagesOf w.1 w.2.length, (s.storedPage y n).map (·.place) = some (s.page n).place) →
      ∃ t, exec (.codecBlockEncoded o .ok .ok []) s = .next t ∧ t.time = s.time ∧ (∀ w ∈ ws, t.memBytes w.1 w.2.length = w.2) ∧ t.aop o = some { p with a := p.a + 1, b := p.b + k.size, c := 0, d := k.size, len := h.fill, buf := [] })

/-! ### The Cleat (R367 to R382) -/

/-- The Cleat is updated (R368, R374 to R380): an INSERT, REMOVE, MODIFY or FLUSH_TAG that passes its checks takes effect in the table in the order of GO, at once where no other is under way; the table stays in order without overlap, and DONE follows when every copy agrees; one that fails completes with the first of the results of R377, recorded under 0x383, and
changes nothing; one behind another waits. An uncorrectable entry is restored or removed under 0x382, and a cluster's cache takes the entry it missed.
Choices of the model in it: log entries 28, 55. -/
def Obligations.CleatUpdatesTakeEffect : Prop :=
  ∀ (set : Nat) (u : CleatOp) (view : Option Nat) (s : State), s.wf = true → cleatSound s.cleat.ents → view = (if set = 0 then none else some (set - 1)) →
    (∀ row : Instr, s.updReady set u → (u.op = 0 ∧ row = .cleatInsert set ∨ u.op = 1 ∧ row = .cleatRemove set ∨ u.op = 2 ∧ row = .cleatModify set ∨ u.op = 3 ∧ row = .cleatFlushTag set) →
      s.cleat.upds = [] → s.cleatCheck u view false = 0 → ∃ t, exec row s = .next t ∧ s.keeps t [.regs, .cleat, .mir, .sent] ∧ t.updRead set F.CLEAT_UPD.GO F.VIEW_CLEAT_UPD.GO = 1 ∧ cleatSound t.cleat.ents ∧ t.cleat.upds = [{ src := .set set, op := u }] ∧
      (u.op = 0 → ∀ g k, cleatFind t.cleat.ents g k = if g = u.tag ∧ u.lo ≤ k ∧ k ≤ u.hi then some { tag := u.tag, lo := u.lo, hi := u.hi, result := u.res, sys := false } else cleatFind s.cleat.ents g k) ∧
      (u.op = 1 → ∀ g k, cleatFind t.cleat.ents g k = (cleatFind s.cleat.ents g k).filter (fun e => !decide (e.tag = u.tag ∧ e.lo = u.lo))) ∧
      (u.op = 2 → ∀ e ∈ s.cleat.ents, e.tag = u.tag → e.lo = u.lo → ∀ k, u.lo ≤ k → k ≤ u.hi → cleatFind t.cleat.ents u.tag k = some { e with hi := u.hi, result := u.res }) ∧
      (u.op = 3 → ∀ g k, cleatFind t.cleat.ents g k = (cleatFind s.cleat.ents g k).filter (fun e => !decide (e.tag = u.tag) || e.sys))) ∧
    (∀ (row : Instr) res, s.updReady set u → (u.op = 0 ∧ row = .cleatInsert set ∨ u.op = 1 ∧ row = .cleatRemove set ∨ u.op = 2 ∧ row = .cleatModify set ∨ u.op = 3 ∧ row = .cleatFlushTag set) →
      s.cleat.upds = [] → s.cleatCheck u view false = res → res ≠ 0 → ∃ t, exec row s = .next t ∧ s.keeps t [.regs, .log, .sent] ∧ s.updEnds t set res ∧ s.causes t = [0x383] ∧
      (u.hi < u.lo → u.op = 0 → res = 1) ∧ (∀ e ∈ s.cleat.ents, set = 0 → u.tag ≠ 0xFFFE → u.op = 1 → e.tag = u.tag → e.lo = u.lo → e.sys = true ∧ res = 5) ∧
      (set = 0 → u.tag ≠ 0xFFFE → u.op = 1 → (∀ e ∈ s.cleat.ents, e.tag = u.tag → e.lo ≠ u.lo) → res = 4) ∧
      (∀ e ∈ s.cleat.ents, set = 0 → u.tag ≠ 0xFFFE → u.op = 0 → u.lo ≤ u.hi → e.tag = u.tag → u.lo ≤ e.hi → e.lo ≤ u.hi → res = 2)) ∧
    (∀ row : Instr, s.updReady set u → (u.op = 0 ∧ row = .cleatInsert set ∨ u.op = 1 ∧ row = .cleatRemove set ∨ u.op = 2 ∧ row = .cleatModify set ∨ u.op = 3 ∧ row = .cleatFlushTag set) →
      s.cleat.upds ≠ [] → ∃ t, exec row s = .next t ∧ s.keeps t [.regs, .cleat] ∧ t.updRead set F.CLEAT_UPD.GO F.VIEW_CLEAT_UPD.GO = 1 ∧ t.cleat = { s.cleat with upds := s.cleat.upds ++ [{ src := .set set, op := u }] }) ∧
    (∀ v, s.cleat.upds = [{ src := .set set, op := v }] → set ≤ 16 → ∃ t, exec (.cleatUpdateComplete set) s = .next t ∧ s.keeps t [.regs, .cleat, .sent] ∧ s.updEnds t set 0 ∧ t.cleat.upds = [] ∧ t.cleat.ents = s.cleat.ents) ∧
    ((∀ v ∈ s.cleat.upds.head?, v.src ≠ .set set) → exec (.cleatUpdateComplete set) s = .next s) ∧
    (∀ e ∈ s.cleat.ents, e.bad = true →
      (∃ t, exec (.cleatEntryRestore e.tag e.lo true) s = .next t ∧ s.keeps t [.cleat] ∧ t.cleat.ents = s.cleat.ents.map (fun f => if f = e then { f with bad := false } else f)) ∧
      (∃ t, exec (.cleatEntryRestore e.tag e.lo false) s = .next t ∧ s.keeps t [.regs, .cleat, .mir, .sent, .log] ∧ t.cleat.ents = s.cleat.ents.filter (fun f => f ≠ e) ∧ s.causes t = [0x382])) ∧
    (∀ n g k e, n < 128 → g ≤ 0xDFFF ∨ g = 0xFFFF → s.look g k = .hit e → s.changing e = false → cleatFind (SMap.get [] s.cleat.caches n) g k = none → ∃ t, exec (.clusterCleatFill n g k) s = .next t ∧ s.keeps t [.cleat] ∧
      SMap.get [] t.cleat.caches n = (e :: SMap.get [] s.cleat.caches n).take 4096 ∧ t.cleat.ents = s.cleat.ents)

/-! ### Collectives, attention and retrieval (R307 to R340) -/

/-- Collective groups (R310 to R317): a contribution of the current generation is added granule by granule, in order of its rank's mark, and answered; a duplicate is counted and answered, one of the next generation is BUSY, one of another generation and one that fails a check are refused under 0x264 and the cause of the
check, one during CLOSING is LATE; a fetch of complete granules returns them; a generation ends by TIMEOUT under 0x265, by HOLD_US, by its last result write or by a failed one under 0x267, and closing advances GEN.
Choices of the model in it: log entry 45. -/
def Obligations.CollectivesReduceAndClose : Prop :=
  ∀ (r n : Nat) (q : Req) (x : Coll) (s : State), s.wf = true → x = s.coll n →
    (s.serviceTurn r 0x20 q → q.collId = n → s.collInOrder r q = true →
      (∀ c, s.collCheck q = .error c → ∃ t, exec (.collSeg r) s = .next t ∧ s.ended t r q stDenied [] ∧ s.causes t = [c] ∧ t.coll n = x) ∧
      (s.r F.FELT_COLL.VALID [n] = 0 → s.collCheck q = .error 0x261) ∧
      (∀ k, s.collCheck q = .ok k →
        (q.collGen = (x.gen + 1) % 256 → ∃ t, exec (.collSeg r) s = .next t ∧ s.ended t r q stBusy [] ∧ t.coll n = x ∧ t.r F.FELT_COLL_BUSY_COUNT.COUNT [] = stopInc F.FELT_COLL_BUSY_COUNT.COUNT.w (s.r F.FELT_COLL_BUSY_COUNT.COUNT []) 1) ∧
        (q.collGen ≠ (x.gen + 1) % 256 → q.collGen ≠ x.gen → ∃ t, exec (.collSeg r) s = .next t ∧ s.ended t r q stDenied [] ∧ s.causes t = [0x264] ∧ t.coll n = x) ∧
        (x.gen < 256 → q.collGen = x.gen → x.st = clgClosing → ∃ t, exec (.collSeg r) s = .next t ∧ s.ended t r q stLate [] ∧ t.coll n = x) ∧
        (x.gen < 256 → q.collGen = x.gen → x.st = clgOpen → q.collFetch = false → q.collRet = false → q.collRel = false → s.collWaiting n = [] →
          (q.collGran + k ≤ x.mark q.collRank → ∃ t, exec (.collSeg r) s = .next t ∧ s.ended t r q stOk [] ∧ t.coll n = x ∧
            t.r F.FELT_COLL_DUP_COUNT.COUNT [] = stopInc F.FELT_COLL_DUP_COUNT.COUNT.w (s.r F.FELT_COLL_DUP_COUNT.COUNT []) 1) ∧
          (1 ≤ k → SMap.wf {} x.grans = true → SMap.wf 0 x.marks = true → SMap.get 0 x.held q.collRank = 0 → x.rel = [] → s.r F.FELT_COLL.DELIVER [n] = 0 → s.r F.FELT_COLL.KIND [n] = 0 → s.r F.FELT_COLL.MODE [n] = 0 → x.mark q.collRank ≤ q.collGran →
            ∃ t, exec (.collSeg r) s = .next t ∧ s.ended t r q stOk [] ∧ (t.coll n).mark q.collRank = q.collGran + k ∧ (∀ m, m ≠ q.collRank → (t.coll n).mark m = x.mark m) ∧ (t.coll n).gen = x.gen ∧
              (t.coll n).st = (if t.collDone n (t.coll n) then clgComplete else clgOpen) ∧
              (∀ j ws, j < k → ws = contribWords (s.r F.FELT_COLL.FMT [n]) q.data j → (t.coll n).gran (q.collGran + j) =
                { x.gran (q.collGran + j) with n := (x.gran (q.collGran + j)).n + 1, f := if (x.gran (q.collGran + j)).n = 0 then ws else List.zipWith (f32Add 0) (x.gran (q.collGran + j)).f ws }) ∧
              ∀ g, g < q.collGran ∨ q.collGran + k ≤ g → (t.coll n).gran g = x.gran g)) ∧
        (∀ w, x.gen < 256 → q.collGen = x.gen → x.st = clgOpen → q.collFetch = true → q.collRel = false → s.collWaiting n = [] → s.gransDone n x q.collGran k = true → w = { q with wait := .other, addr := q.collGran, len := k, data := [] } →
          ∃ t, exec (.collSeg r) s = .next t ∧ s.ended t r w stOk (s.collResult n q.collGran k) ∧ t.coll n = x))) ∧
    (x.st = clgOpen → s.collWaiting n = [] → ∃ t, exec (.collGenerationTimeout n) s = .next t ∧ t.time = s.time ∧ s.causes t = [0x265] ∧ t.coll n = { x with st := clgClosing, wr := [], ans := [] } ∧
      t.r F.FELT_COLL_ABORT_COUNT.COUNT [] = stopInc F.FELT_COLL_ABORT_COUNT.COUNT.w (s.r F.FELT_COLL_ABORT_COUNT.COUNT []) 1 ∧
      (s.r F.FELT_COLL.DONE_EN [n] = 1 → SMap.get none t.knots.sigs s.nextId = some { knot := s.r F.FELT_COLL.DONE_KNOT [n], status := stLate })) ∧
    (x.st = clgComplete → s.r F.FELT_COLL.DELIVER [n] = 0 → ∃ t, exec (.collHoldExpiry n) s = .next t ∧ s.keeps t [.fab] ∧ t.coll n = { x with st := clgClosing, wr := [], ans := [] }) ∧
    (x.st = clgClosing → x.pend = none → ∃ t, exec (.collCloseComplete n) s = .next t ∧ s.keeps t [.fab] ∧ t.coll n = { st := clgIdle, gen := (x.gen + 1) % 256 }) ∧
    (x.ans ≠ [] → (∀ a ∈ x.ans, a.2 = stOk) → x.st = clgComplete → (∀ k ∈ x.wr, ∃ a ∈ x.ans, a.1 = k) → ∃ t, exec (.collResultWriteComplete n) s = .next t ∧ s.keeps t [.fab, .knots, .nextId] ∧ t.coll n = { x with st := clgClosing, wr := [], ans := [] } ∧
      (s.r F.FELT_COLL.DONE_EN [n] = 1 → SMap.get none t.knots.sigs s.nextId = some { knot := s.r F.FELT_COLL.DONE_KNOT [n], status := stOk })) ∧
    (∀ a, x.ans.find? (fun a => decide (a.2 ≠ stOk)) = some a → ∃ t, exec (.collResultWriteComplete n) s = .next t ∧ s.keeps t [.fab, .knots, .log, .nextId] ∧ s.causes t = [0x267] ∧ t.coll n = { x with st := clgClosing, wr := [], ans := [] })

/-- Attention and retrieval, and shadow runs (R325, R326, R333, R335, R337, R340, R517): a request that keeps its limits enters the queue as work items, others end under 0x561 or 0x560 or with BUSY; a queued item goes to the longest-parked kernel context, and when it has read its pages or tiles it ends and the
request is answered with its records or ranked lists; a shadow run that differs is counted and recorded under 0x910, 0x911 or 0x912, one without a slot is counted.
Choices of the model in it: log entry 44. -/
def Obligations.WorkItemsAreServed : Prop :=
  ∀ (r : Nat) (q : Req) (s : State), s.wf = true →
    (∀ (attn : Bool) (op n : Nat) (limits : Bool) (row : Instr), (attn, op, n, limits, row) = (if attn then (true, 0x28, q.attn.nsplit, q.attn.ok, .attnReq r) else (false, 0x2A, cdiv q.retr.tiles 1024, q.retr.ok, .retrReq r)) → s.serviceTurn r op q → q.want ≤ q.rcv →
      (s.r F.CROWN_XSVC.STATE [q.part] ≠ 2 ∨ s.kernelCount q.part attn = 0 → ∃ t, exec row s = .next t ∧ s.ended t r q stDenied [] ∧ s.causes t = [0x561]) ∧
      (s.r F.CROWN_XSVC.STATE [q.part] = 2 → s.kernelCount q.part attn ≠ 0 →
        (limits = false → ∃ t, exec row s = .next t ∧ s.ended t r q stDenied [] ∧ s.causes t = [0x560]) ∧
        (limits = true → s.r F.FELT_XSVC_QUOTA.MAX_ITEMS [q.part] < s.queued.countP (fun e => decide (e.2.part = q.part)) + n → ∃ t, exec row s = .next t ∧ s.ended t r q stBusy []) ∧
        (limits = true → s.queued.length + n ≤ 16384 → s.queued.countP (fun e => decide (e.2.part = q.part)) + n ≤ s.r F.FELT_XSVC_QUOTA.MAX_ITEMS [q.part] → s.r F.FELT_SHADOW_CFG.SVC_N [] = 0 →
          ∃ t, exec row s = .next t ∧ s.keeps t [.btp, .fab, .nextId] ∧ t.req r = some { q with wait := .launch } ∧ ∀ j, j < n → SMap.get none t.fab.items (s.nextId + j) = some { req := r, part := q.part, attn := attn, ix := j }))) ∧
    (∀ (i c p : Nat) (attn : Bool) (it : Item), s.queued.filter (fun e => decide (e.2.part = p) && (e.2.attn == attn)) = [(i, it)] → it.shadow = none → (s.req it.req).isSome = true → s.kernelFor it = some c → (∀ f ∈ s.items, f.2.shadow ≠ some i) →
      ∃ t o, exec (.workItemDispatch p attn) s = .next t ∧ s.keeps t [.eng, .fab, .nextId] ∧ t.ctx c = { s.ctx c with st := .ready, issuedAt := s.eng.order + 1, monAt := s.time.now } ∧ SMap.get none t.fab.items i = some { it with op := some s.nextId, ctx := some c } ∧
        t.aop s.nextId = some o ∧ o.kind = .kernel ∧ o.ctx = c ∧ o.a = i ∧ o.part = p) ∧
    (∀ (i o c : Nat) (it : Item) (p : AOp), SMap.get none s.fab.items i = some it → it.shadow = none → it.req = r → s.req r = some q → it.op = some o → it.ctx = some c → s.aop o = some p → (∃ k, q.src = .conn k) → s.reqsWith (fun w => decide (w.src = .unit o)) = [] → s.r F.CROWN_HEALTH.FENCED [ctxEng c] = 0 →
      (s.kernels (s.ctx c).part it.attn).length ≤ s.kernelCount (s.ctx c).part it.attn →
      s.items.filter (fun e => decide (e.2.req = r) && e.2.shadow.isNone) = [(i, it)] →
      (it.attn = true → q.op = 0x28 → (q.attn.split it.ix).2 ≤ (q.attn.split it.ix).1 + p.b → ∃ t n, exec (.workItemComplete i .ok 0 [] .ok) s = .next t ∧ n = (q.attn.split it.ix).2 - (q.attn.split it.ix).1 ∧ t.aop o = none ∧
        s.ended t r q stOk (q.attn.response [{ it with op := none, st := some stOk, pages := n, data := q.attn.records (pieces q.attn.pageBytes n p.buf) }])) ∧
      (it.attn = false → q.op = 0x2A → min 1024 (q.retr.tiles - 1024 * it.ix) ≤ p.b → ∃ t n, exec (.workItemComplete i .ok 0 [] .ok) s = .next t ∧ n = min 1024 (q.retr.tiles - 1024 * it.ix) ∧ t.aop o = none ∧
        s.ended t r q stOk (q.retr.response [{ it with op := none, st := some stOk, pages := n, data := (List.range q.retr.nq).flatMap (fun j => rankBytes q.retr.k (q.retr.rank (1024 * it.ix) (pieces q.retr.tileBytes n p.buf) j)) }]))) ∧
    (∀ e f, e / 4 = f / 4 → e ≠ f → s.r F.SPL_SHADOW_CFG.MMA_N [e / 64] ≠ 0 → ∃ t, exec (.shadowCompare (.mma e f) true) s = .next t ∧ s.keeps t [.regs, .log] ∧ 0x912 ∈ s.causes t ∧
      t.r F.SPL_SHADOW_MISMATCH_COUNT.COUNT [e / 64] = stopInc F.SPL_SHADOW_MISMATCH_COUNT.COUNT.w (s.r F.SPL_SHADOW_MISMATCH_COUNT.COUNT [e / 64]) 1) ∧
    (∀ n g, s.r F.FELT_SHADOW_CFG.RED_N [] ≠ 0 → s.r F.FELT_COLL.KIND [n] = 0 → (s.coll n).holds = true → ∃ t, exec (.shadowCompare (.granule n g) true) s = .next t ∧ s.keeps t [.regs, .log] ∧ 0x911 ∈ s.causes t ∧
      t.r F.FELT_SHADOW_MISMATCH_COUNT.COUNT [] = stopInc F.FELT_SHADOW_MISMATCH_COUNT.COUNT.w (s.r F.FELT_SHADOW_MISMATCH_COUNT.COUNT []) 1) ∧
    (∀ d, s.r F.SPL_SHADOW_CFG.MMA_N [d] ≠ 0 → ∃ t, exec (.mmaShadowSkip d) s = .next t ∧ s.keeps t [.regs] ∧
      t.r F.SPL_SHADOW_SKIP_COUNT.COUNT [d] = stopInc F.SPL_SHADOW_SKIP_COUNT.COUNT.w (s.r F.SPL_SHADOW_SKIP_COUNT.COUNT [d]) 1)

/-! ### The traffic manager and the ports (R413 to R464) -/

/-- Frames are classified, policed, admitted, sent and flushed (R414 to R434, R440, R441): a good frame of a partition whose forwarding entry names a queue takes its cells there, guaranteed ones first, or is dropped under 0x201; one without an entry is dropped under 0x202, a red one at its policer, a bad one and a PAUSE frame are counted, and on a MACsec port one whose SecTAG is missing or replayed is recorded under 0x120; the last
cell gives back the cells that were not needed, a frame that failed leaves the buffer; the scheduler sends the head of the queue it picks or grants the response queue; a flush ends under 0x204.
Choices of the model in it: log entry 46. -/
def Obligations.FramesAreAdmittedAndSent : Prop :=
  ∀ (p d j c tc : Nat) (h : FrameHdr) (s : State), s.wf = true → p < 512 → d = p / 64 → j = p % 64 → c = s.r F.TM_INPORT.PROFILE [d, j] * 64 + h.dscp.getD 0 % 64 → tc = s.r F.TM_CLASS.TC [d, c] →
    (s.link p = lkUp →
      (∃ t, exec (.pauseFrameReceive p) s = .next t ∧ s.keeps t [.regs, .log] ∧ s.causes t = [0x103] ∧ t.r F.PORT_PAUSE_DROP_COUNT.COUNT [d, j] = stopInc F.PORT_PAUSE_DROP_COUNT.COUNT.w (s.r F.PORT_PAUSE_DROP_COUNT.COUNT [d, j]) 1) ∧
      (s.boot.pend = none →
        (h.err = .fcs → ∃ t, exec (.frameReceive p h) s = .next t ∧ s.keeps t [.regs] ∧ t.r F.PORT_FCS_ERR_COUNT.COUNT [d, j] = stopInc F.PORT_FCS_ERR_COUNT.COUNT.w (s.r F.PORT_FCS_ERR_COUNT.COUNT [d, j]) 1) ∧
        (h.err = .none → h.bytes < 64 ∨ s.r F.BRIM_PORT.MAX_FRAME [d, j] < h.bytes → ∃ t, exec (.frameReceive p h) s = .next t ∧ s.keeps t [.regs] ∧
          t.r F.PORT_OVERSIZE_COUNT.COUNT [d, j] = stopInc F.PORT_OVERSIZE_COUNT.COUNT.w (s.r F.PORT_OVERSIZE_COUNT.COUNT [d, j]) 1) ∧
        (h.err = .none → 64 ≤ h.bytes → h.bytes ≤ s.r F.BRIM_PORT.MAX_FRAME [d, j] → s.secure p h.sec = none → ∃ t, exec (.frameReceive p h) s = .next t ∧ s.keeps t [.regs, .log] ∧ s.causes t = [0x120] ∧
          t.r F.PORT_MACSEC_FAIL_COUNT.COUNT [d, j] = stopInc F.PORT_MACSEC_FAIL_COUNT.COUNT.w (s.r F.PORT_MACSEC_FAIL_COUNT.COUNT [d, j]) 1) ∧
        (∀ y, h.err = .none → 64 ≤ h.bytes → h.bytes ≤ s.r F.BRIM_PORT.MAX_FRAME [d, j] → s.secure p h.sec = some y →
          (∀ i, s.r F.TM_CLASS.POL_EN [d, c] = 1 → i = (s.r F.TM_INPORT.POL_BASE [d, j] + s.r F.TM_CLASS.POL_OFF [d, c]) % 2048 → s.r F.TM_POL.EN [d, i] = 1 → s.r F.TM_POL.RED_ACT [d, i] = 0 →
            (s.polAt d i (s.shadow (8 + d))).tp < h.bytes * 80000 → ∃ t, exec (.frameReceive p h) s = .next t ∧ s.keeps t [.regs, .tm, .ports] ∧ t.port p = y ∧ t.tm.frms = s.tm.frms ∧ t.tm.qs = s.tm.qs ∧
            t.r F.TM_POL.RED_PKTS [d, i] = (s.r F.TM_POL.RED_PKTS [d, i] + 1) % 2 ^ F.TM_POL.RED_PKTS.w) ∧
          (∀ part, s.r F.TM_CLASS.POL_EN [d, c] = 0 → h.mem = false → s.r F.TM_CTRL.TM_EN [] = 1 → s.r F.TM_INPORT.SHARED [d, j] = 0 → part = s.r F.TM_INPORT.PARTITION [d, j] → s.fenced part = false →
            (cleatLook s.cleat.fwd h.tag h.key = .miss → ∃ t, exec (.frameReceive p h) s = .next t ∧ s.keeps t [.regs, .log, .ports] ∧ t.port p = y ∧ s.causes t = [0x202] ∧
              t.r F.TM_NOQUEUE_DROP_COUNT.COUNT [] = stopInc F.TM_NOQUEUE_DROP_COUNT.COUNT.w (s.r F.TM_NOQUEUE_DROP_COUNT.COUNT []) 1) ∧
            (∀ e q n, cleatLook s.cleat.fwd h.tag h.key = .hit e → isFwdTag h.tag = true → e.kind = 0xC → bit e.result 14 = false → s.queueOf (e.result % 2 ^ 14) tc part = some q → s.queueShut q = false →
              n = frameCells (max 60 ((if h.vlan.isSome then 18 else 14) + h.ipLen.getD (s.mtu d j))) →
              (∀ g m, s.admitCells q part n (decide (s.r F.TM_CLASS.COLOUR [d, c] = 1)) = some (g, m) → ∃ t ce x, exec (.frameReceive p h) s = .next t ∧ s.keeps t [.tm, .free, .nextId, .ports] ∧ t.port p = y ∧ t.frm s.nextId = some x ∧ x.port = p ∧ x.part = part ∧ x.bytes = h.bytes ∧ x.data = h.data ∧ x.n = n ∧
                x.qs = [q] ∧ x.done = false ∧ (t.tmq q).frames = (s.tmq q).frames ++ [(s.nextId, ce)] ∧ (t.tmq q).g = (s.tmq q).g + g ∧ (t.tmq q).s = (s.tmq q).s + m ∧ t.tm.used = s.tm.used + m ∧ g + m = n ∧ (h.ect = false → ce = false)) ∧
              (s.admitCells q part n (decide (s.r F.TM_CLASS.COLOUR [d, c] = 1)) = none → ∃ t, exec (.frameReceive p h) s = .next t ∧ s.keeps t [.regs, .log, .ports] ∧ t.port p = y ∧ s.causes t = [0x201] ∧
                t.r F.TM_ADMIT_DROP_COUNT.COUNT [] = stopInc F.TM_ADMIT_DROP_COUNT.COUNT.w (s.r F.TM_ADMIT_DROP_COUNT.COUNT []) 1)))))) ∧
    (∀ f x q n, s.frm f = some x → x.done = false → x.qs = [q] → x.first = q → x.out = [] →
      (∀ b, n = frameCells (b - 4) → n ≤ x.n → ∃ t, exec (.frameLastCellWritten f b .none) s = .next t ∧ s.keeps t [.tm] ∧ t.frm f = some { x with done := true, n := n, bytes := b } ∧ t.tmq q = (s.tmq q).back (x.n - n) ∧
        t.tm.used = s.tm.used - min (s.tmq q).s (x.n - n)) ∧
      (∀ b, ∃ t, exec (.frameLastCellWritten f b .fcs) s = .next t ∧ s.keeps t [.regs, .tm] ∧ t.frm f = none ∧ (t.tmq q).frames = (s.tmq q).frames.filter (fun e => decide (e.1 ≠ f)) ∧ (t.tmq q).g = ((s.tmq q).back x.n).g ∧ (t.tmq q).s = ((s.tmq q).back x.n).s)) ∧
    (s.portSends p (s.shadow 16) = true →
      (∀ q fair f ce x, s.pick p (s.shadow 16) = some (some q, fair) → s.headOf q = some (f, ce, x) → s.d2d.retraining.contains (8 + d) = false → x.done = true → x.qs = [q] → ∃ t, exec (.egressSelection p .ok) s = .next t ∧ s.keeps t [.tm, .sent] ∧ t.sent = .frame p f ce x.dscp (x.leaves ce) :: s.sent ∧
        t.frm f = none ∧ (t.tmq q).frames = (s.tmq q).frames.drop 1 ∧ (t.tmq q).last = (s.tmq q).fin ∧ (t.tmPort p).v = (if fair then tagMax (s.tmPort p).v (s.tmq q).fin else (s.tmPort p).v)) ∧
      (∀ v, s.pick p (s.shadow 16) = some (none, v) → ∃ t, exec (.egressSelection p .ok) s = .next t ∧ s.keeps t [.tm, .sent, .btp] ∧ t.sent = (SMap.get [] s.btp.respQs p).take 1 ++ .grant p :: s.sent ∧ SMap.get [] t.btp.respQs p = (SMap.get [] s.btp.respQs p).drop 1 ∧ (t.tmPort p).last = (s.tmPort p).fin)) ∧
    (∀ m ms l, SMap.get [] s.btp.respQs p = m :: ms → l = s.frameBytes p m → 0 < l → ∃ t, exec (.respQueueHeadChange p) s = .next t ∧ s.keeps t [.tm] ∧ (t.tmPort p).resp = l ∧
      (t.tmPort p).fin = tagFin (if (s.tmPort p).resp = 0 then tagMax (s.tmPort p).last (s.tmPort p).v else (s.tmPort p).last) (l + 20) (s.r F.TM_PORT.RESP_WEIGHT [p])) ∧
    (SMap.get [] s.btp.respQs p = [] → ∃ t, exec (.respQueueHeadChange p) s = .next t ∧ s.keeps t [.tm] ∧ t.tmPort p = { s.tmPort p with resp := 0 }) ∧
    (∀ n, (s.tmPort p).freed = some n → ∃ t, exec (.portFlushComplete p) s = .next t ∧ s.keeps t [.regs, .tm, .log] ∧ s.causes t = [0x204] ∧ t.r F.TM_PORT.FLUSHING [p] = 0 ∧ (t.tmPort p).freed = none ∧ ∀ q ∈ s.portQueues p, (t.tmq q).flush = false)

/-- Ports come up, degrade and fall (R437 to R460, R480): a port goes through the steps of its bring-up to UP, three failed attempts leave it FAILED under 0x104, a link that is lost goes down under the cause of its rule and trains again; bad windows begin re-equalize or Recovery; a fence ordered set ends what is open and stops; FENCE_HOLD takes a port down.
Choices of the model in it: log entry 47. -/
def Obligations.PortsComeUpAndFall : Prop :=
  ∀ (p d m : Nat) (hold : Bool) (x : PortSt) (s : State), s.wf = true → p < 512 → d = p / 64 → m = p % 64 → x = s.port p → hold = (List.range 16).any (fun q => s.fenced q && s.owns q p) → s.trayOn p = none → s.agentOf p = none →
    (x.signal = false → s.portOn p = true → s.link p = lkDown → x.step ≠ 0 → ∃ t, exec (.laneSignalDetect p true) s = .next t ∧ s.keeps t [.regs, .ports] ∧ t.link p = lkTraining ∧ t.port p = { x with signal := true } ∧ ∀ l ∈ s.lanes p, t.r F.BRIM_LANE.CDR_LOCK [d, l] = 1) ∧
    (∃ t, exec (.laneSignalDetect p false) s = .next t ∧ s.keeps t [.regs, .ports] ∧
      (s.link p = lkTraining → s.portMode p = mdEth ∨ s.portMode p = mdMirror → t.link p = lkDown ∧ t.port p = { x with signal := false, step := min x.step 2 }) ∧
      (s.link p ≠ lkTraining ∨ (s.portMode p ≠ mdEth ∧ s.portMode p ≠ mdMirror) → t.link p = s.link p ∧ t.port p = { x with signal := false })) ∧
    (s.portMode p = mdEth → s.portOn p = true → s.link p ≠ lkFenced →
      (x.step = 1 → ∃ t, exec (.portBringupStepDone p) s = .next t ∧ s.keeps t [.ports] ∧ t.port p = { x with step := 2 }) ∧
      (x.signal = true →
        (x.step = 2 → ∃ t, exec (.portBringupStepDone p) s = .next t ∧ s.keeps t [.regs, .ports] ∧ t.link p = lkTraining ∧ t.port p = { x with step := if s.r F.BRIM_PORT.AN_EN [d, m] = 1 then 3 else 4 }) ∧
        (x.step = 3 ∨ x.step = 4 ∨ x.step = 5 → ∃ t, exec (.portBringupStepDone p) s = .next t ∧ s.keeps t [.ports] ∧ t.port p = { x with step := x.step + 1 }) ∧
        (x.step = 6 → s.r F.BRIM_PORT.MACSEC_EN [d, m] = 1 → s.r F.CROWN_PEER.VALID [p] = 1 → ∃ t, exec (.portBringupStepDone p) s = .next t ∧ s.keeps t [.ports, .free, .sent] ∧
          ∃ n : List Byte, n.length = 32 ∧ t.port p = { x with step := 7, nonce := n } ∧ t.sent = .link p 0 (0x88B6 :: n.map (·.toNat)) :: s.sent) ∧
        (x.step = 6 ∧ s.r F.BRIM_PORT.MACSEC_EN [d, m] = 0 ∨ x.step = 7 ∧ x.sak.isSome = true → ∃ t, exec (.portBringupStepDone p) s = .next t ∧ s.keeps t [.regs, .ports] ∧ t.link p = lkUp ∧ t.r F.TM_PORT.UP [p] = 1 ∧ (t.port p).step = 0 ∧ (t.port p).fails = 0)) ∧
      (x.step ≠ 0 → s.link p = lkTraining →
        (x.fails < 2 → ∃ t, exec (.portBringupTimeout p) s = .next t ∧ s.keeps t [.regs, .ports] ∧ t.link p = lkDown ∧ (t.port p).fails = x.fails + 1 ∧ (t.port p).retry = true) ∧
        (x.fails = 2 → ∃ t, exec (.portBringupTimeout p) s = .next t ∧ s.keeps t [.regs, .ports, .log] ∧ t.link p = lkFailed ∧ s.causes t = [0x104] ∧ (t.port p).retry = false)) ∧
      (x.retry = true → x.off = false → hold = true → ∃ t, exec (.portBringupRetry p) s = .next t ∧ s.keeps t [.regs, .ports, .sent] ∧ t.link p = lkFenced ∧ (t.port p).fence = some 1) ∧
      (x.retry = true → x.off = false → hold = false → ∃ t, exec (.portBringupRetry p) s = .next t ∧ s.keeps t [.regs, .ports] ∧ t.link p = (if x.signal then lkTraining else lkDown) ∧ t.port p = { x with step := 1, retry := false })) ∧
    (s.macsec p = true → s.r F.CROWN_PEER.VALID [p] = 1 → x.step = 7 →
      (∀ f : List Byte, s.r F.CROWN_LC_STATUS.LC_STATE [] = 1 → f.length = 32 → ∃ t, exec (.keyExchangeFrame p f) s = .next t ∧ s.keeps t [.ports] ∧
        t.port p = { x with sak := some 0, prk := prkLink x.nonce f (s.linkZ p), rxSak := 0, rxPn := 1 }) ∧
      (∀ f : List Byte, s.r F.CROWN_LC_STATUS.LC_STATE [] = 1 → f.length ≠ 32 → ∃ t, exec (.keyExchangeFrame p f) s = .next t ∧ s.keeps t [.regs, .ports, .log] ∧ 0x608 ∈ s.causes t ∧ (t.port p).fails = x.fails + 1) ∧
      (x.sak = none → ∃ t, exec (.keyExchangeTimeout p) s = .next t ∧ s.keeps t [.regs, .ports, .log] ∧ 0x608 ∈ s.causes t ∧ (t.port p).fails = x.fails + 1)) ∧
    (∀ k, x.sak = some k → ∃ t, exec (.macsecRekey p) s = .next t ∧ s.keeps t [.ports, .sent] ∧ t.port p = { x with sak := some (k + 1) } ∧ t.sent = .link p 1 [(k + 1) % 2] :: s.sent) ∧
    (s.portMode p = mdEth →
      (s.portOn p = true → x.off = false → hold = false → s.link p = lkUp → ∃ t, exec (.portLinkDown p) s = .next t ∧ t.time = s.time ∧ 0x105 ∈ s.causes t ∧ t.link p = (if x.signal then lkTraining else lkDown) ∧ t.r F.TM_PORT.UP [p] = 0 ∧ t.r F.TM_PORT.FLUSHING [p] = 1 ∧ (t.port p).step = 1 ∧
        t.r F.PORT_LINK_DOWN_COUNT.COUNT [d, m] = stopInc F.PORT_LINK_DOWN_COUNT.COUNT.w (s.r F.PORT_LINK_DOWN_COUNT.COUNT [d, m]) 1) ∧
      (s.link p = lkFenced → ∃ t, exec (.portLinkDown p) s = .next t ∧ s.keeps t [.ports] ∧ t.port p = { x with lost := true }) ∧
      (s.link p = lkUp → ∃ t, exec (.linkErrorWindow p [] 1 []) s = .next t ∧ s.keeps t [.regs, .ports, .log, .sent] ∧
        (s.r F.BRIM_PORT.REEQ_WINDOWS [d, m] ≤ x.bad + 1 → t.link p = lkReeq ∧ 0x110 ∈ s.causes t ∧ t.port p = { x with bad := 0, tries := 1, checking := false } ∧ Msg.link p 2 [1] ∈ s.newMsgs t) ∧
        (x.bad + 1 < s.r F.BRIM_PORT.REEQ_WINDOWS [d, m] → t.link p = lkUp ∧ t.port p = { x with bad := x.bad + 1 })) ∧
      (s.link p = lkUp ∨ s.link p = lkReeq → ∀ on, ∃ t, exec (.remoteFaultReceive p on) s = .next t ∧ s.keeps t [.ports] ∧ t.port p = { x with remote := on })) ∧
    (s.link p = lkUp → ∃ t, exec (.linkErrorWindow p [] 0 []) s = .next t ∧ s.keeps t [.regs, .ports] ∧ t.link p = lkUp ∧ t.port p = { x with bad := 0 }) ∧
    (s.link p = lkReeq → ∃ t, exec (.reeqAdaptExpiry p) s = .next t ∧ s.keeps t [.ports] ∧ t.port p = { x with checking := true }) ∧
    (s.link p = lkReeq → x.checking = true →
      (∃ t, exec (.reeqCheckDone p true) s = .next t ∧ s.keeps t [.regs, .ports, .log, .sent] ∧ t.link p = lkUp ∧ s.causes t = [0x111] ∧ t.port p = { x with tries := 0, checking := false }) ∧
      (x.tries < 2 → ∃ t, exec (.reeqCheckDone p false) s = .next t ∧ s.keeps t [.ports] ∧ t.port p = { x with tries := 2, checking := false }) ∧
      (2 ≤ x.tries → ∃ t, exec (.reeqCheckDone p false) s = .next t ∧ t.time = s.time ∧ 0x112 ∈ s.causes t ∧ t.link p ≠ lkReeq)) ∧
    (s.portMode p = mdPcie →
      (s.portOn p = true → x.step ≠ 0 → x.off = false → s.link p ≠ lkFenced →
        (∀ n r, n = (if s.x16 p then 16 else 8) → r ≤ 2 → r ≤ s.r F.BRIM_OCTET.MAX_RATE [d, m / 4] → ∃ t, exec (.pcieLinkTrained p n r) s = .next t ∧ s.keeps t [.regs, .ports] ∧ t.link p = lkUp ∧ t.r F.BRIM_PORT.LANES [d, m] = n ∧ t.r F.BRIM_PORT.RATE [d, m] = r ∧
          t.r F.BRIM_PORT.DEGRADED [d, m] = 0 ∧ (t.port p).since = s.time.now ∧ (t.port p).step = 0) ∧
        (∀ r, s.x16 p = true → r ≤ 2 → ∃ t, exec (.pcieLinkTrained p 8 r) s = .next t ∧ s.keeps t [.regs, .ports, .log] ∧ t.link p = lkUp ∧ t.r F.BRIM_PORT.LANES [d, m] = 8 ∧ t.r F.BRIM_PORT.DEGRADED [d, m] = 1 ∧ 0x106 ∈ s.causes t) ∧
        (∀ n r, n < 8 ∨ 2 < r → ∃ t, exec (.pcieLinkTrained p n r) s = .next t ∧ s.keeps t [.regs, .ports, .log] ∧ t.link p = lkDown ∧ s.causes t = [0x104] ∧ (t.port p).step = 0)) ∧
      (x.step = 1 → s.link p = lkTraining → x.fails < 2 → ∃ t, exec (.pcieTrainingTimeout p) s = .next t ∧ s.keeps t [.regs, .ports] ∧ t.link p = lkDown ∧ (t.port p).fails = x.fails + 1) ∧
      (∀ v, s.link p = lkUp → v < s.r F.BRIM_LINK_CTRL.MARGIN_MIN [d] → ∃ t, exec (.pcieMarginCheck p [v]) s = .next t ∧ s.keeps t [.regs, .ports, .log] ∧ t.link p = lkRecovery ∧ 0x113 ∈ s.causes t ∧ (v < 256 → t.r F.BRIM_PORT.MIN_MARGIN [d, m] = v)) ∧
      (s.link p = lkUp → s.r F.BRIM_PCIE_CTRL.RETRAIN_S [d] ≠ 0 → ∃ t, exec (.pciePeriodicRetrain p) s = .next t ∧ s.keeps t [.regs, .ports, .log] ∧ t.link p = lkRecovery ∧ 0x113 ∈ s.causes t)) ∧
    (s.link p = lkRecovery → ∃ t, exec (.pcieRecoveryComplete p) s = .next t ∧ s.keeps t [.regs, .ports] ∧ t.link p = lkUp ∧ t.port p = { x with since := s.time.now }) ∧
    (s.link p = lkRecovery → ∃ t, exec (.pcieRecoveryTimeout p) s = .next t ∧ t.time = s.time ∧ 0x114 ∈ s.causes t ∧ t.link p ≠ lkRecovery) ∧
    (s.ideOn p = true → s.link p = lkUp → ∃ t, exec (.ideCheckFail p) s = .next t ∧ t.time = s.time ∧ 0x121 ∈ s.causes t ∧ t.link p ≠ lkUp) ∧
    (∀ k v, k < 6 → v < s.r F.FELT_HBM_TRAIN.MARGIN_MIN [] → ∃ t, exec (.hbmRetrain k v) s = .next t ∧ s.keeps t [.regs, .log] ∧ 0x130 ∈ s.causes t) ∧
    (∀ b, fenceReason b = none → exec (.fenceOrderedSetReceive p b) s = .next s) ∧
    (∀ b r i h l, s.portMode p = mdEth → r ≤ 1 → i < 16 → h < 16 → b = { d1 := 0xF0 + i, d2 := 16 * r + h, d3 := l } → x.rxFence = none → ∃ t, exec (.fenceOrderedSetReceive p b) s = .next t ∧ t.time = s.time ∧ (t.port p).rxFence = some r ∧ (if r = 0 then 0x870 else 0x871) ∈ s.causes t ∧ (r = 1 → t.r F.TM_PORT.FLUSHING [p] = 1) ∧
      ∀ c ∈ s.connsOn p, (t.conn c).st ≠ .open) ∧
    (x.rxFence = some 1 → ∃ t, exec (.fenceOrderedSetEnd p) s = .next t ∧ s.keeps t [.ports] ∧ t.port p = { x with rxFence := none }) ∧
    (x.rxFence = some 0 → s.portMode p = mdEth → s.link p = lkUp → ∃ t, exec (.fenceOrderedSetEnd p) s = .next t ∧ t.time = s.time ∧ (t.port p).rxFence = none ∧ t.link p ≠ lkUp ∧ t.r F.TM_PORT.FLUSHING [p] = 1) ∧
    (x.fence = some 0 → ∃ t, exec (.fenceHoldExpiry p) s = .next t ∧ t.time = s.time ∧ t.link p = lkDown ∧ (t.port p).fence = none ∧ t.r F.TM_PORT.UP [p] = 0)

/-! ### Partitions, the life cycle and debug (R465 to R471, R482, R483, R498) -/

/-- Partitions are created, fenced and removed (R465 to R469, R473, R498): CREATE of a FREE partition that passes its checks gives it its rights, knots and tags; FENCE ends what runs in it under 0x602 and, when its requests have ended or the drain limit has passed, it is FENCED; REMOVE goes on to REMOVING, the key state record advances
the epoch, and after the scrub it is FREE under 0x604 with its resources cleared; commands in a wrong state complete so under 0x601; a stalled partition is recorded under 0x630 and with PART_EN fenced.
Choices of the model in it: log entry 48. -/
def Obligations.PartitionsAreCreatedFencedAndRemoved : Prop :=
  ∀ (p : Nat) (s : State), s.wf = true → p < 16 →
    (s.boot.pend = none →
      (s.r F.CROWN_PART_CTRL.CREATE [p] = 0 →
        (s.partSt p = ptFree → s.createResult p = 0 → ∃ t, exec (.partitionCreate p) s = .next t ∧ s.keeps t [.regs, .boot, .log, .mir, .sent] ∧ t.partSt p = ptActive ∧ t.r F.CROWN_PART_CTRL.DONE [p] = 1 ∧ t.r F.CROWN_PART_CTRL.RESULT [p] = 0 ∧
          (∀ d, d < 8 → t.r F.SPL_PART_ACCESS.VALID [d, p] = 1 ∧ t.r F.SPL_PART_ACCESS.CLEAT_TAG [d, p] = s.r F.CROWN_PART_CFG.RIGHTS_TAG [p] % 2 ^ 16 ∧ t.r F.SPL_PART_ACCESS.MEM [d, p] = s.r F.CROWN_PART_CFG.MEM [p] % 2 ^ 1 ∧
            t.r F.SPL_PART_ACCESS.BULK [d, p] = s.r F.CROWN_PART_CFG.BULK [p] % 2 ^ 1) ∧ t.r F.KNOT_SLICE.BASE [p] = s.r F.CROWN_PART_CFG.KNOT_BASE [p] % 2 ^ 16 ∧ t.r F.KNOT_SLICE.COUNT [p] = s.r F.CROWN_PART_CFG.KNOT_COUNT [p] % 2 ^ 15 ∧
          t.r F.CLEAT_LEND.TAG_COUNT [p] = s.r F.CROWN_PART_CFG.TAG_COUNT [p] % 2 ^ 12) ∧
        (s.partSt p = ptFree → s.createResult p ≠ 0 → s.createResult p < 16 → ∃ t, exec (.partitionCreate p) s = .next t ∧ s.keeps t [.regs, .log, .sent] ∧ t.partSt p = ptFree ∧ t.r F.CROWN_PART_CTRL.RESULT [p] = s.createResult p ∧ s.causes t = [0x601]) ∧
        (s.r F.CROWN_LC_STATUS.LC_STATE [] ≠ 1 → s.createResult p = 4) ∧
        (s.partSt p = ptActive → ∃ t, exec (.partitionCreate p) s = .next t ∧ s.keeps t [.regs, .log, .sent] ∧ t.partSt p = ptActive ∧ t.r F.CROWN_PART_CTRL.RESULT [p] = 4 ∧ s.causes t = [0x601])) ∧
      (s.r F.CROWN_PART_CTRL.FENCE [p] = 0 →
        (s.partSt p = ptActive → ∃ t, exec (.partitionFence p) s = .next t ∧ t.time = s.time ∧ t.fenced p = true ∧ 0x602 ∈ s.causes t ∧ (∀ c, (s.conn c).part = p → (s.conn c).st ≠ .free → (t.conn c).st = .fenced) ∧ ∀ c ∈ s.partCtxs p, (t.ctx c).st = .fenced) ∧
        (s.partSt p = ptFree → ∃ t, exec (.partitionFence p) s = .next t ∧ s.keeps t [.regs, .log, .sent] ∧ t.r F.CROWN_PART_CTRL.RESULT [p] = 4 ∧ s.causes t = [0x601]) ∧
        (s.partSt p = ptFenced → ∃ t, exec (.partitionFence p) s = .next t ∧ s.keeps t [.regs, .sent] ∧ t.r F.CROWN_PART_CTRL.RESULT [p] = 0 ∧ t.r F.CROWN_PART_CTRL.DONE [p] = 1)) ∧
      (s.r F.CROWN_PART_CTRL.REMOVE [p] = 0 →
        (s.partSt p = ptFencing → ∃ t, exec (.partitionRemove p) s = .next t ∧ s.keeps t [.regs, .boot] ∧ t.partSt p = ptFencing ∧ t.r F.CROWN_PART_CTRL.REMOVE [p] = 1) ∧
        (s.partSt p = ptFenced → SMap.wf 0 s.boot.started = true → ∃ t, exec (.partitionRemove p) s = .next t ∧ t.time = s.time ∧ t.partSt p = ptRemoving ∧ t.r F.CROWN_PART_CTRL.REMOVE [p] = 1 ∧ SMap.get 0 t.boot.started p = s.time.now) ∧
        (s.partSt p = ptFree → ∃ t, exec (.partitionRemove p) s = .next t ∧ s.keeps t [.regs, .sent] ∧ t.r F.CROWN_PART_CTRL.RESULT [p] = 0 ∧ t.r F.CROWN_PART_CTRL.DONE [p] = 1)) ∧
      (s.partSt p = ptActive → s.holdsReq p = true →
        (s.r F.CROWN_WDT_CTRL.PART_EN [] = 0 → ∃ t, exec (.partitionWatchdogExpiry p) s = .next t ∧ s.keeps t [.log] ∧ s.causes t = [0x630]) ∧
        (s.r F.CROWN_WDT_CTRL.PART_EN [] = 1 → ∃ t, exec (.partitionWatchdogExpiry p) s = .next t ∧ t.time = s.time ∧ 0x630 ∈ s.causes t ∧ 0x602 ∈ s.causes t ∧ t.fenced p = true))) ∧
    (s.partSt p = ptFencing → s.r F.CROWN_PART_CTRL.REMOVE [p] = 0 → s.reqsWith (fun q => decide (q.part = p)) = [] → ∃ t, exec (.fenceDrainExpiry p) s = .next t ∧ s.keeps t [.regs, .boot, .fab, .mir, .sent] ∧ t.partSt p = ptFenced ∧
      (s.r F.CROWN_PART_CTRL.FENCE [p] = 1 → t.r F.CROWN_PART_CTRL.FENCE [p] = 0 ∧ t.r F.CROWN_PART_CTRL.DONE [p] = 1 ∧ t.r F.CROWN_PART_CTRL.RESULT [p] = 0)) ∧
    (s.partSt p = ptRemoving → s.r F.CROWN_KEY_EPOCH.EPOCH [p] + 1 < 2 ^ 32 → ∃ t, exec (.keyStateRecordDurable p) s = .next t ∧ t.time = s.time ∧ t.partSt p = ptScrubbing ∧ t.r F.CROWN_KEY_EPOCH.EPOCH [p] = s.r F.CROWN_KEY_EPOCH.EPOCH [p] + 1) ∧
    (s.partSt p = ptScrubbing → ∃ t, exec (.partitionScrubComplete p) s = .next t ∧ t.time = s.time ∧ t.partSt p = ptFree ∧ 0x604 ∈ s.causes t ∧ t.r F.CROWN_PART_CTRL.REMOVE [p] = 0 ∧ t.r F.CROWN_PART_CTRL.DONE [p] = 1 ∧ t.r F.CROWN_PART_CTRL.RESULT [p] = 0 ∧
      (∀ d, d < 8 → t.r F.SPL_PART_ACCESS.VALID [d, p] = 0) ∧ t.r F.KNOT_SLICE.COUNT [p] = 0 ∧ t.r F.CLEAT_LEND.TAG_COUNT [p] = 0)

/-- The life cycle and the debug port (R482, R483): a good token moves the life cycle forward while every partition is FREE and TIER_EN is 0, and unlocks the debug port under 0x620; others are refused under 0x621; a locked debug port gives the locked response, an open one serves a free value.
Choices of the model in it: log entries 2, 49. -/
def Obligations.LifeCycleAndDebug : Prop :=
  ∀ (n lc : Nat) (s : State), s.wf = true → lc = s.r F.CROWN_LC_STATUS.LC_STATE [] →
    (lc < n → n ≤ 3 → s.allFree = true → s.r F.TIER_CTRL.TIER_EN [] = 0 → ∃ t, exec (.lcTransition n true) s = .next t ∧ s.keeps t [.regs, .boot] ∧ t.r F.CROWN_LC_STATUS.LC_STATE [] = n ∧ t.boot.lc = n) ∧
    (n ≤ lc ∨ s.allFree = false ∨ s.r F.TIER_CTRL.TIER_EN [] = 1 → ∃ t, exec (.lcTransition n true) s = .next t ∧ s.keeps t [.log] ∧ s.causes t = [0x621]) ∧
    (∃ t, exec (.lcTransition n false) s = .next t ∧ s.keeps t [.log] ∧ s.causes t = [0x621]) ∧
    (lc = 1 → s.allFree = true → ∃ t, exec (.debugUnlock true) s = .next t ∧ s.keeps t [.regs, .log] ∧ t.r F.CROWN_LC_STATUS.DEBUG_STATE [] = 1 ∧ s.causes t = [0x620]) ∧
    (∃ t, exec (.debugUnlock false) s = .next t ∧ s.keeps t [.log] ∧ s.causes t = [0x621]) ∧
    (lc = 0 ∨ lc = 2 ∨ lc = 1 ∧ s.r F.CROWN_LC_STATUS.DEBUG_STATE [] = 1 → ∃ t v, exec .debugAccess s = .next t ∧ s.keeps t [.free, .sent] ∧ t.sent = .debug [v] :: s.sent) ∧
    (lc = 3 ∨ lc = 1 ∧ s.r F.CROWN_LC_STATUS.DEBUG_STATE [] = 0 → ∃ t, exec .debugAccess s = .next t ∧ s.keeps t [.sent] ∧ t.sent = .debug [] :: s.sent)
end

