-- ==== Sys2Proof/Laws/SMap.lean ====
section
/-! SUPPORT. Laws of sparse maps: what a read gives after each operation, and that every operation keeps the canonical form. -/
namespace Sys2Proof.Machine
open Sys2Proof

/-- A member of a filtered list is a member of the list. -/
theorem mem_filter_sub {α : Type} {p : α → Bool} {l : List α} {e : α} (h : e ∈ l.filter p) : e ∈ l := (List.mem_filter.mp h).1

/-- A map that rises from a bound rises from every lower one. -/
theorem SMap.risingFrom_mono {α : Type} {b c : Nat} (h : b ≤ c) : ∀ {m : SMap α}, SMap.risingFrom c m = true → SMap.risingFrom b m = true
  | [], _ => rfl
  | (k, v) :: m, hm => by
    simp only [SMap.risingFrom, Bool.and_eq_true, decide_eq_true_eq] at hm ⊢
    exact ⟨Nat.le_trans h hm.1, hm.2⟩

/-- A key below every listed key is not listed. -/
theorem SMap.find_below {α : Type} {b k : Nat} (h : k < b) : ∀ {m : SMap α}, SMap.risingFrom b m = true → SMap.find m k = none
  | [], _ => rfl
  | (j, v) :: m, hm => by
    simp only [SMap.risingFrom, Bool.and_eq_true, decide_eq_true_eq] at hm
    have h1 : k ≠ j := by omega
    have h2 : k < j := by omega
    simp [SMap.find, h1, h2]

/-- What a key reads as after an entry is put in place. -/
theorem SMap.find_ins {α : Type} (k j : Nat) (v : α) (m : SMap α) : SMap.find (SMap.ins m k v) j = if j = k then some v else SMap.find m j := by
  induction m with
  | nil => grind [SMap.ins, SMap.find]
  | cons e m ih => grind [SMap.ins, SMap.find]

/-- What a key reads as after an entry is taken out. -/
theorem SMap.find_era {α : Type} (k j : Nat) {b : Nat} {m : SMap α} (h : SMap.risingFrom b m = true) :
    SMap.find (SMap.era m k) j = if j = k then none else SMap.find m j := by
  induction m generalizing b with
  | nil => grind [SMap.era, SMap.find]
  | cons e m ih =>
    simp only [SMap.risingFrom, Bool.and_eq_true, decide_eq_true_eq] at h
    have h1 := ih h.2
    have h2 : j ≤ e.1 → SMap.find m j = none := fun hj => SMap.find_below (Nat.lt_succ_of_le hj) h.2
    grind [SMap.era, SMap.find]

/-- A read after a write to the same key gives the value written. -/
theorem SMap.get_set_same {α : Type} [DecidableEq α] (d : α) {m : SMap α} (h : SMap.rising m = true) (k : Nat) (v : α) :
    SMap.get d (SMap.set d m k v) k = v := by
  unfold SMap.get SMap.set
  split
  · subst_vars
    simp [SMap.find_era k k h]
  · simp [SMap.find_ins]

/-- A write leaves every other key as it was. -/
theorem SMap.get_set_other {α : Type} [DecidableEq α] (d : α) {m : SMap α} (h : SMap.rising m = true) {k j : Nat} (hj : j ≠ k) (v : α) :
    SMap.get d (SMap.set d m k v) j = SMap.get d m j := by
  unfold SMap.get SMap.set
  split
  · simp [SMap.find_era k j h, hj]
  · simp [SMap.find_ins, hj]

theorem SMap.risingFrom_ins {α : Type} (k : Nat) (v : α) : ∀ {b : Nat} {m : SMap α}, b ≤ k → SMap.risingFrom b m = true →
    SMap.risingFrom b (SMap.ins m k v) = true
  | b, [], hb, _ => by simp [SMap.ins, SMap.risingFrom, hb]
  | b, (a, w) :: m, hb, hm => by
    simp only [SMap.risingFrom, Bool.and_eq_true, decide_eq_true_eq] at hm
    unfold SMap.ins
    split
    · subst_vars
      simp [SMap.risingFrom, hm]
    · split
      · simp only [SMap.risingFrom, Bool.and_eq_true, decide_eq_true_eq]
        exact ⟨hb, by omega, hm.2⟩
      · simp only [SMap.risingFrom, Bool.and_eq_true, decide_eq_true_eq]
        exact ⟨hm.1, SMap.risingFrom_ins k v (by omega) hm.2⟩

theorem SMap.risingFrom_era {α : Type} (k : Nat) : ∀ {b : Nat} {m : SMap α}, SMap.risingFrom b m = true → SMap.risingFrom b (SMap.era m k) = true
  | _, [], _ => rfl
  | b, (a, w) :: m, hm => by
    have hm' := hm
    simp only [SMap.risingFrom, Bool.and_eq_true, decide_eq_true_eq] at hm
    unfold SMap.era
    split
    · exact SMap.risingFrom_mono (by omega) hm.2
    · split
      · exact hm'
      · simp only [SMap.risingFrom, Bool.and_eq_true, decide_eq_true_eq]
        exact ⟨hm.1, SMap.risingFrom_era k hm.2⟩

theorem SMap.rising_set {α : Type} [DecidableEq α] (d : α) {m : SMap α} (h : SMap.rising m = true) (k : Nat) (v : α) :
    SMap.rising (SMap.set d m k v) = true := by
  unfold SMap.set
  split
  · exact SMap.risingFrom_era k h
  · exact SMap.risingFrom_ins k v (Nat.zero_le k) h

theorem SMap.risingFrom_filter {α : Type} (p : Nat × α → Bool) : ∀ {b : Nat} {m : SMap α}, SMap.risingFrom b m = true →
    SMap.risingFrom b (m.filter p) = true
  | _, [], _ => rfl
  | b, (a, w) :: m, hm => by
    simp only [SMap.risingFrom, Bool.and_eq_true, decide_eq_true_eq] at hm
    have ih := SMap.risingFrom_filter p hm.2
    simp only [List.filter]
    split
    · simp only [SMap.risingFrom, Bool.and_eq_true, decide_eq_true_eq]
      exact ⟨hm.1, ih⟩
    · exact SMap.risingFrom_mono (by omega) ih

/-- The members of an inserted map come from the map or are the entry. -/
theorem SMap.mem_ins {α : Type} (k : Nat) (v : α) (e : Nat × α) : ∀ m : SMap α, e ∈ SMap.ins m k v → e = (k, v) ∨ e ∈ m
  | [], h => by simp_all [SMap.ins]
  | (a, w) :: m, h => by
    unfold SMap.ins at h
    split at h
    · simp at h ⊢
      grind
    · split at h
      · simp at h ⊢
        grind
      · simp at h ⊢
        have := SMap.mem_ins k v e m
        grind

theorem SMap.mem_era {α : Type} (k : Nat) (e : Nat × α) : ∀ m : SMap α, e ∈ SMap.era m k → e ∈ m
  | [], h => h
  | (a, w) :: m, h => by
    unfold SMap.era at h
    split at h
    · exact List.mem_cons_of_mem _ h
    · split at h
      · exact h
      · have := SMap.mem_era k e m
        simp at h ⊢
        grind

/-- A write keeps the canonical form. -/
theorem SMap.wf_set {α : Type} [DecidableEq α] (d : α) {m : SMap α} (h : SMap.wf d m = true) (k : Nat) (v : α) :
    SMap.wf d (SMap.set d m k v) = true := by
  simp only [SMap.wf, Bool.and_eq_true, List.all_eq_true, decide_eq_true_eq] at h ⊢
  refine ⟨SMap.rising_set d h.1 k v, ?_⟩
  intro e he
  unfold SMap.set at he
  split at he
  · exact h.2 e (SMap.mem_era k e m he)
  · rcases SMap.mem_ins k v e m he with rfl | h'
    · assumption
    · exact h.2 e h'

/-- A part of a canonical map is canonical. -/
theorem SMap.wf_filter {α : Type} [DecidableEq α] (d : α) {m : SMap α} (h : SMap.wf d m = true) (p : Nat × α → Bool) :
    SMap.wf d (m.filter p) = true := by
  simp only [SMap.wf, Bool.and_eq_true, List.all_eq_true, decide_eq_true_eq] at h ⊢
  exact ⟨SMap.risingFrom_filter p h.1, fun e he => h.2 e (mem_filter_sub he)⟩

theorem SMap.wf_eraRange {α : Type} [DecidableEq α] (d : α) {m : SMap α} (h : SMap.wf d m = true) (lo hi : Nat) :
    SMap.wf d (SMap.eraRange m lo hi) = true := SMap.wf_filter d h _

theorem SMap.wf_foldl {α : Type} [DecidableEq α] (d : α) : ∀ (l : List (Nat × α)) (m : SMap α), SMap.wf d m = true →
    SMap.wf d (l.foldl (fun a e => SMap.set d a e.1 e.2) m) = true
  | [], _, h => h
  | e :: l, _, h => SMap.wf_foldl d l _ (SMap.wf_set d h e.1 e.2)

theorem SMap.wf_norm {α : Type} [DecidableEq α] (d : α) (l : List (Nat × α)) : SMap.wf d (SMap.norm d l) = true :=
  SMap.wf_foldl d l [] rfl

/-- Two rising maps, the first below a bound and the second from it on, rise one after the other. -/
theorem SMap.risingFrom_append {α : Type} {c : Nat} : ∀ {b : Nat} {m n : SMap α}, b ≤ c → SMap.risingFrom b m = true → SMap.risingFrom c n = true →
    (∀ e ∈ m, e.1 < c) → SMap.risingFrom b (m ++ n) = true
  | b, [], n, hb, _, hn, _ => SMap.risingFrom_mono hb hn
  | b, (a, w) :: m, n, hb, hm, hn, hc => by
    simp only [SMap.risingFrom, Bool.and_eq_true, decide_eq_true_eq, List.cons_append] at hm ⊢
    have ha : a < c := hc (a, w) (List.mem_cons_self ..)
    exact ⟨hm.1, SMap.risingFrom_append (by omega) hm.2 hn (fun e he => hc e (List.mem_cons_of_mem _ he))⟩

theorem SMap.risingFrom_zip {α : Type} (p : α × Nat → Bool) : ∀ (vs : List α) (lo : Nat),
    SMap.risingFrom lo (((vs.zipIdx lo).filter p).map (fun q => (q.2, q.1))) = true
  | [], _ => rfl
  | v :: vs, lo => by
    have ih := SMap.risingFrom_zip p vs (lo + 1)
    simp only [List.zipIdx, List.filter]
    split
    · simp only [List.map, SMap.risingFrom, Bool.and_eq_true, decide_eq_true_eq]
      exact ⟨Nat.le_refl lo, ih⟩
    · exact SMap.risingFrom_mono (by omega) ih

theorem SMap.risingFrom_above {α : Type} (c : Nat) : ∀ {b : Nat} {m : SMap α}, SMap.risingFrom b m = true → (∀ e ∈ m, c ≤ e.1) → SMap.risingFrom c m = true
  | _, [], _, _ => rfl
  | b, (a, w) :: m, hm, hc => by
    simp only [SMap.risingFrom, Bool.and_eq_true, decide_eq_true_eq] at hm ⊢
    exact ⟨hc (a, w) (List.mem_cons_self ..), hm.2⟩

/-- Writing a range of keys keeps the canonical form. -/
theorem SMap.wf_setRange {α : Type} [DecidableEq α] (d : α) {m : SMap α} (h : SMap.wf d m = true) (lo : Nat) (vs : List α) :
    SMap.wf d (SMap.setRange d m lo vs) = true := by
  have h' := h
  simp only [SMap.wf, Bool.and_eq_true, List.all_eq_true, decide_eq_true_eq] at h ⊢
  obtain ⟨hr, hd⟩ := h
  unfold SMap.setRange SMap.rising
  constructor
  · have hz := SMap.risingFrom_zip (fun p => decide (p.1 ≠ d)) vs lo
    have zlt : ∀ e ∈ ((vs.zipIdx lo).filter (fun p => decide (p.1 ≠ d))).map (fun q => (q.2, q.1)), e.1 < lo + vs.length := by
      intro e he
      simp only [List.mem_map, List.mem_filter] at he
      obtain ⟨q, ⟨hq, _⟩, rfl⟩ := he
      exact List.snd_lt_add_of_mem_zipIdx hq
    refine SMap.risingFrom_append (c := lo + vs.length) (Nat.zero_le _) ?_ ?_ ?_
    · refine SMap.risingFrom_append (c := lo) (Nat.zero_le _) (SMap.risingFrom_filter _ hr) hz ?_
      intro e he
      simpa using (List.mem_filter.mp he).2
    · refine SMap.risingFrom_above _ (SMap.risingFrom_filter _ hr) ?_
      intro e he
      simpa using (List.mem_filter.mp he).2
    · intro e he
      rcases List.mem_append.mp he with h1 | h1
      · have : e.1 < lo := by simpa using (List.mem_filter.mp h1).2
        omega
      · exact zlt e h1
  · intro e he
    rcases List.mem_append.mp he with h1 | h1
    · rcases List.mem_append.mp h1 with h2 | h2
      · exact hd e (mem_filter_sub h2)
      · simp only [List.mem_map, List.mem_filter, decide_eq_true_eq] at h2
        obtain ⟨q, ⟨_, hq⟩, rfl⟩ := h2
        exact hq
    · exact hd e (mem_filter_sub h1)

theorem SMap.rising_of_wf {α : Type} [DecidableEq α] {d : α} {m : SMap α} (h : SMap.wf d m = true) : SMap.rising m = true := by
  simp only [SMap.wf, Bool.and_eq_true] at h
  exact h.1

end Sys2Proof.Machine
end

