-- ==== Sys2Proof/Laws/State.lean ====
section
/-! SUPPORT. What a primitive update and a program can do to the state, said once: which parts an update writes, that it leaves every other part, and how a program runs. -/
namespace Sys2Proof.Machine
open Sys2Proof

/-- The parts that a primitive update writes. -/
@[simp] def Eff.parts : Eff → List Part
  | .reg .. => [.regs]
  | .stage .. => [.regs]
  | .unstage .. => [.regs]
  | .regReset => [.regs]
  | .latch .. => [.regs]
  | .hold .. => [.regs]
  | .time .. => [.time]
  | .pins .. => [.pins]
  | .power .. => [.power]
  | .d2d .. => [.d2d]
  | .wire .. => [.log]
  | .logPush .. => [.log]
  | .logPart .. => [.log]
  | .logPartClear .. => [.log]
  | .logRings .. => [.log]
  | .num .. => [.log]
  | .limit .. => [.log]
  | .toExport .. => [.log]
  | .samples .. => [.log]
  | .ctxResets .. => [.log]
  | .engResets .. => [.log]
  | .cleatEnts .. => [.cleat]
  | .cleatUpds .. => [.cleat]
  | .cleatFwd .. => [.cleat]
  | .cleatCache .. => [.cleat]
  | .ext .. => [.pool]
  | .page .. => [.pool]
  | .mem .. => [.pool]
  | .poison .. => [.pool]
  | .mig .. => [.pool]
  | .prefetch .. => [.pool]
  | .tray .. => [.pool]
  | .sset .. => [.pool]
  | .route .. => [.pool]
  | .rows .. => [.pool]
  | .mapPages .. => [.pool]
  | .mboxWait .. => [.pool]
  | .uses .. => [.pool]
  | .chosen .. => [.pool]
  | .demoting .. => [.pool]
  | .flash .. => [.pool]
  | .conn .. => [.btp]
  | .req .. => [.btp]
  | .out .. => [.btp]
  | .gathers .. => [.btp]
  | .prevMap .. => [.btp]
  | .prevRoutes .. => [.btp]
  | .respQ .. => [.btp]
  | .qp .. => [.btp]
  | .peer .. => [.btp]
  | .dir .. => [.hitch]
  | .txn .. => [.hitch]
  | .probe .. => [.hitch]
  | .heldValid .. => [.hitch]
  | .comb .. => [.hitch]
  | .stalls .. => [.hitch]
  | .ingress .. => [.hitch]
  | .knot .. => [.knots]
  | .sig .. => [.knots]
  | .launches .. => [.knots]
  | .coll .. => [.fab]
  | .item .. => [.fab]
  | .itemCount .. => [.fab]
  | .ctx .. => [.eng]
  | .prg .. => [.eng]
  | .scr .. => [.eng]
  | .clu .. => [.eng]
  | .memR .. => [.pool]
  | .scrR .. => [.eng]
  | .cluR .. => [.eng]
  | .memZero .. => [.pool]
  | .scrZero .. => [.eng]
  | .cluZero .. => [.eng]
  | .code .. => [.eng]
  | .engSt .. => [.eng]
  | .svc .. => [.eng]
  | .mcred .. => [.eng]
  | .vcred .. => [.eng]
  | .mmaCount .. => [.eng]
  | .op .. => [.eng]
  | .tmq .. => [.tm]
  | .tmPort .. => [.tm]
  | .pol .. => [.tm]
  | .frm .. => [.tm]
  | .tmUsed .. => [.tm]
  | .port .. => [.ports]
  | .mir .. => [.mir]
  | .boot .. => [.boot]
  | .domain .. => [.hitch, .knots, .cleat, .pool]
  | .dropUnits => [.power, .d2d, .cleat, .pool, .btp, .hitch, .knots, .eng, .fab, .tm, .ports, .log]
  | .logReset => [.log]
  | .order .. => [.eng]
  | .send .. => [.sent]
  | .nextId => [.nextId]
  | .drawFree => [.free]

/-- An update leaves every part it does not write. -/
theorem Eff.apply_same (e : Eff) (p : Part) (h : p ∉ e.parts) (s : State) : p.same (e.apply s) s := by
  cases e <;> cases p <;> first | rfl | (exact absurd (by decide) h) | (simp [Eff.parts] at h)

/-! ### One lemma for each part: an update that does not write it leaves it; and one for each update: what it writes -/

@[simp] theorem Eff.apply_regs (e : Eff) (s : State) (h : Part.regs ∉ e.parts) : (e.apply s).regs = s.regs := Eff.apply_same e .regs h s
@[simp] theorem Eff.apply_time (e : Eff) (s : State) (h : Part.time ∉ e.parts) : (e.apply s).time = s.time := Eff.apply_same e .time h s
@[simp] theorem Eff.apply_pins (e : Eff) (s : State) (h : Part.pins ∉ e.parts) : (e.apply s).pins = s.pins := Eff.apply_same e .pins h s
@[simp] theorem Eff.apply_power (e : Eff) (s : State) (h : Part.power ∉ e.parts) : (e.apply s).power = s.power := Eff.apply_same e .power h s
@[simp] theorem Eff.apply_d2d (e : Eff) (s : State) (h : Part.d2d ∉ e.parts) : (e.apply s).d2d = s.d2d := Eff.apply_same e .d2d h s
@[simp] theorem Eff.apply_log (e : Eff) (s : State) (h : Part.log ∉ e.parts) : (e.apply s).log = s.log := Eff.apply_same e .log h s
@[simp] theorem Eff.apply_cleat (e : Eff) (s : State) (h : Part.cleat ∉ e.parts) : (e.apply s).cleat = s.cleat := Eff.apply_same e .cleat h s
@[simp] theorem Eff.apply_pool (e : Eff) (s : State) (h : Part.pool ∉ e.parts) : (e.apply s).pool = s.pool := Eff.apply_same e .pool h s
@[simp] theorem Eff.apply_btp (e : Eff) (s : State) (h : Part.btp ∉ e.parts) : (e.apply s).btp = s.btp := Eff.apply_same e .btp h s
@[simp] theorem Eff.apply_hitch (e : Eff) (s : State) (h : Part.hitch ∉ e.parts) : (e.apply s).hitch = s.hitch := Eff.apply_same e .hitch h s
@[simp] theorem Eff.apply_knots (e : Eff) (s : State) (h : Part.knots ∉ e.parts) : (e.apply s).knots = s.knots := Eff.apply_same e .knots h s
@[simp] theorem Eff.apply_eng (e : Eff) (s : State) (h : Part.eng ∉ e.parts) : (e.apply s).eng = s.eng := Eff.apply_same e .eng h s
@[simp] theorem Eff.apply_fab (e : Eff) (s : State) (h : Part.fab ∉ e.parts) : (e.apply s).fab = s.fab := Eff.apply_same e .fab h s
@[simp] theorem Eff.apply_tm (e : Eff) (s : State) (h : Part.tm ∉ e.parts) : (e.apply s).tm = s.tm := Eff.apply_same e .tm h s
@[simp] theorem Eff.apply_ports (e : Eff) (s : State) (h : Part.ports ∉ e.parts) : (e.apply s).ports = s.ports := Eff.apply_same e .ports h s
@[simp] theorem Eff.apply_mir (e : Eff) (s : State) (h : Part.mir ∉ e.parts) : (e.apply s).mir = s.mir := Eff.apply_same e .mir h s
@[simp] theorem Eff.apply_boot (e : Eff) (s : State) (h : Part.boot ∉ e.parts) : (e.apply s).boot = s.boot := Eff.apply_same e .boot h s
@[simp] theorem Eff.apply_sent (e : Eff) (s : State) (h : Part.sent ∉ e.parts) : (e.apply s).sent = s.sent := Eff.apply_same e .sent h s
@[simp] theorem Eff.apply_nextId (e : Eff) (s : State) (h : Part.nextId ∉ e.parts) : (e.apply s).nextId = s.nextId := Eff.apply_same e .nextId h s
@[simp] theorem Eff.apply_free (e : Eff) (s : State) (h : Part.free ∉ e.parts) : (e.apply s).free = s.free := Eff.apply_same e .free h s
@[simp] theorem Eff.apply_pending (e : Eff) (s : State) (h : Part.pending ∉ e.parts) : (e.apply s).pending = s.pending := Eff.apply_same e .pending h s

@[simp] theorem Eff.reg_regs (f : Fld) (ix : List Nat) (v : Nat) (s : State) : ((Eff.reg f ix v).apply s).regs = { s.regs with eff := SMap.set f.rst s.regs.eff (f.key ix) (v % 2 ^ f.w) } := rfl
@[simp] theorem Eff.stage_regs (f : Fld) (ix : List Nat) (v : Nat) (s : State) : ((Eff.stage f ix v).apply s).regs = s.regs.stage f ix (v % 2 ^ f.w) := rfl
@[simp] theorem Eff.unstage_regs (lo : Nat) (hi : Nat) (s : State) : ((Eff.unstage lo hi).apply s).regs = { s.regs with stg := SMap.eraRange s.regs.stg lo hi } := rfl
@[simp] theorem Eff.regReset_regs (s : State) : ((Eff.regReset).apply s).regs = {} := rfl
@[simp] theorem Eff.latch_regs (k : Nat) (v : Option Nat) (s : State) : ((Eff.latch k v).apply s).regs = { s.regs with latch := match v with | none => SMap.era s.regs.latch k | some x => SMap.ins s.regs.latch k x } := rfl
@[simp] theorem Eff.hold_regs (k : Nat) (v : Option Nat) (s : State) : ((Eff.hold k v).apply s).regs = { s.regs with hold := match v with | none => SMap.era s.regs.hold k | some x => SMap.ins s.regs.hold k x } := rfl
@[simp] theorem Eff.time_time (t : TimeSt) (s : State) : ((Eff.time t).apply s).time = t := rfl
@[simp] theorem Eff.pins_pins (p : Pins) (s : State) : ((Eff.pins p).apply s).pins = p := rfl
@[simp] theorem Eff.power_power (p : PowerSt) (s : State) : ((Eff.power p).apply s).power = p := rfl
@[simp] theorem Eff.d2d_d2d (d : D2d) (s : State) : ((Eff.d2d d).apply s).d2d = d := rfl
@[simp] theorem Eff.wire_log (l : List LogRec) (s : State) : ((Eff.wire l).apply s).log = { s.log with wire := l } := rfl
@[simp] theorem Eff.logPush_log (r : LogRec) (up : Bool) (s : State) : ((Eff.logPush r up).apply s).log = s.log.push r up := rfl
@[simp] theorem Eff.logPart_log (p : Nat) (r : LogRec) (s : State) : ((Eff.logPart p r).apply s).log = s.log.pushPart p r := rfl
@[simp] theorem Eff.logPartClear_log (p : Nat) (s : State) : ((Eff.logPartClear p).apply s).log = { s.log with part := SMap.set [] s.log.part p [], partNext := SMap.set 0 s.log.partNext p 0 } := rfl
@[simp] theorem Eff.logRings_log (c : List LogRec) (h : List LogRec) (s : State) : ((Eff.logRings c h).apply s).log = { s.log with crown := c.take crownCap, hbm := h.take hbmCap } := rfl
@[simp] theorem Eff.num_log (src : Nat) (n : Nat) (s : State) : ((Eff.num src n).apply s).log = { s.log with nums := SMap.set 0 s.log.nums src n } := rfl
@[simp] theorem Eff.limit_log (k : Nat) (l : Limit) (s : State) : ((Eff.limit k l).apply s).log = { s.log with limits := SMap.set {} s.log.limits k l } := rfl
@[simp] theorem Eff.toExport_log (l : List LogRec) (s : State) : ((Eff.toExport l).apply s).log = { s.log with toExport := l } := rfl
@[simp] theorem Eff.samples_log (st : List Sample) (ov : List Sample) (n : Nat) (s : State) : ((Eff.samples st ov n).apply s).log = { s.log with store := st.take 256, ovf := ov.take 1024, nextSample := n % 65536 } := rfl
@[simp] theorem Eff.ctxResets_log (e : Nat) (ts : List Nat) (s : State) : ((Eff.ctxResets e ts).apply s).log = { s.log with ctxResets := SMap.set [] s.log.ctxResets e ts } := rfl
@[simp] theorem Eff.engResets_log (e : Nat) (ts : List Nat) (s : State) : ((Eff.engResets e ts).apply s).log = { s.log with engResets := SMap.set [] s.log.engResets e ts } := rfl
@[simp] theorem Eff.cleatEnts_cleat (l : List CleatEnt) (s : State) : ((Eff.cleatEnts l).apply s).cleat = { s.cleat with ents := l } := rfl
@[simp] theorem Eff.cleatUpds_cleat (l : List CleatUpd) (s : State) : ((Eff.cleatUpds l).apply s).cleat = { s.cleat with upds := l } := rfl
@[simp] theorem Eff.cleatFwd_cleat (l : List CleatEnt) (s : State) : ((Eff.cleatFwd l).apply s).cleat = { s.cleat with fwd := l } := rfl
@[simp] theorem Eff.cleatCache_cleat (c : Nat) (l : List CleatEnt) (s : State) : ((Eff.cleatCache c l).apply s).cleat = { s.cleat with caches := SMap.set [] s.cleat.caches c l } := rfl
@[simp] theorem Eff.ext_pool (e : Nat) (x : Ext) (s : State) : ((Eff.ext e x).apply s).pool = { s.pool with exts := SMap.set {} s.pool.exts e x } := rfl
@[simp] theorem Eff.page_pool (p : Nat) (x : Page) (s : State) : ((Eff.page p x).apply s).pool = { s.pool with pages := SMap.set {} s.pool.pages p x } := rfl
@[simp] theorem Eff.mem_pool (a : Nat) (b : Byte) (s : State) : ((Eff.mem a b).apply s).pool = { s.pool with mem := SMap.set 0 s.pool.mem a b } := rfl
@[simp] theorem Eff.poison_pool (l : Nat) (b : Bool) (s : State) : ((Eff.poison l b).apply s).pool = { s.pool with poison := SMap.set false s.pool.poison l b } := rfl
@[simp] theorem Eff.mig_pool (p : Nat) (m : Option Migr) (s : State) : ((Eff.mig p m).apply s).pool = { s.pool with migs := SMap.set none s.pool.migs p m } := rfl
@[simp] theorem Eff.prefetch_pool (l : List Prefetch) (s : State) : ((Eff.prefetch l).apply s).pool = { s.pool with prefetch := l } := rfl
@[simp] theorem Eff.tray_pool (t : Nat) (x : Option Tray) (s : State) : ((Eff.tray t x).apply s).pool = { s.pool with trays := SMap.set none s.pool.trays t x } := rfl
@[simp] theorem Eff.sset_pool (t : Nat) (x : Option SSet) (s : State) : ((Eff.sset t x).apply s).pool = { s.pool with sets := SMap.set none s.pool.sets t x } := rfl
@[simp] theorem Eff.route_pool (b : Nat) (x : Option Route) (s : State) : ((Eff.route b x).apply s).pool = { s.pool with routes := SMap.set none s.pool.routes b x } := rfl
@[simp] theorem Eff.rows_pool (l : List (Nat × Nat)) (s : State) : ((Eff.rows l).apply s).pool = { s.pool with rows := l } := rfl
@[simp] theorem Eff.uses_pool (n : Nat) (s : State) : ((Eff.uses n).apply s).pool = { s.pool with uses := n } := rfl
@[simp] theorem Eff.chosen_pool (l : List Nat) (s : State) : ((Eff.chosen l).apply s).pool = { s.pool with chosen := l } := rfl
@[simp] theorem Eff.demoting_pool (b : Bool) (s : State) : ((Eff.demoting b).apply s).pool = { s.pool with demoting := b } := rfl
@[simp] theorem Eff.flash_pool (t : Nat) (x : Flash) (s : State) : ((Eff.flash t x).apply s).pool = { s.pool with flash := SMap.set {} s.pool.flash t x } := rfl
@[simp] theorem Eff.mapPages_pool (c : List (Nat × Nat)) (d : List (Nat × Nat)) (s : State) : ((Eff.mapPages c d).apply s).pool = { s.pool with mapCache := c, mapDirty := d } := rfl
@[simp] theorem Eff.mboxWait_pool (l : List Nat) (s : State) : ((Eff.mboxWait l).apply s).pool = { s.pool with waits := l } := rfl
@[simp] theorem Eff.conn_btp (c : Nat) (x : Conn) (s : State) : ((Eff.conn c x).apply s).btp = { s.btp with conns := SMap.set {} s.btp.conns c x } := rfl
@[simp] theorem Eff.req_btp (r : Nat) (x : Option Req) (s : State) : ((Eff.req r x).apply s).btp = { s.btp with reqs := SMap.set none s.btp.reqs r x } := rfl
@[simp] theorem Eff.out_btp (t : Nat) (x : Option OutReq) (s : State) : ((Eff.out t x).apply s).btp = { s.btp with outs := SMap.set none s.btp.outs t x } := rfl
@[simp] theorem Eff.gathers_btp (l : List Gather) (s : State) : ((Eff.gathers l).apply s).btp = { s.btp with gathers := l } := rfl
@[simp] theorem Eff.prevMap_btp (b : Bool) (s : State) : ((Eff.prevMap b).apply s).btp = { s.btp with prevMap := b } := rfl
@[simp] theorem Eff.prevRoutes_btp (l : List CleatEnt) (s : State) : ((Eff.prevRoutes l).apply s).btp = { s.btp with prevRoutes := l } := rfl
@[simp] theorem Eff.respQ_btp (p : Nat) (l : List Msg) (s : State) : ((Eff.respQ p l).apply s).btp = { s.btp with respQs := SMap.set [] s.btp.respQs p l } := rfl
@[simp] theorem Eff.peer_btp (a n : Nat) (s : State) : ((Eff.peer a n).apply s).btp = { s.btp with peers := SMap.set 0 s.btp.peers a n } := rfl
@[simp] theorem Eff.qp_btp (q : Nat) (x : Qp) (s : State) : ((Eff.qp q x).apply s).btp = { s.btp with qps := SMap.set {} s.btp.qps q x } := rfl
@[simp] theorem Eff.dir_hitch (l : Nat) (x : Option DirEnt) (s : State) : ((Eff.dir l x).apply s).hitch = { s.hitch with dir := SMap.set none s.hitch.dir l x } := rfl
@[simp] theorem Eff.txn_hitch (l : Nat) (x : Option Txn) (s : State) : ((Eff.txn l x).apply s).hitch = { s.hitch with txns := SMap.set none s.hitch.txns l x } := rfl
@[simp] theorem Eff.probe_hitch (n : Nat) (k : Nat) (s : State) : ((Eff.probe n k).apply s).hitch = { s.hitch with probes := SMap.set 0 s.hitch.probes n k } := rfl
@[simp] theorem Eff.heldValid_hitch (l : List Nat) (s : State) : ((Eff.heldValid l).apply s).hitch = { s.hitch with heldValid := l } := rfl
@[simp] theorem Eff.comb_hitch (e : Nat) (x : Option Comb) (s : State) : ((Eff.comb e x).apply s).hitch = { s.hitch with combs := SMap.set none s.hitch.combs e x } := rfl
@[simp] theorem Eff.stalls_hitch (xs : List Nat) (s : State) : ((Eff.stalls xs).apply s).hitch = { s.hitch with stalls := xs } := rfl
@[simp] theorem Eff.ingress_hitch (xs : List (Nat × TxnKind)) (s : State) : ((Eff.ingress xs).apply s).hitch = { s.hitch with ingress := xs } := rfl
@[simp] theorem Eff.knot_knots (n : Nat) (x : Knot) (s : State) : ((Eff.knot n x).apply s).knots = { s.knots with kn := SMap.set {} s.knots.kn n x } := rfl
@[simp] theorem Eff.sig_knots (i : Nat) (x : Option KSig) (s : State) : ((Eff.sig i x).apply s).knots = { s.knots with sigs := SMap.set none s.knots.sigs i x } := rfl
@[simp] theorem Eff.launches_knots (l : List Launch) (s : State) : ((Eff.launches l).apply s).knots = { s.knots with launches := l } := rfl
@[simp] theorem Eff.coll_fab (n : Nat) (x : Coll) (s : State) : ((Eff.coll n x).apply s).fab = { s.fab with colls := SMap.set {} s.fab.colls n x } := rfl
@[simp] theorem Eff.item_fab (i : Nat) (x : Option Item) (s : State) : ((Eff.item i x).apply s).fab = { s.fab with items := SMap.set none s.fab.items i x } := rfl
@[simp] theorem Eff.itemCount_fab (n : Nat) (s : State) : ((Eff.itemCount n).apply s).fab = { s.fab with count := n } := rfl
@[simp] theorem Eff.ctx_eng (c : Nat) (x : Ctx) (s : State) : ((Eff.ctx c x).apply s).eng = { s.eng with ctxs := SMap.set {} s.eng.ctxs c x } := rfl
@[simp] theorem Eff.prg_eng (p : Nat) (x : Option Prg) (s : State) : ((Eff.prg p x).apply s).eng = { s.eng with progs := SMap.set none s.eng.progs p x } := rfl
@[simp] theorem Eff.scr_eng (a : Nat) (b : Byte) (s : State) : ((Eff.scr a b).apply s).eng = { s.eng with scratch := SMap.set 0 s.eng.scratch a b } := rfl
@[simp] theorem Eff.clu_eng (a : Nat) (b : Byte) (s : State) : ((Eff.clu a b).apply s).eng = { s.eng with clu := SMap.set 0 s.eng.clu a b } := rfl
@[simp] theorem Eff.memR_pool (a : Nat) (bs : List Byte) (s : State) : ((Eff.memR a bs).apply s).pool = { s.pool with mem := SMap.setRange 0 s.pool.mem a bs } := rfl
@[simp] theorem Eff.scrR_eng (a : Nat) (bs : List Byte) (s : State) : ((Eff.scrR a bs).apply s).eng = { s.eng with scratch := SMap.setRange 0 s.eng.scratch a bs } := rfl
@[simp] theorem Eff.cluR_eng (a : Nat) (bs : List Byte) (s : State) : ((Eff.cluR a bs).apply s).eng = { s.eng with clu := SMap.setRange 0 s.eng.clu a bs } := rfl
@[simp] theorem Eff.memZero_pool (lo : Nat) (hi : Nat) (s : State) : ((Eff.memZero lo hi).apply s).pool = { s.pool with mem := SMap.eraRange s.pool.mem lo hi, poison := SMap.eraRange s.pool.poison (lo / 64) ((hi + 63) / 64) } := rfl
@[simp] theorem Eff.scrZero_eng (lo : Nat) (hi : Nat) (s : State) : ((Eff.scrZero lo hi).apply s).eng = { s.eng with scratch := SMap.eraRange s.eng.scratch lo hi } := rfl
@[simp] theorem Eff.cluZero_eng (lo : Nat) (hi : Nat) (s : State) : ((Eff.cluZero lo hi).apply s).eng = { s.eng with clu := SMap.eraRange s.eng.clu lo hi } := rfl
@[simp] theorem Eff.code_eng (k : Nat) (x : Option Region) (s : State) : ((Eff.code k x).apply s).eng = { s.eng with code := SMap.set none s.eng.code k x } := rfl
@[simp] theorem Eff.engSt_eng (e : Nat) (n : Nat) (s : State) : ((Eff.engSt e n).apply s).eng = { s.eng with engs := SMap.set 0 s.eng.engs e n } := rfl
@[simp] theorem Eff.svc_eng (p : Nat) (x : Svc) (s : State) : ((Eff.svc p x).apply s).eng = { s.eng with svc := SMap.set {} s.eng.svc p x } := rfl
@[simp] theorem Eff.mcred_eng (e : Nat) (n : Nat) (s : State) : ((Eff.mcred e n).apply s).eng = { s.eng with mcred := SMap.set 128 s.eng.mcred e n } := rfl
@[simp] theorem Eff.vcred_eng (e : Nat) (n : Nat) (s : State) : ((Eff.vcred e n).apply s).eng = { s.eng with vcred := SMap.set 128 s.eng.vcred e n } := rfl
@[simp] theorem Eff.mmaCount_eng (e : Nat) (n : Nat) (s : State) : ((Eff.mmaCount e n).apply s).eng = { s.eng with mmaCount := SMap.set 0 s.eng.mmaCount e n } := rfl
@[simp] theorem Eff.op_eng (o : Nat) (x : Option AOp) (s : State) : ((Eff.op o x).apply s).eng = { s.eng with ops := SMap.set none s.eng.ops o x } := rfl
@[simp] theorem Eff.tmq_tm (q : Nat) (x : TmQ) (s : State) : ((Eff.tmq q x).apply s).tm = { s.tm with qs := SMap.set {} s.tm.qs q x } := rfl
@[simp] theorem Eff.tmPort_tm (p : Nat) (x : TmPort) (s : State) : ((Eff.tmPort p x).apply s).tm = { s.tm with ports := SMap.set {} s.tm.ports p x } := rfl
@[simp] theorem Eff.pol_tm (i : Nat) (x : Pol) (s : State) : ((Eff.pol i x).apply s).tm = { s.tm with pols := SMap.set {} s.tm.pols i x } := rfl
@[simp] theorem Eff.frm_tm (f : Nat) (x : Option Frm) (s : State) : ((Eff.frm f x).apply s).tm = { s.tm with frms := SMap.set none s.tm.frms f x } := rfl
@[simp] theorem Eff.tmUsed_tm (n : Nat) (s : State) : ((Eff.tmUsed n).apply s).tm = { s.tm with used := n } := rfl
@[simp] theorem Eff.port_ports (p : Nat) (x : PortSt) (s : State) : ((Eff.port p x).apply s).ports = SMap.set {} s.ports p x := rfl
@[simp] theorem Eff.mir_mir (m : Mir) (s : State) : ((Eff.mir m).apply s).mir = m := rfl
@[simp] theorem Eff.boot_boot (b : Boot) (s : State) : ((Eff.boot b).apply s).boot = b := rfl
@[simp] theorem Eff.logReset_log (s : State) : ((Eff.logReset).apply s).log = {} := rfl
@[simp] theorem Eff.order_eng (n : Nat) (s : State) : ((Eff.order n).apply s).eng = { s.eng with order := n } := rfl
@[simp] theorem Eff.send_sent (m : Msg) (s : State) : ((Eff.send m).apply s).sent = m :: s.sent := rfl
@[simp] theorem Eff.nextId_nextId (s : State) : ((Eff.nextId).apply s).nextId = s.nextId + 1 := rfl
@[simp] theorem Eff.drawFree_free (s : State) : ((Eff.drawFree).apply s).free = s.free + 1 := rfl

/-- A program whose every update, in whatever state, passes a test. -/
def Prog.Only (ok : Eff → Prop) : Prog → Prop
  | .skip => True
  | .eff e => ok e
  | .seq p q => p.Only ok ∧ q.Only ok
  | .get f => ∀ s, (f s).Only ok

/-- A program that writes only certain parts. -/
def Prog.Within (l : List Part) (p : Prog) : Prop := p.Only (fun e => ∀ q ∈ e.parts, q ∈ l)

theorem Part.same_refl (p : Part) (s : State) : p.same s s := by cases p <;> rfl

theorem Part.same_trans {p : Part} {s t u : State} (h : p.same s t) (k : p.same t u) : p.same s u := by
  cases p <;> exact Eq.trans h k

/-- A program leaves every part outside those it writes. -/
theorem Prog.run_same {l : List Part} {q : Part} (hq : q ∉ l) : ∀ (p : Prog), p.Within l → ∀ s, q.same (p.run s) s
  | .skip, _, s => Part.same_refl q s
  | .eff e, h, s => Eff.apply_same e q (fun hm => hq (h q hm)) s
  | .seq a b, h, s => Part.same_trans (Prog.run_same hq b h.2 (a.run s)) (Prog.run_same hq a h.1 s)
  | .get f, h, s => Prog.run_same hq (f s) (h s) s

/-- What every primitive update keeps, every program keeps. -/
theorem Prog.run_keeps {I : State → Prop} (h : ∀ e s, I s → I (Eff.apply e s)) : ∀ (p : Prog) s, I s → I (p.run s)
  | .skip, _, hs => hs
  | .eff e, s, hs => h e s hs
  | .seq a b, s, hs => Prog.run_keeps h b _ (Prog.run_keeps h a s hs)
  | .get f, s, hs => Prog.run_keeps h (f s) s hs

/-- What the updates of a program that passes a test keep, the program keeps. -/
theorem Prog.run_keeps_only {ok : Eff → Prop} {I : State → Prop} (h : ∀ e, ok e → ∀ s, I s → I (Eff.apply e s)) :
    ∀ (p : Prog), p.Only ok → ∀ s, I s → I (p.run s)
  | .skip, _, _, hs => hs
  | .eff e, he, s, hs => h e he s hs
  | .seq a b, hp, s, hs => Prog.run_keeps_only h b hp.2 _ (Prog.run_keeps_only h a hp.1 s hs)
  | .get f, hp, s, hs => Prog.run_keeps_only h (f s) (hp s) s hs

/-! ### How a program runs -/

@[simp] theorem Prog.run_skip (s : State) : Prog.skip.run s = s := rfl
@[simp] theorem Prog.run_eff (e : Eff) (s : State) : (Prog.eff e).run s = e.apply s := rfl
@[simp] theorem Prog.run_seq (p q : Prog) (s : State) : (Prog.seq p q).run s = q.run (p.run s) := rfl
@[simp] theorem Prog.run_get (f : State → Prog) (s : State) : (Prog.get f).run s = (f s).run s := rfl
@[simp] theorem run_rd (f : State → Prog) (s : State) : (rd f).run s = (f s).run s := rfl
@[simp] theorem Prog.run_all_nil (s : State) : (Prog.all []).run s = s := rfl

/-- A list of programs runs its head and then its tail. -/
@[simp] theorem Prog.run_all_cons (p : Prog) (ps : List Prog) (s : State) : (Prog.all (p :: ps)).run s = (Prog.all ps).run (p.run s) := by
  cases ps <;> rfl

@[simp] theorem Prog.run_when_true (p : Prog) (s : State) : (Prog.when true p).run s = p.run s := rfl
@[simp] theorem Prog.run_when_false (p : Prog) (s : State) : (Prog.when false p).run s = s := rfl
@[simp] theorem Prog.run_each_nil {α : Type} (f : α → Prog) (s : State) : (Prog.each [] f).run s = s := rfl
@[simp] theorem Prog.run_each_cons {α : Type} (x : α) (xs : List α) (f : α → Prog) (s : State) :
    (Prog.each (x :: xs) f).run s = (Prog.each xs f).run ((f x).run s) := rfl
@[simp] theorem Prog.run_opt_none {α : Type} (f : α → Prog) (s : State) : (Prog.opt none f).run s = s := rfl
@[simp] theorem Prog.run_opt_some {α : Type} (x : α) (f : α → Prog) (s : State) : (Prog.opt (some x) f).run s = (f x).run s := rfl

/-- A conditional program runs the branch that holds. -/
theorem Prog.run_ite (c : Prop) [Decidable c] (p q : Prog) (s : State) : (if c then p else q).run s = if c then p.run s else q.run s := by
  split <;> rfl

/-- A command's meaning always answers the state its program leaves. -/
@[simp] theorem run_next (s : State) (p : Prog) : run s p = .next (p.run s) := rfl

/-! ### Which programs pass a test -/

theorem Prog.only_all {ok : Eff → Prop} : ∀ {ps : List Prog}, (∀ p ∈ ps, p.Only ok) → (Prog.all ps).Only ok
  | [], _ => trivial
  | [p], h => h p (List.mem_singleton.mpr rfl)
  | p :: _ :: _, h => ⟨h p (List.mem_cons_self ..), Prog.only_all (fun r hr => h r (List.mem_cons_of_mem _ hr))⟩

theorem Prog.only_when {ok : Eff → Prop} {c : Bool} {p : Prog} (h : p.Only ok) : (Prog.when c p).Only ok := by
  cases c
  · trivial
  · exact h

theorem Prog.only_each {α : Type} {ok : Eff → Prop} {f : α → Prog} : ∀ {xs : List α}, (∀ x, (f x).Only ok) → (Prog.each xs f).Only ok
  | [], _ => trivial
  | x :: _, h => ⟨h x, Prog.only_each h⟩

theorem Prog.only_opt {α : Type} {ok : Eff → Prop} {o : Option α} {f : α → Prog} (h : ∀ x, (f x).Only ok) : (Prog.opt o f).Only ok := by
  cases o
  · trivial
  · exact h _

theorem Prog.only_rd {ok : Eff → Prop} {f : State → Prog} (h : ∀ s, (f s).Only ok) : (rd f).Only ok := h

end Sys2Proof.Machine
end

