-- ==== Sys2Proof/Laws/Wf.lean ====
section
/-! SUPPORT. Every primitive update keeps the canonical form of memories and tables and the sizes of the rings. -/
namespace Sys2Proof.Machine
open Sys2Proof

/-- Every operation on memory keeps its canonical form. -/
theorem Eff.apply_memWf (e : Eff) (s : State) (h : s.memWf = true) : (e.apply s).memWf = true := by
  simp only [State.memWf, Bool.and_eq_true] at h ⊢
  obtain ⟨⟨hm, hs⟩, hc⟩ := h
  cases e
  all_goals first
    | exact ⟨⟨hm, hs⟩, hc⟩
    | exact ⟨⟨SMap.wf_set 0 hm _ _, hs⟩, hc⟩
    | exact ⟨⟨hm, SMap.wf_set 0 hs _ _⟩, hc⟩
    | exact ⟨⟨hm, hs⟩, SMap.wf_set 0 hc _ _⟩
    | exact ⟨⟨SMap.wf_setRange 0 hm _ _, hs⟩, hc⟩
    | exact ⟨⟨hm, SMap.wf_setRange 0 hs _ _⟩, hc⟩
    | exact ⟨⟨hm, hs⟩, SMap.wf_setRange 0 hc _ _⟩
    | exact ⟨⟨SMap.wf_eraRange 0 hm _ _, hs⟩, hc⟩
    | exact ⟨⟨hm, SMap.wf_eraRange 0 hs _ _⟩, hc⟩
    | exact ⟨⟨hm, hs⟩, SMap.wf_eraRange 0 hc _ _⟩
    | exact ⟨⟨hm, rfl⟩, rfl⟩

/-- The register file stays in order. -/
theorem Eff.apply_regsWf (e : Eff) (s : State) (h : s.regsWf = true) : (e.apply s).regsWf = true := by
  simp only [State.regsWf, Bool.and_eq_true] at h ⊢
  obtain ⟨⟨⟨he, hg⟩, hl⟩, ho⟩ := h
  cases e
  case reg f ix v => exact ⟨⟨⟨SMap.rising_set _ he _ _, hg⟩, hl⟩, ho⟩
  case stage f ix v =>
    simp only [Eff.apply, RegFile.stage]
    split
    · exact ⟨⟨⟨he, SMap.risingFrom_era _ hg⟩, hl⟩, ho⟩
    · exact ⟨⟨⟨he, SMap.risingFrom_ins _ _ (Nat.zero_le _) hg⟩, hl⟩, ho⟩
  case unstage lo hi => exact ⟨⟨⟨he, SMap.risingFrom_filter _ hg⟩, hl⟩, ho⟩
  case regReset => exact ⟨⟨⟨rfl, rfl⟩, rfl⟩, rfl⟩
  case latch k v =>
    cases v
    · exact ⟨⟨⟨he, hg⟩, SMap.risingFrom_era _ hl⟩, ho⟩
    · exact ⟨⟨⟨he, hg⟩, SMap.risingFrom_ins _ _ (Nat.zero_le _) hl⟩, ho⟩
  case hold k v =>
    cases v
    · exact ⟨⟨⟨he, hg⟩, hl⟩, SMap.risingFrom_era _ ho⟩
    · exact ⟨⟨⟨he, hg⟩, hl⟩, SMap.risingFrom_ins _ _ (Nat.zero_le _) ho⟩
  all_goals exact ⟨⟨⟨he, hg⟩, hl⟩, ho⟩

/-- The tables of the pool stay canonical. -/
theorem Eff.apply_poolWf (e : Eff) (s : State) (h : s.poolWf = true) : (e.apply s).poolWf = true := by
  have h' := h
  simp only [State.poolWf, Bool.and_eq_true] at h ⊢
  obtain ⟨⟨⟨⟨⟨⟨⟨h1, h2⟩, h3⟩, h4⟩, h5⟩, h6⟩, h7⟩, h8⟩ := h
  cases e <;> simp only [Eff.apply, State.setDomain, State.dropUnits] <;> and_intros <;>
    first
      | assumption
      | exact SMap.wf_set _ (by assumption) _ _
      | exact SMap.wf_norm _ _
      | exact SMap.wf_eraRange _ (by assumption) _ _
      | rfl

/-- The tables of the transport engines, the Hitch, the Fuller and the knots stay canonical. -/
theorem Eff.apply_fabricWf (e : Eff) (s : State) (h : s.fabricWf = true) : (e.apply s).fabricWf = true := by
  simp only [State.fabricWf, Bool.and_eq_true] at h ⊢
  obtain ⟨⟨⟨⟨⟨⟨⟨⟨⟨⟨⟨ha, h0⟩, h1⟩, h2⟩, h3⟩, h4⟩, h5⟩, h6⟩, h7⟩, h8⟩, h9⟩, h10⟩ := h
  cases e <;> simp only [Eff.apply, State.setDomain, State.dropUnits] <;> and_intros <;>
    first
      | assumption
      | exact SMap.wf_set _ (by assumption) _ _
      | exact SMap.wf_norm _ _
      | rfl

/-- The tables of the engines, services, traffic manager and ports stay canonical. -/
theorem Eff.apply_unitsWf (e : Eff) (s : State) (h : s.unitsWf = true) : (e.apply s).unitsWf = true := by
  simp only [State.unitsWf, Bool.and_eq_true] at h ⊢
  obtain ⟨⟨⟨⟨⟨⟨⟨⟨⟨⟨⟨⟨⟨⟨⟨⟨h1, h2⟩, h3⟩, h4⟩, h5⟩, h6⟩, h7⟩, h8⟩, h9⟩, h10⟩, h11⟩, h12⟩, h13⟩, h14⟩, h15⟩, h16⟩, h17⟩ := h
  cases e <;> simp only [Eff.apply, State.setDomain, State.dropUnits] <;> and_intros <;>
    first
      | assumption
      | exact SMap.wf_set _ (by assumption) _ _
      | rfl

/-- A property of all values of a map holds after a write of a value that has it. -/
theorem SMap.all_set {α : Type} [DecidableEq α] (d : α) (p : Nat × α → Bool) {m : SMap α} (h : m.all p = true) (k : Nat) (v : α) (hv : p (k, v) = true) :
    (SMap.set d m k v).all p = true := by
  simp only [List.all_eq_true] at h ⊢
  intro e he
  unfold SMap.set at he
  split at he
  · exact h e (SMap.mem_era k e m he)
  · rcases SMap.mem_ins k v e m he with rfl | h'
    · exact hv
    · exact h e h'

/-- The rings keep their sizes, and the tables of the Logline stay canonical. -/
theorem Eff.apply_logWf (e : Eff) (s : State) (h : s.logWf = true) : (e.apply s).logWf = true := by
  simp only [State.logWf, Bool.and_eq_true, decide_eq_true_eq] at h ⊢
  obtain ⟨⟨⟨⟨⟨⟨⟨⟨⟨⟨h1, h2⟩, h3⟩, h4⟩, h5⟩, h6⟩, h7⟩, h8⟩, h9⟩, h10⟩, h11⟩ := h
  cases e <;> simp only [Eff.apply, State.setDomain, State.dropUnits, LogSt.push, LogSt.pushPart] <;> and_intros <;>
    first
      | assumption
      | exact SMap.wf_set _ (by assumption) _ _
      | exact SMap.all_set _ _ (by assumption) _ _ (by simp; omega)
      | exact SMap.all_set _ _ (by assumption) _ _ (by simp)
      | (split <;> first | assumption | (simp only [List.length_take]; exact Nat.min_le_left _ _))
      | (simp only [List.length_take]; exact Nat.min_le_left _ _)
      | simp
      | rfl

/-- Every primitive update keeps a sound state sound. -/
theorem Eff.apply_wf (e : Eff) (s : State) (h : s.wf = true) : (e.apply s).wf = true := by
  simp only [State.wf, Bool.and_eq_true] at h ⊢
  obtain ⟨⟨⟨⟨⟨h1, h2⟩, h3⟩, h4⟩, h5⟩, h6⟩ := h
  exact ⟨⟨⟨⟨⟨e.apply_memWf s h1, e.apply_regsWf s h2⟩, e.apply_poolWf s h3⟩, e.apply_fabricWf s h4⟩, e.apply_unitsWf s h5⟩, e.apply_logWf s h6⟩

/-- A program keeps a sound state sound. -/
theorem Prog.run_wf (p : Prog) (s : State) (h : s.wf = true) : (p.run s).wf = true :=
  Prog.run_keeps (I := fun t => t.wf = true) (fun e t ht => e.apply_wf t ht) p s h

end Sys2Proof.Machine
end

