-- ==== Sys2Proof/Laws/Regs.lean ====
section
/-! SUPPORT. Reading registers and tables after an update: the entry written reads as written, every other reads as before. -/
namespace Sys2Proof.Machine
open Sys2Proof

/-! ### What a sound state gives -/

@[simp] theorem Eff.apply_wf' (e : Eff) (s : State) (h : s.wf = true) : (e.apply s).wf = true := e.apply_wf s h

theorem State.wf_parts {s : State} (h : s.wf = true) :
    s.memWf = true ∧ s.regsWf = true ∧ s.poolWf = true ∧ s.fabricWf = true ∧ s.unitsWf = true ∧ s.logWf = true := by
  simp only [State.wf, Bool.and_eq_true] at h
  obtain ⟨⟨⟨⟨⟨h1, h2⟩, h3⟩, h4⟩, h5⟩, h6⟩ := h
  exact ⟨h1, h2, h3, h4, h5, h6⟩

/-! ### Register fields -/

/-- Two fields that start at different bits have different keys, wherever they lie. -/
theorem Fld.key_ne_lo {f g : Fld} (hf : f.lo < 64) (hg : g.lo < 64) (h : f.lo ≠ g.lo) (ix jx : List Nat) : f.key ix ≠ g.key jx := by
  unfold Fld.key; omega

/-- Two fields of different registers have different keys. -/
theorem Fld.key_ne_off {f g : Fld} (hf : f.lo < 64) (hg : g.lo < 64) {ix jx : List Nat} (h : f.off ix ≠ g.off jx) : f.key ix ≠ g.key jx := by
  unfold Fld.key; omega

theorem State.eff_rising {s : State} (h : s.wf = true) : SMap.rising s.regs.eff = true := by
  have := (State.wf_parts h).2.1
  simp only [State.regsWf, Bool.and_eq_true] at this
  exact this.1.1.1

/-- A field reads as what was put into effect, to its width. -/
@[simp] theorem State.r_reg_same {s : State} (h : s.wf = true) (f : Fld) (ix : List Nat) (v : Nat) :
    ((Eff.reg f ix v).apply s).r f ix = v % 2 ^ f.w := by
  simp only [State.r, Eff.reg_regs]
  exact SMap.get_set_same _ (State.eff_rising h) _ _

/-- Every other field reads as before. -/
theorem State.r_reg_other {s : State} (h : s.wf = true) {f g : Fld} {ix jx : List Nat} (hk : g.key jx ≠ f.key ix) (v : Nat) :
    ((Eff.reg f ix v).apply s).r g jx = s.r g jx := by
  simp only [State.r, Eff.reg_regs, SMap.get]
  have hr := State.eff_rising h
  unfold SMap.set
  split
  · rw [SMap.find_era (h := hr), if_neg hk]
  · rw [SMap.find_ins, if_neg hk]

/-- An update that writes no register leaves every field. -/
@[simp] theorem Eff.apply_r (e : Eff) (s : State) (h : Part.regs ∉ e.parts) (f : Fld) (ix : List Nat) : (e.apply s).r f ix = s.r f ix := by
  unfold State.r; rw [Eff.apply_regs e s h]

/-! ### Tables -/
theorem State.coll_wf {s : State} (h : s.wf = true) : SMap.wf {} s.fab.colls = true := by
  have := State.wf_parts h
  simp only [State.unitsWf, Bool.and_eq_true] at this
  simp only [this]
@[simp] theorem Eff.apply_coll (e : Eff) (s : State) (h : Part.fab ∉ e.parts) (n : Nat) : (e.apply s).coll n = s.coll n := by
  unfold State.coll; rw [Eff.apply_fab e s h]
@[simp] theorem State.coll_same {s : State} (h : s.wf = true) (n : Nat) (x : Coll) : ((Eff.coll n x).apply s).coll n = x :=
  SMap.get_set_same _ (SMap.rising_of_wf (State.coll_wf h)) n x
theorem State.coll_other {s : State} (h : s.wf = true) {n m : Nat} (hm : m ≠ n) (x : Coll) : ((Eff.coll n x).apply s).coll m = s.coll m :=
  SMap.get_set_other _ (SMap.rising_of_wf (State.coll_wf h)) hm x

theorem State.ctx_wf {s : State} (h : s.wf = true) : SMap.wf {} s.eng.ctxs = true := by
  have := State.wf_parts h
  simp only [State.unitsWf, Bool.and_eq_true] at this
  simp only [this]
@[simp] theorem Eff.apply_ctx (e : Eff) (s : State) (h : Part.eng ∉ e.parts) (n : Nat) : (e.apply s).ctx n = s.ctx n := by
  unfold State.ctx; rw [Eff.apply_eng e s h]
@[simp] theorem State.ctx_same {s : State} (h : s.wf = true) (n : Nat) (x : Ctx) : ((Eff.ctx n x).apply s).ctx n = x :=
  SMap.get_set_same _ (SMap.rising_of_wf (State.ctx_wf h)) n x
theorem State.ctx_other {s : State} (h : s.wf = true) {n m : Nat} (hm : m ≠ n) (x : Ctx) : ((Eff.ctx n x).apply s).ctx m = s.ctx m :=
  SMap.get_set_other _ (SMap.rising_of_wf (State.ctx_wf h)) hm x

theorem State.flash_wf {s : State} (h : s.wf = true) : SMap.wf {} s.pool.flash = true := by
  have := State.wf_parts h
  simp only [State.poolWf, Bool.and_eq_true] at this
  simp only [this]
@[simp] theorem Eff.apply_flash (e : Eff) (s : State) (h : Part.pool ∉ e.parts) (n : Nat) : (e.apply s).flash n = s.flash n := by
  unfold State.flash; rw [Eff.apply_pool e s h]
@[simp] theorem State.flash_same {s : State} (h : s.wf = true) (n : Nat) (x : Flash) : ((Eff.flash n x).apply s).flash n = x :=
  SMap.get_set_same _ (SMap.rising_of_wf (State.flash_wf h)) n x
theorem State.flash_other {s : State} (h : s.wf = true) {n m : Nat} (hm : m ≠ n) (x : Flash) : ((Eff.flash n x).apply s).flash m = s.flash m :=
  SMap.get_set_other _ (SMap.rising_of_wf (State.flash_wf h)) hm x

theorem State.dirAt_wf {s : State} (h : s.wf = true) : SMap.wf none s.hitch.dir = true := by
  have := State.wf_parts h
  simp only [State.fabricWf, Bool.and_eq_true] at this
  simp only [this]
@[simp] theorem Eff.apply_dirAt (e : Eff) (s : State) (h : Part.hitch ∉ e.parts) (n : Nat) : (e.apply s).dirAt n = s.dirAt n := by
  unfold State.dirAt; rw [Eff.apply_hitch e s h]
@[simp] theorem State.dirAt_same {s : State} (h : s.wf = true) (n : Nat) (x : Option DirEnt) : ((Eff.dir n x).apply s).dirAt n = x :=
  SMap.get_set_same _ (SMap.rising_of_wf (State.dirAt_wf h)) n x
theorem State.dirAt_other {s : State} (h : s.wf = true) {n m : Nat} (hm : m ≠ n) (x : Option DirEnt) : ((Eff.dir n x).apply s).dirAt m = s.dirAt m :=
  SMap.get_set_other _ (SMap.rising_of_wf (State.dirAt_wf h)) hm x

theorem State.txnAt_wf {s : State} (h : s.wf = true) : SMap.wf none s.hitch.txns = true := by
  have := State.wf_parts h
  simp only [State.fabricWf, Bool.and_eq_true] at this
  simp only [this]
@[simp] theorem Eff.apply_txnAt (e : Eff) (s : State) (h : Part.hitch ∉ e.parts) (n : Nat) : (e.apply s).txnAt n = s.txnAt n := by
  unfold State.txnAt; rw [Eff.apply_hitch e s h]
@[simp] theorem State.txnAt_same {s : State} (h : s.wf = true) (n : Nat) (x : Option Txn) : ((Eff.txn n x).apply s).txnAt n = x :=
  SMap.get_set_same _ (SMap.rising_of_wf (State.txnAt_wf h)) n x
theorem State.txnAt_other {s : State} (h : s.wf = true) {n m : Nat} (hm : m ≠ n) (x : Option Txn) : ((Eff.txn n x).apply s).txnAt m = s.txnAt m :=
  SMap.get_set_other _ (SMap.rising_of_wf (State.txnAt_wf h)) hm x

theorem State.aop_wf {s : State} (h : s.wf = true) : SMap.wf none s.eng.ops = true := by
  have := State.wf_parts h
  simp only [State.unitsWf, Bool.and_eq_true] at this
  simp only [this]
@[simp] theorem Eff.apply_aop (e : Eff) (s : State) (h : Part.eng ∉ e.parts) (n : Nat) : (e.apply s).aop n = s.aop n := by
  unfold State.aop; rw [Eff.apply_eng e s h]
@[simp] theorem State.aop_same {s : State} (h : s.wf = true) (n : Nat) (x : Option AOp) : ((Eff.op n x).apply s).aop n = x :=
  SMap.get_set_same _ (SMap.rising_of_wf (State.aop_wf h)) n x
theorem State.aop_other {s : State} (h : s.wf = true) {n m : Nat} (hm : m ≠ n) (x : Option AOp) : ((Eff.op n x).apply s).aop m = s.aop m :=
  SMap.get_set_other _ (SMap.rising_of_wf (State.aop_wf h)) hm x

theorem State.knot_wf {s : State} (h : s.wf = true) : SMap.wf {} s.knots.kn = true := by
  have := State.wf_parts h
  simp only [State.fabricWf, Bool.and_eq_true] at this
  simp only [this]
@[simp] theorem Eff.apply_knot (e : Eff) (s : State) (h : Part.knots ∉ e.parts) (n : Nat) : (e.apply s).knot n = s.knot n := by
  unfold State.knot; rw [Eff.apply_knots e s h]
@[simp] theorem State.knot_same {s : State} (h : s.wf = true) (n : Nat) (x : Knot) : ((Eff.knot n x).apply s).knot n = x :=
  SMap.get_set_same _ (SMap.rising_of_wf (State.knot_wf h)) n x
theorem State.knot_other {s : State} (h : s.wf = true) {n m : Nat} (hm : m ≠ n) (x : Knot) : ((Eff.knot n x).apply s).knot m = s.knot m :=
  SMap.get_set_other _ (SMap.rising_of_wf (State.knot_wf h)) hm x

theorem State.combAt_wf {s : State} (h : s.wf = true) : SMap.wf none s.hitch.combs = true := by
  have := State.wf_parts h
  simp only [State.fabricWf, Bool.and_eq_true] at this
  simp only [this]
@[simp] theorem Eff.apply_combAt (e : Eff) (s : State) (h : Part.hitch ∉ e.parts) (n : Nat) : (e.apply s).combAt n = s.combAt n := by
  unfold State.combAt; rw [Eff.apply_hitch e s h]
@[simp] theorem State.combAt_same {s : State} (h : s.wf = true) (n : Nat) (x : Option Comb) : ((Eff.comb n x).apply s).combAt n = x :=
  SMap.get_set_same _ (SMap.rising_of_wf (State.combAt_wf h)) n x
theorem State.combAt_other {s : State} (h : s.wf = true) {n m : Nat} (hm : m ≠ n) (x : Option Comb) : ((Eff.comb n x).apply s).combAt m = s.combAt m :=
  SMap.get_set_other _ (SMap.rising_of_wf (State.combAt_wf h)) hm x

theorem State.port_wf {s : State} (h : s.wf = true) : SMap.wf {} s.ports = true := by
  have := State.wf_parts h
  simp only [State.unitsWf, Bool.and_eq_true] at this
  simp only [this]
@[simp] theorem Eff.apply_port (e : Eff) (s : State) (h : Part.ports ∉ e.parts) (n : Nat) : (e.apply s).port n = s.port n := by
  unfold State.port; rw [Eff.apply_ports e s h]
@[simp] theorem State.port_same {s : State} (h : s.wf = true) (n : Nat) (x : PortSt) : ((Eff.port n x).apply s).port n = x :=
  SMap.get_set_same _ (SMap.rising_of_wf (State.port_wf h)) n x
theorem State.port_other {s : State} (h : s.wf = true) {n m : Nat} (hm : m ≠ n) (x : PortSt) : ((Eff.port n x).apply s).port m = s.port m :=
  SMap.get_set_other _ (SMap.rising_of_wf (State.port_wf h)) hm x

theorem State.ext_wf {s : State} (h : s.wf = true) : SMap.wf {} s.pool.exts = true := by
  have := State.wf_parts h
  simp only [State.poolWf, Bool.and_eq_true] at this
  simp only [this]
@[simp] theorem Eff.apply_ext (e : Eff) (s : State) (h : Part.pool ∉ e.parts) (n : Nat) : (e.apply s).ext n = s.ext n := by
  unfold State.ext; rw [Eff.apply_pool e s h]
@[simp] theorem State.ext_same {s : State} (h : s.wf = true) (n : Nat) (x : Ext) : ((Eff.ext n x).apply s).ext n = x :=
  SMap.get_set_same _ (SMap.rising_of_wf (State.ext_wf h)) n x
theorem State.ext_other {s : State} (h : s.wf = true) {n m : Nat} (hm : m ≠ n) (x : Ext) : ((Eff.ext n x).apply s).ext m = s.ext m :=
  SMap.get_set_other _ (SMap.rising_of_wf (State.ext_wf h)) hm x

theorem State.sset_wf {s : State} (h : s.wf = true) : SMap.wf none s.pool.sets = true := by
  have := State.wf_parts h
  simp only [State.poolWf, Bool.and_eq_true] at this
  simp only [this]
@[simp] theorem Eff.apply_sset (e : Eff) (s : State) (h : Part.pool ∉ e.parts) (n : Nat) : (e.apply s).sset n = s.sset n := by
  unfold State.sset; rw [Eff.apply_pool e s h]
@[simp] theorem State.sset_same {s : State} (h : s.wf = true) (n : Nat) (x : Option SSet) : ((Eff.sset n x).apply s).sset n = x :=
  SMap.get_set_same _ (SMap.rising_of_wf (State.sset_wf h)) n x
theorem State.sset_other {s : State} (h : s.wf = true) {n m : Nat} (hm : m ≠ n) (x : Option SSet) : ((Eff.sset n x).apply s).sset m = s.sset m :=
  SMap.get_set_other _ (SMap.rising_of_wf (State.sset_wf h)) hm x

theorem State.trayAt_wf {s : State} (h : s.wf = true) : SMap.wf none s.pool.trays = true := by
  have := State.wf_parts h
  simp only [State.poolWf, Bool.and_eq_true] at this
  simp only [this]
@[simp] theorem Eff.apply_trayAt (e : Eff) (s : State) (h : Part.pool ∉ e.parts) (n : Nat) : (e.apply s).trayAt n = s.trayAt n := by
  unfold State.trayAt; rw [Eff.apply_pool e s h]
@[simp] theorem State.trayAt_same {s : State} (h : s.wf = true) (n : Nat) (x : Option Tray) : ((Eff.tray n x).apply s).trayAt n = x :=
  SMap.get_set_same _ (SMap.rising_of_wf (State.trayAt_wf h)) n x
theorem State.trayAt_other {s : State} (h : s.wf = true) {n m : Nat} (hm : m ≠ n) (x : Option Tray) : ((Eff.tray n x).apply s).trayAt m = s.trayAt m :=
  SMap.get_set_other _ (SMap.rising_of_wf (State.trayAt_wf h)) hm x

theorem State.page_wf {s : State} (h : s.wf = true) : SMap.wf {} s.pool.pages = true := by
  have := State.wf_parts h
  simp only [State.poolWf, Bool.and_eq_true] at this
  simp only [this]
@[simp] theorem Eff.apply_page (e : Eff) (s : State) (h : Part.pool ∉ e.parts) (n : Nat) : (e.apply s).page n = s.page n := by
  unfold State.page; rw [Eff.apply_pool e s h]
@[simp] theorem State.page_same {s : State} (h : s.wf = true) (n : Nat) (x : Page) : ((Eff.page n x).apply s).page n = x :=
  SMap.get_set_same _ (SMap.rising_of_wf (State.page_wf h)) n x
theorem State.page_other {s : State} (h : s.wf = true) {n m : Nat} (hm : m ≠ n) (x : Page) : ((Eff.page n x).apply s).page m = s.page m :=
  SMap.get_set_other _ (SMap.rising_of_wf (State.page_wf h)) hm x

theorem State.svcMode_wf {s : State} (h : s.wf = true) : SMap.wf {} s.eng.svc = true := by
  have := State.wf_parts h
  simp only [State.unitsWf, Bool.and_eq_true] at this
  simp only [this]
@[simp] theorem Eff.apply_svcMode (e : Eff) (s : State) (h : Part.eng ∉ e.parts) (n : Nat) : (e.apply s).svcMode n = s.svcMode n := by
  unfold State.svcMode; rw [Eff.apply_eng e s h]
@[simp] theorem State.svcMode_same {s : State} (h : s.wf = true) (n : Nat) (x : Svc) : ((Eff.svc n x).apply s).svcMode n = x :=
  SMap.get_set_same _ (SMap.rising_of_wf (State.svcMode_wf h)) n x
theorem State.svcMode_other {s : State} (h : s.wf = true) {n m : Nat} (hm : m ≠ n) (x : Svc) : ((Eff.svc n x).apply s).svcMode m = s.svcMode m :=
  SMap.get_set_other _ (SMap.rising_of_wf (State.svcMode_wf h)) hm x

theorem State.qp_wf {s : State} (h : s.wf = true) : SMap.wf {} s.btp.qps = true := by
  have := State.wf_parts h
  simp only [State.fabricWf, Bool.and_eq_true] at this
  simp only [this]
@[simp] theorem Eff.apply_qp (e : Eff) (s : State) (h : Part.btp ∉ e.parts) (n : Nat) : (e.apply s).qp n = s.qp n := by
  unfold State.qp; rw [Eff.apply_btp e s h]
@[simp] theorem State.qp_same {s : State} (h : s.wf = true) (n : Nat) (x : Qp) : ((Eff.qp n x).apply s).qp n = x :=
  SMap.get_set_same _ (SMap.rising_of_wf (State.qp_wf h)) n x
theorem State.qp_other {s : State} (h : s.wf = true) {n m : Nat} (hm : m ≠ n) (x : Qp) : ((Eff.qp n x).apply s).qp m = s.qp m :=
  SMap.get_set_other _ (SMap.rising_of_wf (State.qp_wf h)) hm x

theorem State.tmq_wf {s : State} (h : s.wf = true) : SMap.wf {} s.tm.qs = true := by
  have := State.wf_parts h
  simp only [State.unitsWf, Bool.and_eq_true] at this
  simp only [this]
@[simp] theorem Eff.apply_tmq (e : Eff) (s : State) (h : Part.tm ∉ e.parts) (n : Nat) : (e.apply s).tmq n = s.tmq n := by
  unfold State.tmq; rw [Eff.apply_tm e s h]
@[simp] theorem State.tmq_same {s : State} (h : s.wf = true) (n : Nat) (x : TmQ) : ((Eff.tmq n x).apply s).tmq n = x :=
  SMap.get_set_same _ (SMap.rising_of_wf (State.tmq_wf h)) n x
theorem State.tmq_other {s : State} (h : s.wf = true) {n m : Nat} (hm : m ≠ n) (x : TmQ) : ((Eff.tmq n x).apply s).tmq m = s.tmq m :=
  SMap.get_set_other _ (SMap.rising_of_wf (State.tmq_wf h)) hm x

theorem State.tmPort_wf {s : State} (h : s.wf = true) : SMap.wf {} s.tm.ports = true := by
  have := State.wf_parts h
  simp only [State.unitsWf, Bool.and_eq_true] at this
  simp only [this]
@[simp] theorem Eff.apply_tmPort (e : Eff) (s : State) (h : Part.tm ∉ e.parts) (n : Nat) : (e.apply s).tmPort n = s.tmPort n := by
  unfold State.tmPort; rw [Eff.apply_tm e s h]
@[simp] theorem State.tmPort_same {s : State} (h : s.wf = true) (n : Nat) (x : TmPort) : ((Eff.tmPort n x).apply s).tmPort n = x :=
  SMap.get_set_same _ (SMap.rising_of_wf (State.tmPort_wf h)) n x
theorem State.tmPort_other {s : State} (h : s.wf = true) {n m : Nat} (hm : m ≠ n) (x : TmPort) : ((Eff.tmPort n x).apply s).tmPort m = s.tmPort m :=
  SMap.get_set_other _ (SMap.rising_of_wf (State.tmPort_wf h)) hm x

theorem State.frm_wf {s : State} (h : s.wf = true) : SMap.wf none s.tm.frms = true := by
  have := State.wf_parts h
  simp only [State.unitsWf, Bool.and_eq_true] at this
  simp only [this]
@[simp] theorem Eff.apply_frm (e : Eff) (s : State) (h : Part.tm ∉ e.parts) (n : Nat) : (e.apply s).frm n = s.frm n := by
  unfold State.frm; rw [Eff.apply_tm e s h]
@[simp] theorem State.frm_same {s : State} (h : s.wf = true) (n : Nat) (x : Option Frm) : ((Eff.frm n x).apply s).frm n = x :=
  SMap.get_set_same _ (SMap.rising_of_wf (State.frm_wf h)) n x
theorem State.frm_other {s : State} (h : s.wf = true) {n m : Nat} (hm : m ≠ n) (x : Option Frm) : ((Eff.frm n x).apply s).frm m = s.frm m :=
  SMap.get_set_other _ (SMap.rising_of_wf (State.frm_wf h)) hm x

theorem State.conn_wf {s : State} (h : s.wf = true) : SMap.wf {} s.btp.conns = true := by
  have := State.wf_parts h
  simp only [State.fabricWf, Bool.and_eq_true] at this
  simp only [this]
@[simp] theorem Eff.apply_conn (e : Eff) (s : State) (h : Part.btp ∉ e.parts) (n : Nat) : (e.apply s).conn n = s.conn n := by
  unfold State.conn; rw [Eff.apply_btp e s h]
@[simp] theorem State.conn_same {s : State} (h : s.wf = true) (n : Nat) (x : Conn) : ((Eff.conn n x).apply s).conn n = x :=
  SMap.get_set_same _ (SMap.rising_of_wf (State.conn_wf h)) n x
theorem State.conn_other {s : State} (h : s.wf = true) {n m : Nat} (hm : m ≠ n) (x : Conn) : ((Eff.conn n x).apply s).conn m = s.conn m :=
  SMap.get_set_other _ (SMap.rising_of_wf (State.conn_wf h)) hm x

theorem State.req_wf {s : State} (h : s.wf = true) : SMap.wf none s.btp.reqs = true := by
  have := State.wf_parts h
  simp only [State.fabricWf, Bool.and_eq_true] at this
  simp only [this]
@[simp] theorem Eff.apply_req (e : Eff) (s : State) (h : Part.btp ∉ e.parts) (n : Nat) : (e.apply s).req n = s.req n := by
  unfold State.req; rw [Eff.apply_btp e s h]
@[simp] theorem State.req_same {s : State} (h : s.wf = true) (n : Nat) (x : Option Req) : ((Eff.req n x).apply s).req n = x :=
  SMap.get_set_same _ (SMap.rising_of_wf (State.req_wf h)) n x
theorem State.req_other {s : State} (h : s.wf = true) {n m : Nat} (hm : m ≠ n) (x : Option Req) : ((Eff.req n x).apply s).req m = s.req m :=
  SMap.get_set_other _ (SMap.rising_of_wf (State.req_wf h)) hm x

end Sys2Proof.Machine
end

