-- ==== Sys2Proof/Laws/Exec.lean ====
section
/-! SUPPORT. What every command has in common: it answers the state that a program of primitive updates leaves, so it stops nowhere and leaves the queue. -/
namespace Sys2Proof.Machine
open Sys2Proof

/-- Every command's meaning is a program of primitive updates. -/
theorem exec_run (c : Instr) (s : State) : ∃ p : Prog, exec c s = .next (p.run s) := by
  cases c <;> exact ⟨_, rfl⟩

/-- Every program leaves the queue of waiting commands. -/
theorem Prog.run_pending (p : Prog) (s : State) : (p.run s).pending = s.pending :=
  Prog.run_keeps (I := fun t => t.pending = s.pending) (fun e t ht => by rw [Eff.apply_same e .pending (by cases e <;> simp) t]; exact ht) p s rfl

end Sys2Proof.Machine
end

