-- ==== Sys2Proof/Laws/Ops.lean ====
section
/-! SUPPORT. One lemma for each shared operation of `Machine/Ops.lean`: what it leaves, and which parts of the state it can write. -/
namespace Sys2Proof.Machine
open Sys2Proof

/-! ### What they leave -/

@[simp] theorem wr_run (f : Fld) (ix : List Nat) (v : Nat) (s : State) : (wr f ix v).run s = (Eff.reg f ix v).apply s := rfl
@[simp] theorem count_run (f : Fld) (ix : List Nat) (n : Nat) (s : State) : (count f ix n).run s = (Eff.reg f ix (stopInc f.w (s.r f ix) n)).apply s := rfl
@[simp] theorem tally_run (f : Fld) (ix : List Nat) (n : Nat) (s : State) : (tally f ix n).run s = (Eff.reg f ix ((s.r f ix + n) % 2 ^ f.w)).apply s := rfl
@[simp] theorem send_run (m : Msg) (s : State) : (send m).run s = (Eff.send m).apply s := rfl
@[simp] theorem msix_run (v : Nat) (s : State) : (msix v).run s = if s.hostUp then (Eff.send (.msix v)).apply s else s := by
  by_cases h : s.hostUp = true <;> simp [msix, Prog.when, h]
@[simp] theorem fresh_run (f : Nat → Prog) (s : State) : (fresh f).run s = (f s.nextId).run (Eff.nextId.apply s) := rfl

/-- The record as the writing unit stamps it (R490, R494). -/
def State.stamp (s : State) (r : LogRec) : LogRec :=
  { r with rid := if rateLimited r.cause then 0 else s.nextRid r.src, time := s.timeOf r.src }

/-- A record that no rate limit holds is numbered and goes on the wire. -/
theorem log_run (r : LogRec) (s : State) (h : rateLimited r.cause = false) :
    (log r).run s = (Eff.wire (s.log.wire ++ [s.stamp r])).apply ((Eff.num r.src (SMap.get 0 s.log.nums r.src + 1)).apply s) := by
  simp [log, State.stamp, h]

/-- A record of a rate-limited cause goes on the wire without a number. -/
theorem log_run_limited (r : LogRec) (s : State) (h : rateLimited r.cause = true) :
    (log r).run s = (Eff.wire (s.log.wire ++ [s.stamp r])).apply s := by
  simp [log, State.stamp, h]

/-- A record goes on the wire behind those under way. -/
@[simp] theorem log_wire (r : LogRec) (s : State) : ((log r).run s).log.wire = s.log.wire ++ [s.stamp r] := by
  by_cases h : rateLimited r.cause = true
  · rw [log_run_limited r s h]; rfl
  · rw [log_run r s (by simpa using h)]; rfl

/-- A fault bit takes its value. -/
theorem setFault_r {s : State} (hs : s.wf = true) (f : Fld) (b : Bool) (hw : 1 ≤ f.w) : ((setFault f b).run s).r f [] = b2n b := by
  have hb : b2n b % 2 ^ f.w = b2n b := Nat.mod_eq_of_lt (by
    have : 2 ^ 1 ≤ 2 ^ f.w := Nat.pow_le_pow_right (by decide) hw
    cases b <;> simp [b2n] <;> omega)
  by_cases h : s.r f [] = b2n b
  · simp [setFault, h, Prog.when]
  · simp [setFault, h, Prog.when, hs, hb]

/-! ### Which parts they write -/

theorem Prog.within_mono {l m : List Part} (h : ∀ q ∈ l, q ∈ m) : ∀ {p : Prog}, p.Within l → p.Within m
  | .skip, _ => trivial
  | .eff _, hp => fun q hq => h q (hp q hq)
  | .seq _ _, hp => ⟨Prog.within_mono h hp.1, Prog.within_mono h hp.2⟩
  | .get _, hp => fun s => Prog.within_mono h (hp s)

/-- A program that writes only certain parts keeps all others. -/
theorem Prog.within_keeps {l : List Part} {p : Prog} (h : p.Within l) (s : State) : s.keeps (p.run s) l :=
  fun _ hq => Prog.run_same hq p h s

theorem within_wr (f : Fld) (ix : List Nat) (v : Nat) : (wr f ix v).Within [.regs] := by intro q hq; exact hq
theorem within_count (f : Fld) (ix : List Nat) (n : Nat) : (count f ix n).Within [.regs] := by intro s q hq; exact hq
theorem within_tally (f : Fld) (ix : List Nat) (n : Nat) : (tally f ix n).Within [.regs] := by intro s q hq; exact hq
theorem within_send (m : Msg) : (send m).Within [.sent] := by intro q hq; exact hq
theorem within_msix (v : Nat) : (msix v).Within [.sent] := by
  intro s
  exact Prog.only_when (by intro q hq; exact hq)

theorem within_log (r : LogRec) : (log r).Within [.log] := by
  intro s
  by_cases h : rateLimited r.cause = true
  · simp only [h, if_true]; intro q hq; exact hq
  · simp only [h]
    exact ⟨fun q hq => hq, fun q hq => hq⟩

theorem within_setFault (f : Fld) (b : Bool) : (setFault f b).Within [.regs, .sent] := by
  intro s
  refine Prog.only_when ⟨?_, fun t => ⟨?_, ?_⟩⟩ <;> intro q hq <;> simp at hq ⊢ <;> simp [hq]

theorem within_powerCycle : powerCycle.Within [.regs, .sent, .pins] := by
  intro s
  refine Prog.only_when ⟨?_, ?_, ?_, ?_⟩
  · intro q hq; simp at hq ⊢; simp [hq]
  · intro q hq; simp at hq ⊢; simp [hq]
  · intro q hq; simp at hq ⊢; simp [hq]
  · exact Prog.within_mono (by intro q hq; simp at hq ⊢; rcases hq with h | h <;> simp [h]) (within_setFault _ _)

theorem within_health (o k m : Nat) : (health o k m).Within [.regs, .log] := by
  have hm : ∀ {p : Prog}, p.Within [.log] → p.Within [.regs, .log] := Prog.within_mono (by intro q hq; simp at hq ⊢; simp [hq])
  intro s
  exact ⟨by intro q hq; simp at hq ⊢; simp [hq],
    Prog.only_when ⟨by intro q hq; simp at hq ⊢; simp [hq], hm (within_log _)⟩,
    Prog.only_when ⟨by intro q hq; simp at hq ⊢; simp [hq], hm (within_log _)⟩⟩

end Sys2Proof.Machine
end

