-- ==== Sys2Proof/WellFormed.lean ====
section
/-! DEFINITION. Well-formed commands: every operand lies in the range that the spec gives what it numbers. A command that is not well-formed names nothing in the switch. -/
set_option linter.unusedVariables false
namespace Sys2Proof
open Sys2Proof.Machine

/-- A Brim or compute die, 0 to 7 (R22). -/
def okDie (d : Nat) : Bool := decide (d < 8)
/-- A port number (R439). -/
def okPort (p : Nat) : Bool := decide (p < 512)
/-- A partition (R465). -/
def okPart (p : Nat) : Bool := decide (p < 16)
/-- A CTX_ID or PROG_ID (R196, R210). -/
def okCtx (c : Nat) : Bool := decide (c < 4096)
/-- An engine of the switch. -/
def okEng (e : Nat) : Bool := decide (e < 512)
/-- A cluster of the switch. -/
def okCluster (c : Nat) : Bool := decide (c < 128)
/-- A connection ID or queue pair (R63, R88). -/
def okConn (c : Nat) : Bool := decide (c < 65536)
/-- A queue pair number (R88). -/
def okQp (q : Nat) : Bool := decide (q < 16384)
/-- An agent of the Hitch (R165). -/
def okAgent (n : Nat) : Bool := decide (n < 32)
/-- A knot (R343). -/
def okKnot (n : Nat) : Bool := decide (n < 65536)
/-- A COLL_ID (R307). -/
def okColl (n : Nat) : Bool := decide (n < 4096)
/-- An EXT_ID (R100). -/
def okExt (e : Nat) : Bool := decide (e < 2 ^ 20)
/-- A page of the fabric address space, which has 52 bits. -/
def okPage (p : Nat) : Bool := decide (p < 2 ^ 31)
/-- A line of the fabric address space. -/
def okLine (l : Nat) : Bool := decide (l ≤ 2 ^ 46)
/-- A tray (R118). -/
def okTray (t : Nat) : Bool := decide (t < 64)
/-- A mailbox or program slot (R112, R212). -/
def okSlot (k : Nat) : Bool := decide (k < 8)
/-- A Cleat update set: the host set or that of a view (R376). -/
def okSet (k : Nat) : Bool := decide (k < 17)
/-- A die-to-die link index (R30). -/
def okD2d (n : Nat) : Bool := decide (n < 19)
/-- A die with a temperature sensor (R547). -/
def okSensorDie (d : Nat) : Bool := decide (d < 25)
/-- An HBM stack. -/
def okStack (k : Nat) : Bool := decide (k < 6)
/-- A SOURCE of Logline records (R490). -/
def okSource (k : Nat) : Bool := decide (k ≤ 2) || decide (k = 0x10) || (decide (0x20 ≤ k) && decide (k < 0x28)) || (decide (0x40 ≤ k) && decide (k < 0x48))
/-- An access path: PF0, four management sessions, or a partition view. -/
def okPath (k : Nat) : Bool := decide (k < 5) || (decide (8 ≤ k) && decide (k < 24))
/-- A manager key (R554). -/
def okManager (i : Nat) : Bool := decide (i < 4)
/-- An LC_STATE (R482). -/
def okLc (k : Nat) : Bool := decide (k < 4)
/-- A requester of the attestation responder: host port, I3C, or the DOE mailbox of a port (R484). -/
def okRequester (q : Nat) : Bool := decide (q < 514)
/-- A sequence ordered set: block type and data of 8 bits, O code of 4 (R456). -/
def okFence (b : FenceSet) : Bool := decide (b.type < 256) && decide (b.o < 16) && decide (b.d1 < 256) && decide (b.d2 < 256) && decide (b.d3 < 256)
/-- A 4-bit number. -/
def okNibble (v : Nat) : Bool := decide (v < 16)
/-- An 8-bit number. -/
def okByte (v : Nat) : Bool := decide (v < 256)
/-- A UDP port number. -/
def okPort16 (v : Nat) : Bool := decide (v < 65536)
/-- A table tag (R367). -/
def okTag (v : Nat) : Bool := decide (v < 65536)
/-- A 24-bit PSN of RoCEv2 (R89). -/
def okPsn24 (v : Nat) : Bool := decide (v < 2 ^ 24)
/-- A 32-bit number. -/
def ok32 (v : Nat) : Bool := decide (v < 2 ^ 32)
/-- A 64-bit number. -/
def okWord (v : Nat) : Bool := decide (v < 2 ^ 64)
/-- Bytes that a packet, a line or an image carries: at most 16 MiB. -/
def okBytes (bs : List Byte) : Bool := decide (bs.length ≤ 2 ^ 24)
/-- Errors of the 18 shadow counters (R37). -/
def okErrs (l : List Int) : Bool := decide (l.length ≤ 18)
/-- Readings of the 19 rails (R546). -/
def okRails (l : List Nat) : Bool := decide (l.length ≤ 19)
/-- Values of at most 16 lanes. -/
def okLanes (l : List Nat) : Bool := decide (l.length ≤ 16)
/-- A block that exists (R531, R534). -/
def okBlock : Block → Bool
  | .brim d | .spl d => okDie d
  | .view p => okPart p
  | _ => true
/-- A tray device (R117): a DRAM or a flash tray. -/
def okDev : Option TrayDev → Bool
  | none => true
  | some x => decide (x.kind < 2)
/-- What boot finds (R536): bit maps of 8 compute dies, 8 Brim dies and 6 stacks, and at most one epoch for each partition. -/
def okBoot (f : BootFacts) : Bool := decide (f.compute < 256) && decide (f.brims < 256) && decide (f.hbms < 64) && decide (f.epochs.length ≤ 16)
/-- A slot's security version has 8 bits. -/
def okSlotRead (x : SlotRead) : Bool := decide (x.svn < 256)
/-- A sensor that exists (R539). -/
def okSensor : SensorMsg → Bool
  | .rail i => okD2d i
  | .temp d => okSensorDie d
  | _ => true
/-- An access of 4 or 8 bytes or less, of a 32-bit offset. -/
def okBar : BarOp → Bool
  | .read off _ => ok32 off
  | .write off _ v => ok32 off && okWord v
/-- A frame's VLAN ID has 12 bits and its DSCP 6. -/
def okHdr (h : FrameHdr) : Bool := h.vlan.all (fun v => decide (v < 4096)) && h.dscp.all (fun v => decide (v < 64))
/-- The header of an RDMA WRITE (R89). -/
def okSeg : WriteSeg → Bool
  | .first rkey va len => ok32 rkey && okWord va && ok32 len
  | .next => true
/-- A shadow run of what exists. -/
def okRun : ShadowRun → Bool
  | .item _ => true
  | .granule g _ => okColl g
  | .mma e o => okEng e && okEng o
/-- A mirrored domain whose register values belong to fields (R508). -/
def okDomain (d : Domain) : Bool := decide (d.seq < 2 ^ 64)

/-- Every operand of a command is in range.
[Marks: DESIGN CHOICE, log entry 6.] -/
def Instr.wf (i : Instr) : Bool :=
  match i with
  | .registerWrite path op => okPath path && okBar op
  | .commitGo b => okBlock b
  | .commitDiscard b => okBlock b
  | .counterClear b => okBlock b
  | .timeBroadcast errs => okErrs errs
  | .ppsFirstEdge f => okBoot f
  | .ppsAlignTimeout f => okBoot f
  | .ppsEdge => true
  | .ppsHoldoverTimeout => true
  | .ppsOutRise => true
  | .ppsOutFall => true
  | .d2dCrcError n _ => okD2d n
  | .d2dRetrainDone n _ => okD2d n
  | .refclk156Lost => true
  | .refclk100Lost => true
  | .engPllLockLost d => okDie d
  | .corePllLockLost die => die.all okDie
  | .powerSample _ rails => okRails rails
  | .governorWindow => true
  | .issueCreditRefill => true
  | .tempReport d _ => okSensorDie d
  | .thermalTrip d => okSensorDie d
  | .engRailUndervolt n => okDie n
  | .powerLoss _ => true
  | .powerOnBoot _ _ slotId _ _ a b => okNibble slotId && okSlotRead a && okSlotRead b
  | .modReset => true
  | .recoveryImageUpdate a b => okSlotRead a && okSlotRead b
  | .hostPerst _ => true
  | .crownResetSwitch => true
  | .switchReset f => okBoot f
  | .fenceHoldExpiry p => okPort p
  | .pldmGetTid => true
  | .pldmGetPldmTypes => true
  | .pldmGetPldmCommands typ => okByte typ
  | .pldmGetPldmVersion typ => okByte typ
  | .pldmSensorRead m => okSensor m
  | .pldmFirmwareUpdate _ => true
  | .activateFirmware => true
  | .preparePowerOff => true
  | .spdmGetVersion q => okRequester q
  | .spdmGetCapabilities q ver => okRequester q && okByte ver
  | .spdmNegotiateAlgorithms q _ => okRequester q
  | .spdmGetDigests q => okRequester q
  | .spdmGetCertificate q slot _ _ => okRequester q && okByte slot
  | .spdmChallenge q slot _ => okRequester q && okByte slot
  | .spdmGetMeasurements q index _ _ => okRequester q && okByte index
  | .spdmKeyExchange q slot => okRequester q && okByte slot
  | .spdmFinish q _ _ => okRequester q
  | .spdmEndSession q _ => okRequester q
  | .spdmPskExchange q nonce => okRequester q && decide (nonce.length = 32)
  | .ideKeyProg p _ => okPort p
  | .mgmtMessage key _ op => okManager key && okBar op
  | .loglineRecord src => okSource src
  | .logExportDatagram _ _ => true
  | .logSampleFree _ => true
  | .ctxWatchdogExpiry c => okCtx c
  | .engineWatchdogExpiry e => okEng e
  | .partitionWatchdogExpiry p => okPart p
  | .switchWatchdogExpiry => true
  | .contextResetTimeout c => okCtx c
  | .engineResetTimeout e => okEng e
  | .fenceOverrun p => okPort p
  | .bootWatchdogExpiry => true
  | .mirrorLinkUp => true
  | .mirrorLinkDown _ => true
  | .mirrorAckTimeout _ => true
  | .mirrorOctetLost => true
  | .mirrorFrameReceive _ _ _ => true
  | .mirrorReplayTimer => true
  | .mirrorUpdateAck _ => true
  | .resyncComplete held => held.all okDomain
  | .mirrorAdopt => true
  | .mirrorAdoptComplete copy => copy.all okDomain
  | .mirrorClearLost => true
  | .healthDecay => true
  | .engFenceCommand => true
  | .shadowCompare which _ => okRun which
  | .mmaShadowSkip die => okDie die
  | .btpPacketReceive die port udpPort _ _ _ bytes => okDie die && okPort port && okPort16 udpPort && okBytes bytes
  | .btpAck c epoch psn ackPsn sack => okConn c && okPort16 epoch && ok32 psn && ok32 ackPsn && sack.all okWord
  | .connOpen _ => true
  | .connClose _ => true
  | .load _ _ far => okBytes far
  | .store _ => true
  | .atomic _ _ => true
  | .trigger _ => true
  | .bulkRead _ _ far => okBytes far
  | .bulkWriteSegment _ => true
  | .nearOp _ _ _ _ far => match far with | .data bs => okBytes bs | _ => true
  | .svcKvPut _ => true
  | .svcKvGet _ => true
  | .svcKvDel _ => true
  | .svcPsPush _ => true
  | .svcPsPull _ => true
  | .btpResponseReceive _ => true
  | .btpRetransmitTimer c psn => okConn c && ok32 psn
  | .btpAckTimer c => okConn c
  | .btpRequestTimeout _ => true
  | .connClosingTimeout c => okConn c
  | .ecnRateInterval _ n => okConn n
  | .routeDrainExpiry => true
  | .gatewayGatherTimeout _ => true
  | .forwardedRequest _ hops => okByte hops
  | .roceRdmaWrite n port psn seg _ _ data => okQp n && okPort port && okPsn24 psn && okSeg seg && okBytes data
  | .roceRdmaReadRequest n port psn rkey va len _ _ => okQp n && okPort port && okPsn24 psn && ok32 rkey && okWord va && ok32 len
  | .roceUnsupportedRequest n port psn _ _ => okQp n && okPort port && okPsn24 psn
  | .roceAckReceive n port psn _ _ => okQp n && okPort port && okPsn24 psn
  | .roceCnpReceive n port _ => okQp n && okPort port
  | .mboxExtAdd slot => okSlot slot
  | .mboxExtRevoke slot => okSlot slot
  | .mboxExtRelease slot => okSlot slot
  | .mboxExtQuery slot => okSlot slot
  | .mboxExtSetPolicy slot => okSlot slot
  | .mboxExtRoute slot => okSlot slot
  | .mboxPageClear slot => okSlot slot
  | .mboxTrayAttach slot dev => okSlot slot && okDev dev
  | .mboxTrayDetach slot => okSlot slot
  | .mboxStripeSetDefine slot => okSlot slot
  | .mboxStripeSetRebuild slot => okSlot slot
  | .mboxConnCreate slot => okSlot slot
  | .mboxConnModify slot => okSlot slot
  | .mboxConnDestroy slot => okSlot slot
  | .mboxQpCreate slot => okSlot slot
  | .mboxQpDestroy slot => okSlot slot
  | .mboxReservedOpcode slot => okSlot slot
  | .extentAddingComplete e => okExt e
  | .extentDrainTimeout e => okExt e
  | .extentReleaseComplete e => okExt e
  | .extentRecoveryComplete e maps => okExt e && maps.all (fun m : Nat × MapSource => okTray m.1)
  | .placementWindowExpiry => true
  | .pageMigrationStart p _ => okPage p
  | .pageMigrationCopyDone p => okPage p
  | .pageMigrationVerifyDone p _ => okPage p
  | .prefetchDeadline _ => true
  | .trayLost t => okTray t
  | .rebuildComplete k => okByte k
  | .trayCompletion t p e => okTray t && okPage p && okExt e
  | .demotionAppendComplete p _ => okPage p
  | .journalAppendComplete t => okTray t
  | .journalAppendFailed t => okTray t
  | .journalPartnerAck t => okTray t
  | .journalAckTimeout t => okTray t
  | .checkpointComplete t => okTray t
  | .mapPageReadComplete t _ _ _ => okTray t
  | .gcCopyComplete t _ => okTray t
  | .gcVerifyComplete t _ => okTray t
  | .zoneResetComplete t _ => okTray t
  | .zoneReadOnly t _ => okTray t
  | .zoneOffline t _ => okTray t
  | .cxlRdcurr port key => okPort port && okWord key
  | .cxlRdshared port key => okPort port && okWord key
  | .cxlRdany port key => okPort port && okWord key
  | .cxlRdown port key => okPort port && okWord key
  | .cxlRdownnodata port key => okPort port && okWord key
  | .cxlItomwr port key data _ => okPort port && okWord key && okBytes data
  | .cxlWrcur port key data _ => okPort port && okWord key && okBytes data
  | .cxlWrinv port key data _ => okPort port && okWord key && okBytes data
  | .cxlClflush port key => okPort port && okWord key
  | .cxlCleanevict port key => okPort port && okWord key
  | .cxlCleanevictnodata port key => okPort port && okWord key
  | .cxlDirtyevict port key data _ => okPort port && okWord key && okBytes data
  | .cxlCacheflushed port => okPort port
  | .cxlSnoopResponse n l _ data _ => okAgent n && okLine l && okBytes data
  | .cxlMemrd port key _ => okPort port && okWord key
  | .cxlMemrddata port key => okPort port && okWord key
  | .cxlMemwr port key data _ => okPort port && okWord key && okBytes data
  | .cxlMemclnevct port key => okPort port && okWord key
  | .cxlBiconflict port l => okPort port && okLine l
  | .cxlMemspecrd port key => okPort port && okWord key
  | .cxlBirsp n l _ => okAgent n && okLine l
  | .cxlUnlistedMessage port => okPort port
  | .snoopTimeout n l => okAgent n && okLine l
  | .livenessProbePeriod => true
  | .agentLinkDown n => okAgent n
  | .agentLossWalkComplete n => okAgent n
  | .hitchPoisonClear => true
  | .fullerAtomicHoldExpiry _ _ => true
  | .fullerForwardHoldExpiry _ => true
  | .fullerMergedResponse _ => true
  | .progLoad view slot _ far farBind => view.all okPart && okSlot slot && okBytes far && okBytes farBind
  | .progUnload view slot => view.all okPart && okSlot slot
  | .progPlace view slot => view.all okPart && okSlot slot
  | .ctxStop view slot => view.all okPart && okSlot slot
  | .ctxResume view slot => view.all okPart && okSlot slot
  | .ctxReset view slot => view.all okPart && okSlot slot
  | .ctxFree view slot => view.all okPart && okSlot slot
  | .svcEnable view slot => view.all okPart && okSlot slot
  | .svcDisable view slot => view.all okPart && okSlot slot
  | .svcDisableTimeout p => okPart p
  | .progReservedOpcode view slot => view.all okPart && okSlot slot
  | .windowZeroingComplete c => okCtx c
  | .iSAlu c => okCtx c
  | .iSCmp c => okCtx c
  | .iSLi c => okCtx c
  | .iSGetl c => okCtx c
  | .iSSetl c => okCtx c
  | .iBr c => okCtx c
  | .iBc c => okCtx c
  | .iBp c => okCtx c
  | .iBrL c => okCtx c
  | .iCall c => okCtx c
  | .iJr c => okCtx c
  | .iHalt c => okCtx c
  | .iCapRd c => okCtx c
  | .iStRd c => okCtx c
  | .iStClr c => okCtx c
  | .iTimeRd c => okCtx c
  | .iVIalu c => okCtx c
  | .iVIcmp c => okCtx c
  | .iVMov c => okCtx c
  | .iPOp c => okCtx c
  | .iPCnt c => okCtx c
  | .iVFalu c => okCtx c
  | .iVFfma c => okCtx c
  | .iVFcmp c => okCtx c
  | .iVFlong c => okCtx c
  | .iMma c _ => okCtx c
  | .iTileZero c => okCtx c
  | .iTileRdc c _ => okCtx c
  | .iTileWrc c => okCtx c
  | .iRedV c => okCtx c
  | .iRedTopk c => okCtx c
  | .iRedAdd c _ => okCtx c
  | .iGfGather c => okCtx c
  | .iGfFilter c _ => okCtx c
  | .iLdS c _ => okCtx c
  | .iStS c => okCtx c
  | .iLdV c _ => okCtx c
  | .iStV c => okCtx c
  | .iLdVx c _ => okCtx c
  | .iStVx c => okCtx c
  | .iDma c _ => okCtx c
  | .iPfPage c => okCtx c
  | .iFabLd c => okCtx c
  | .iFabSt c => okCtx c
  | .iFabAtom c => okCtx c
  | .iFabAtomu c => okCtx c
  | .iFabTrig c => okCtx c
  | .iFabBld c => okCtx c
  | .iFabBst c _ => okCtx c
  | .iFabNear c _ => okCtx c
  | .iKnotBind c => okCtx c
  | .iKnotSig c => okCtx c
  | .iKnotArr c => okCtx c
  | .iKnotWait c => okCtx c
  | .iKnotTest c => okCtx c
  | .iCleatLook c _ _ => okCtx c
  | .iChkCfg c _ => okCtx c
  | .iChkUpd c => okCtx c
  | .iChkApp c => okCtx c
  | .iChkFin c => okCtx c
  | .iChkRd c => okCtx c
  | .iChkWr c => okCtx c
  | .iCdcCard c _ => okCtx c
  | .iCdcEncEncode c _ => okCtx c
  | .iCdcEncFormat c _ => okCtx c
  | .iCdcDec c _ => okCtx c
  | .iCvt c => okCtx c
  | .iVPack c => okCtx c
  | .iMxQ c => okCtx c
  | .iMxDq c => okCtx c
  | .fabOpComplete _ => true
  | .fabOpTimeout _ => true
  | .dmaComplete _ _ _ _ far => okBytes far
  | .gatherFilterComplete _ _ => true
  | .checkValueComplete _ _ => true
  | .codecRequestComplete _ _ _ _ far => okBytes far
  | .codecBlockEncoded _ _ _ far => okBytes far
  | .knotWaitDeadline _ => true
  | .knotSignalApply _ => true
  | .knotArrivalApply _ => true
  | .knotWaitArrive _ => true
  | .knotStageRelease _ => true
  | .knotRearm n => okKnot n
  | .knotClrFail n => okKnot n
  | .knotQueuedLaunchStart part prog => okPart part && okCtx prog
  | .collSeg _ => true
  | .collGenerationTimeout n => okColl n
  | .collHoldExpiry n => okColl n
  | .collCloseComplete n => okColl n
  | .collResultWriteComplete n => okColl n
  | .attnReq _ => true
  | .retrReq _ => true
  | .workItemDispatch part _ => okPart part
  | .workItemComplete _ _ _ far _ => okBytes far
  | .cleatInsert set => okSet set
  | .cleatRemove set => okSet set
  | .cleatModify set => okSet set
  | .cleatFlushTag set => okSet set
  | .cleatUpdateComplete set => okSet set
  | .cleatEntryRestore tag lo _ => okTag tag && okWord lo
  | .clusterCleatFill cluster tag key => okCluster cluster && okTag tag && okWord key
  | .frameReceive port hdr => okPort port && okHdr hdr
  | .pauseFrameReceive port => okPort port
  | .frameLastCellWritten _ _ _ => true
  | .egressSelection port _ => okPort port
  | .respQueueHeadChange port => okPort port
  | .portFlushComplete port => okPort port
  | .laneSignalDetect p _ => okPort p
  | .portBringupStepDone p => okPort p
  | .portBringupTimeout p => okPort p
  | .portBringupRetry p => okPort p
  | .keyExchangeFrame p _ => okPort p
  | .keyExchangeTimeout p => okPort p
  | .macsecRekey p => okPort p
  | .portLinkDown p => okPort p
  | .linkErrorWindow p syms _ margins => okPort p && okLanes syms && okLanes margins
  | .reeqAdaptExpiry p => okPort p
  | .reeqCheckDone p _ => okPort p
  | .pcieLinkTrained p _ _ => okPort p
  | .pcieTrainingTimeout p => okPort p
  | .pcieMarginCheck p margins => okPort p && okLanes margins
  | .pciePeriodicRetrain p => okPort p
  | .pcieRecoveryComplete p => okPort p
  | .pcieRecoveryTimeout p => okPort p
  | .ideCheckFail p => okPort p
  | .hbmRetrain stack margin => okStack stack && okByte margin
  | .fenceOrderedSetReceive p b => okPort p && okFence b
  | .partitionCreate p => okPart p
  | .partitionFence p => okPart p
  | .partitionRemove p => okPart p
  | .fenceDrainExpiry p => okPart p
  | .keyStateRecordDurable p => okPart p
  | .partitionScrubComplete p => okPart p
  | .lcTransition lc _ => okLc lc
  | .debugUnlock _ => true
  | .debugAccess => true
  | .fenceOrderedSetEnd p => okPort p
  | .livenessProbeTimeout n => okAgent n
  | .remoteFaultReceive p _ => okPort p
  | .refclkRestored _ => true
  | .mirrorOctetReturn => true

end Sys2Proof
end

