-- ==== Sys2Proof/Tests/Slice0.lean ====
section
/-! SUPPORT. The model's own tests: an ill-formed command for each check of WellFormed, worked numbers of the spec, and for every statement with hypotheses a concrete state and operands that meet them, clause by clause. -/
namespace Sys2Proof.Tests
open Sys2Proof Sys2Proof.Machine
set_option Elab.async false

/-- Registers set in a state. -/
def put (s : State) (l : List (Fld × List Nat × Nat)) : State := l.foldl (fun s e => (Eff.reg e.1 e.2.1 e.2.2).apply s) s

/-- The state a command answers. -/
def after (o : Host.Outcome State Fault Refusal) : State := match o with | .next t => t | _ => {}

/-- A switch at the ready point with every die online: what the boot leaves in the registers a test reads. -/
def up : State := put { time := { aligned := true, edge := some 0 }, boot := { meas := [(2, 77)], hbm := true } } [
  (F.CROWN_BOOT_STATUS.READY, [], 1), (F.CROWN_BOOT_STATUS.PHASE, [], 8), (F.CROWN_BOOT_STATUS.READY_BLOCKS, [], 2047),
  (F.CROWN_DIE_STATUS.COMPUTE_ONLINE, [], 255), (F.CROWN_DIE_STATUS.BRIM_ONLINE, [], 255), (F.CROWN_DIE_STATUS.HBM_ONLINE, [], 63), (F.CROWN_DIE_STATUS.HOST_LINK_UP, [], 1),
  (F.CROWN_CLK_STATUS.REF156_PRESENT, [], 1), (F.CROWN_CLK_STATUS.REF100_PRESENT, [], 1), (F.CROWN_CLK_STATUS.ENG_PLL_LOCK, [], 255), (F.CROWN_CLK_STATUS.FELT_PLL_LOCK, [], 1),
  (F.CROWN_CLK_STATUS.BRIM_PLL_LOCK, [], 255), (F.CROWN_CLK_STATUS.CROWN_PLL_LOCK, [], 1), (F.CROWN_LC_STATUS.LC_STATE, [], 1),
  (F.SPL_ENG_AVAIL.AVAIL, [0], 2 ^ 64 - 1), (F.SPL_ENG_AVAIL.AVAIL, [1], 2 ^ 64 - 1), (F.SPL_ENG_AVAIL.AVAIL, [2], 2 ^ 64 - 1), (F.SPL_ENG_AVAIL.AVAIL, [7], 2 ^ 64 - 1)]

theorem test_up_is_sound : up.wf = true ∧ up.canReset = true ∧ up.serves = true := by decide +kernel

/-! ### The machine as a whole, registers and commits -/

theorem witness_StepRunsFrontCommand : ({ pending := [.ppsEdge, .issueCreditRefill] } : State).pending = .ppsEdge :: [.issueCreditRefill] := rfl

theorem witness_IdleStepAdvancesTime_powered : up.pending = [] ∧ up.pins.pwrgdAux = true ∧ up.pins.pwrgdMain = true ∧ up.time.shadows[17]? = some { val := 0, hold := 0 } := by decide +kernel
theorem witness_IdleStepAdvancesTime_hold : ({ up with time := { up.time with shadows := [{ val := 9, hold := 2 }] } } : State).time.shadows[0]? = some { val := 9, hold := 2 } := by decide +kernel
theorem witness_IdleStepAdvancesTime_unpowered : ({ up with pins := { up.pins with pwrgdMain := false } } : State).pins.pwrgdMain = false := by decide +kernel

theorem witness_StepKeepsSoundState : State.reset.wf = true ∧ ∃ t, step State.reset = .next t := ⟨by decide +kernel, _, rfl⟩

/-- A state with the lower half of the wide TIME_EPOCH_SEC held. -/
def halfHeld : State := { up with regs := { up.regs with hold := [(pathKey 0 0xb418, 5)] } }

theorem witness_RegisterWrite_fields : up.wf = true ∧ up.hostUp = true := by decide +kernel
theorem witness_RegisterWrite_readOnly : up.place 0 0x20 = some 0x20 ∧ up.badAccess 0x20 4 0x20 = false ∧ wideAt 0x20 = false ∧ (0x20 % 8 = 4 → wideAt (0x20 - 4) = false) ∧
    (∀ e ∈ fieldsAt 0x20, e.1.ty = .ro ∨ e.1.ty = .w1s ∨ e.1.ty = .wo) ∧ fieldsAt 0x20 ≠ [] := by decide +kernel
theorem witness_RegisterWrite_bad : up.place 0 0x28 = some 0x28 ∧ up.badAccess 0x28 2 0x28 = true := by decide +kernel
theorem witness_RegisterWrite_wide : halfHeld.wf = true ∧ halfHeld.hostUp = true ∧ SMap.find halfHeld.regs.hold (pathKey 0 0xb418) = some 5 ∧ 5 < 2 ^ 32 := by decide +kernel
theorem witness_RegisterWrite_latched : let s : State := { up with regs := { up.regs with latch := [(pathKey 0 0xb410, 7)] } }; s.wf = true ∧ s.hostUp = true ∧ SMap.find s.regs.latch (pathKey 0 0xb410) = some 7 := by decide +kernel
theorem witness_RegisterWrite_perst : ({ up with pins := { up.pins with hostPerstN := false } } : State).wf = true ∧ ({ up with pins := { up.pins with hostPerstN := false } } : State).hostUp = false ∧ (put up [(F.CROWN_D2D_STATUS.LOST, [17], 1)]).hostUp = false := by decide +kernel
theorem test_register_write_reserved_lock : (after (execRegisterWrite 0 (.write 0xb400 4 1) up)).r F.TIME_CTRL.PPS_EN [] = 1 ∧ (after (execRegisterWrite 0 (.write 0xb400 4 1) up)).r F.TIME_CTRL.LOCK_NS [] = up.r F.TIME_CTRL.LOCK_NS [] := by decide +kernel

/-- A state with a field of the Fuller's block staged. -/
def fullStaged : State := after (execRegisterWrite 0 (.write 0x1003104 4 0x77) up)

theorem witness_CommitDiscardAndClear_commit : fullStaged.wf = true ∧ fullStaged.reach 0x1000000 = true ∧ fullStaged.taken .full ≠ [] ∧ (∀ e ∈ fullStaged.taken .full, e.1.ty = .rws) := by decide +kernel
theorem witness_CommitDiscardAndClear_discard : fullStaged.reach (blockOff .full) = true ∧ fullStaged.noCommit .full = false ∧ (∀ e ∈ fullStaged.taken .full, fullStaged.r e.1 e.2.1 < 2 ^ e.1.w) := by decide +kernel
/-- A state with counters of every die's transport block at 7. -/
def counted : State := put up [(F.BRIM_BTP_DROP_COUNT.COUNT, [3], 7), (F.BRIM_BTP_DROP_COUNT.COUNT, [4], 7)]
theorem witness_CommitDiscardAndClear_clear : counted.wf = true ∧ counted.reach (blockOff (.brim 3)) = true ∧ F.BRIM_BTP_DROP_COUNT.COUNT ∈ blockCounters (.brim 3) ∧ [3] ∈ counted.listedIx F.BRIM_BTP_DROP_COUNT.COUNT ∧
    (∀ f ∈ blockCounters (.brim 3), ∀ ix ∈ counted.listedIx f, ix.headD 0 = 3 → F.BRIM_BTP_DROP_COUNT.COUNT.key [4] ≠ f.key ix) := by decide +kernel
theorem test_commit_shows_done : (after (execCommitGo .full fullStaged)).r F.FULL_COMMIT.DONE [] = 1 ∧ (after (execCommitGo .full fullStaged)).sent = .msix 3 :: fullStaged.sent := by decide +kernel

/-! ### Time and power -/

/-- A time base with shadows behind, level and ahead. -/
def shadowed : State := { up with time := { up.time with now := 1000, shadows := [{ val := 1000 }, { val := 1004 }, { val := 996 }] } }
theorem witness_BroadcastBringsShadowsToTheCounter : shadowed.time.shadows[1]? = some { val := 1004 } ∧ 1004 ≤ shadowed.time.now + 4 ∧ shadowed.time.shadows[2]? = some { val := 996 } ∧ shadowed.time.now ≤ 996 + 4 := by decide +kernel

/-- A steered time base. -/
def pps (now : Nat) (edge : Option Nat) (fi : Int) (inLock delay : Nat) : State :=
  put { up with time := { up.time with now := now, edge := edge, fi := fi, inLock := inLock } } [(F.TIME_CTRL.PPS_EN, [], 1), (F.TIME_CTRL.DELAY_NS, [], delay)]
theorem witness_PpsEdges_early : (pps 500000006 (some 7) 0 0 0).wf = true ∧ (pps 500000006 (some 7) 0 0 0).r F.TIME_CTRL.PPS_EN [] = 1 ∧ (pps 500000006 (some 7) 0 0 0).time.edge = some 7 ∧
    (pps 500000006 (some 7) 0 0 0).time.now < 7 + 500000000 := by decide +kernel
theorem witness_PpsEdges_accepted : (∀ c, (pps 1000000080 (some 1) (-5) 3 100).time.edge = some c → c + 500000000 ≤ (pps 1000000080 (some 1) (-5) 3 100).time.now) ∧
    (pps 1000000080 (some 1) (-5) 3 100).r F.CROWN_CLK_STATUS.FALLBACK_OSC [] = 0 ∧
    ((pps 1000000080 (some 1) (-5) 3 100).time.now : Int) - (pps 1000000080 (some 1) (-5) 3 100).r F.TIME_CTRL.DELAY_NS [] - (-20) = (1 : Nat) * 1000000000 ∧
    (-3 : Int) = (pps 1000000080 (some 1) (-5) 3 100).time.fi - Int.tdiv (-20) 8 := by
  refine ⟨fun c h => ?_, by decide +kernel, by decide +kernel, by decide +kernel⟩
  have : c = 1 := by have := (by decide +kernel : (pps 1000000080 (some 1) (-5) 3 100).time.edge = some 1); simp_all
  subst this; decide +kernel
theorem test_pps_edge_locks : (after (execPpsEdge (pps 1000000080 (some 1) (-5) 3 100))).r F.TIME_STATUS.STATE [] = 2 ∧ (after (execPpsEdge (pps 1000000080 (some 1) (-5) 3 100))).time.f = 7 := by decide +kernel

/-- Locked, with PPS_OUT on. -/
def locked (now : Nat) : State := put (pps now (some 100) (-5000000) 4 0) [(F.TIME_STATUS.STATE, [], 2), (F.TIME_CTRL.PPS_OUT_EN, [], 1)]
theorem witness_PpsEdges_holdover : (locked 5).wf = true ∧ (locked 5).r F.TIME_STATUS.STATE [] = 2 := by decide +kernel
theorem witness_PpsEdges_rise : (locked 2999999998).r F.TIME_CTRL.PPS_OUT_EN [] = 1 ∧ (locked 2999999998).pins.ppsOut = false ∧ ((locked 2999999998).time.now + 2) % 1000000000 ≤ 4 ∧ ((locked 3000000002).time.now + 2) % 1000000000 ≤ 4 := by decide +kernel
theorem witness_PpsEdges_fall : ({ locked 5 with pins := { up.pins with ppsOut := true } } : State).wf = true ∧ ({ locked 5 with pins := { up.pins with ppsOut := true } } : State).pins.ppsOut = true := by decide +kernel

/-- The end of a window of n readings that sum to sum. -/
def window (n sum l step hyst fl d : Nat) (th : Bool) : State := put { up with power := { sum := sum, n := n } } [(F.PWR_CTRL.GOV_EN, [], 1), (F.PWR_CTRL.LIMIT_W, [], l), (F.PWR_LOOP.STEP_W, [], step),
  (F.PWR_LOOP.HYST_W, [], hyst), (F.PWR_CTRL.DUTY_FLOOR, [], fl), (F.PWR_STATUS.DUTY, [], d), (F.PWR_STATUS.THROTTLE, [], b2n th)]
theorem witness_GovernorHoldsTheLimit_over : (window 10 27100000 2700 2 20 8 8 true).wf = true ∧ (window 10 27100000 2700 2 20 8 8 true).power.n = 10 ∧ (window 10 27100000 2700 2 20 8 8 true).r F.PWR_LOOP.STEP_W [] = 2 ∧
    2700 * 1000 * 10 < 27100000 ∧ 27100000 - 2700 * 1000 * 10 ≤ 5 * (2 * 1000 * 10) ∧ ¬ 27100000 - 2700 * 1000 * 10 ≤ 4 * (2 * 1000 * 10) ∧ (window 10 27100000 2700 2 20 8 8 true).r F.PWR_STATUS.DUTY [] = 8 ∧
    (window 10 27100000 2700 2 20 8 8 true).rb F.PWR_STATUS.THROTTLE [] = true := by decide +kernel
theorem witness_GovernorHoldsTheLimit_under : (window 10 26799999 2700 2 20 8 63 false).r F.PWR_CTRL.GOV_EN [] = 1 ∧ (window 10 26799999 2700 2 20 8 63 false).r F.PWR_CTRL.LIMIT_W [] = 2700 ∧
    (window 10 26799999 2700 2 20 8 63 false).r F.PWR_LOOP.HYST_W [] = 20 ∧ (window 10 26799999 2700 2 20 8 63 false).r F.PWR_CTRL.DUTY_FLOOR [] = 8 ∧ 26799999 + 20 * 1000 * 10 < 2700 * 1000 * 10 := by decide +kernel
/-- R546's example: P is 2,710 W against a limit of 2,000 W with DUTY 64 and STEP_W 20: D becomes 28. -/
theorem test_governor_example_first : (after (execGovernorWindow (window 1 2710000 2000 20 20 8 64 false))).r F.PWR_STATUS.DUTY [] = 28 := by decide +kernel
/-- R546's example goes on: P is 2,006.9 W, and D becomes 27. -/
theorem test_governor_example_second : (after (execGovernorWindow (window 10 20069000 2000 20 20 8 28 false))).r F.PWR_STATUS.DUTY [] = 27 := by decide +kernel

theorem witness_TemperatureLimitsAct : State.reset.wf = true ∧ State.reset.throttleAt < 65535 ∧ bit State.reset.power.hot 18 = false ∧ State.reset.warnAt 18 < 65535 ∧ bit State.reset.power.warm 24 = false := by decide +kernel

/-! ### Dies, links, clocks, resets and boot -/

/-- A die-to-die link n after k failed replays, or in retrain. -/
def link (n k : Nat) (retrain : Bool) : State := { up with d2d := { fails := if k = 0 then [] else [(n, k)], retraining := if retrain then [n] else [] } }
theorem witness_DieLink_replay : let s := link 18 15 false; s.wf = true ∧ 18 ∉ s.d2d.retraining ∧ s.r F.CROWN_D2D_STATUS.LOST [18] = 0 ∧ SMap.rising s.d2d.fails = true ∧ SMap.get 0 s.d2d.fails 18 = 15 := by decide +kernel
theorem witness_DieLink_replay_below : let s := link 0 14 false; s.wf = true ∧ 0 ∉ s.d2d.retraining ∧ s.r F.CROWN_D2D_STATUS.LOST [0] = 0 ∧ SMap.get 0 s.d2d.fails 0 = 14 := by decide +kernel
theorem witness_DieLink_retrain : ∀ n ∈ [0, 7, 8, 15, 16, 18], (link n 0 true).wf = true ∧ n < 19 ∧ n ∈ (link n 0 true).d2d.retraining ∧ (link n 0 true).canReset = true := by decide +kernel
theorem test_sixteenth_failure_retrains : (after (execD2dCrcError 18 false (link 18 15 false))).d2d.retraining = [18] ∧ (after (execD2dCrcError 18 false (link 18 14 false))).d2d.retraining = [] := by decide +kernel

theorem witness_ClockAndRailLossesAct : up.wf = true ∧ up.canReset = true ∧ up.r F.CROWN_CLK_STATUS.REF156_PRESENT [] = 1 ∧ up.r F.CROWN_CLK_STATUS.REF100_PRESENT [] = 1 ∧ up.r F.CROWN_CLK_STATUS.FELT_PLL_LOCK [] = 1 ∧
    bit (up.r F.CROWN_CLK_STATUS.ENG_PLL_LOCK []) 7 = true ∧ bit (up.r F.CROWN_DIE_STATUS.COMPUTE_ONLINE []) 7 = true ∧ bit (up.r F.CROWN_CLK_STATUS.BRIM_PLL_LOCK []) 7 = true ∧ bit (up.r F.CROWN_DIE_STATUS.COMPUTE_ONLINE []) 0 = true := by decide +kernel
theorem witness_ClockAndRailLosses_restored : let s := put up [(F.CROWN_CLK_STATUS.REF156_PRESENT, [], 0), (F.CROWN_CLK_STATUS.REF100_PRESENT, [], 0)]; s.wf = true ∧ s.r F.CROWN_CLK_STATUS.REF156_PRESENT [] = 0 ∧ s.r F.CROWN_CLK_STATUS.REF100_PRESENT [] = 0 := by decide +kernel

theorem witness_SwitchResetBegins_watchdog : let s := put up [(F.CROWN_WDT_CTRL.SW_EN, [], 1)]; s.wf = true ∧ s.canReset = true ∧ s.r F.CROWN_WDT_CTRL.SW_EN [] = 1 := by decide +kernel
theorem witness_SwitchResetBegins_record : let s := put up [(F.CROWN_WDT_CTRL.SW_EN, [], 0)]; s.wf = true ∧ s.canReset = true ∧ s.r F.CROWN_WDT_CTRL.SW_EN [] = 0 := by decide +kernel
theorem witness_SwitchResetBegins_fence : let s := put up [(F.CROWN_PART_CTRL.STATE, [15], ptFencing)]; s.wf = true ∧ s.canReset = true ∧ s.partSt 15 = ptFencing ∧ s.pins.thermtripN = true := by decide +kernel

/-- A slot of the boot store that verifies, and one that does not. -/
def goodSlot : SlotRead := { ok := true, svn := 3, digest := 77 }
def badSlot : SlotRead := { ok := false, svn := 3, digest := 78 }
/-- A switch that waits for its first edge, one in recovery, and one in which a switch reset is under way. -/
def waiting : State := put up [(F.CROWN_BOOT_STATUS.READY, [], 0), (F.CROWN_BOOT_STATUS.PHASE, [], 4)]
def waitingFirst : State := { waiting with time := {} }
def inRecovery : State := put State.reset [(F.CROWN_FAULT_STATUS.RECOVERY, [], 1)]
def resetting : State := after (execCrownResetSwitch up)
theorem witness_Boot_powerOn : let s := State.reset; s.wf = true ∧ s.boot.pend = none ∧ s.r F.CROWN_BOOT_STATUS.READY [] = 0 ∧ s.r F.CROWN_BOOT_STATUS.PHASE [] = 0 ∧ s.r F.CROWN_FAULT_STATUS.RECOVERY [] = 0 ∧ s.slotOk goodSlot = true ∧ s.slotOk badSlot = false := by decide +kernel
theorem witness_Boot_recovery : inRecovery.wf = true ∧ inRecovery.boot.pend = none ∧ inRecovery.r F.CROWN_FAULT_STATUS.RECOVERY [] = 1 ∧ inRecovery.slotOk goodSlot = true := by decide +kernel
theorem witness_Boot_firstEdge : waitingFirst.wf = true ∧ waitingFirst.r F.CROWN_CLK_STATUS.REF100_PRESENT [] = 1 ∧ waitingFirst.r F.CROWN_BOOT_STATUS.PHASE [] = 4 ∧ waitingFirst.time.aligned = false := by decide +kernel
theorem witness_Boot_switchReset : resetting.wf = true ∧ resetting.r F.CROWN_CLK_STATUS.REF100_PRESENT [] = 1 ∧ resetting.boot.pend.isSome = true ∧ resetting.r F.CROWN_FAULT_STATUS.PCYCLE [] = 0 ∧ resetting.pins.thermtripN = true ∧
    SMap.get 0 resetting.boot.meas 3 = 0 ∧ SMap.get 0 resetting.boot.meas 4 = 0 := by decide +kernel

theorem witness_PowerAndModule_bootWatchdog : let s := put waiting [(F.CROWN_WDT_CTRL.PWR_EN, [], 1)]; s.wf = true ∧ s.r F.CROWN_BOOT_STATUS.READY [] = 0 ∧ s.r F.CROWN_FAULT_STATUS.RECOVERY [] = 0 ∧ s.r F.CROWN_BOOT_STATUS.PHASE [] ≠ 0 ∧
    s.pins.pcycReqN = true ∧ s.r F.CROWN_WDT_CTRL.PWR_EN [] = 1 := by decide +kernel
theorem witness_PowerAndModule_firmware : let s := put { up with boot := { up.boot with upd := 6 } } [(F.CROWN_WDT_CTRL.PWR_EN, [], 1)]; s.wf = true ∧ s.serves = true ∧ s.boot.upd = 6 ∧ s.r F.CROWN_WDT_CTRL.PWR_EN [] = 1 ∧ s.canReset = true ∧ s.mirror ≠ mirPaired := by decide +kernel

/-! ### The mirrored pair, health, the Logline and management -/

/-- A switch whose mirror link is on the top octets of Brim die 7. -/
def pair (st octs : Nat) (out : List (Nat × Nat × DomUpd)) : State := put { up with mir := { octs := octs, out := out, rx := 4, tx := 9 } } [(F.BRIM_OCTET.MODE, [7, 15], 4), (F.BRIM_OCTET.MODE, [7, 14], 4),
  (F.BRIM_PORT.EN, [7, 60], 1), (F.BRIM_PORT.EN, [7, 56], 1), (F.BRIM_PORT.LINK_STATE, [7, 56], lkUp), (F.BRIM_PORT.LINK_STATE, [7, 60], lkUp), (F.CROWN_MIRROR_CTRL.MIRROR_EN, [], 1), (F.CROWN_MIRROR_STATUS.STATE, [], st),
  (F.CROWN_MIRROR_ACK_SEQ.SEQ, [], 3), (F.CROWN_MIRROR_TX_SEQ.SEQ, [], 5)]
theorem witness_Mirror_linkUp : let s := pair mirOff 0 []; s.wf = true ∧ s.mirrorPort = some 504 ∧ s.boot.pend = none ∧ s.link 504 = lkUp ∧ s.r F.CROWN_MIRROR_CTRL.MIRROR_EN [] = 1 ∧ s.mirror ≠ mirLost ∧ s.mirror ≠ mirAdopting := by decide +kernel
theorem witness_Mirror_linkDown : let s := pair mirPaired 2 [(8, 3, .rows [])]; s.wf = true ∧ s.mirrorPort = some 504 ∧ s.boot.pend = none ∧ 0 < s.mir.octs ∧ s.mirror = mirPaired ∧ s.mir.out ≠ [] ∧ s.mir.octs = 2 := by decide +kernel
theorem witness_Mirror_octetReturn : let s := pair mirPaired 1 []; s.wf = true ∧ s.mirrorPort = some 504 ∧ s.boot.pend = none ∧ s.mir.octs = 1 := by decide +kernel
theorem witness_Mirror_stream : let s := pair mirPaired 1 [(8, 3, .rows []), (9, 4, .rows [])]; s.wf = true ∧ 0 < s.mir.octs ∧ s.boot.pend = none ∧ (4 : Nat) = s.mir.rx ∧ (5 : Nat) ≠ s.mir.rx ∧ s.mirror = mirPaired ∧
    s.r F.CROWN_MIRROR_ACK_SEQ.SEQ [] ≤ 3 ∧ 5 ≤ s.r F.CROWN_MIRROR_TX_SEQ.SEQ [] := by decide +kernel
theorem witness_Mirror_resync : let s := pair mirResync 2 []; s.wf = true ∧ s.mirror = mirResync ∧ s.boot.pend = none := by decide +kernel
theorem witness_Mirror_adopt : (pair mirOff 0 []).wf = true ∧ (pair mirOff 0 []).mirror = mirOff ∧ (pair mirAdopting 2 []).wf = true ∧ (pair mirAdopting 2 []).mirror = mirAdopting ∧ (pair mirAdopting 0 []).mirror = mirAdopting := by decide +kernel
theorem witness_Mirror_clearLost : (pair mirLost 0 []).wf = true ∧ (pair mirLost 0 []).mirror = mirLost ∧ (pair mirLost 1 []).mirror = mirLost := by decide +kernel
theorem test_mirror_link_up_resyncs : (after (execMirrorLinkUp (pair mirOff 0 []))).mirror = mirResync := by decide +kernel

theorem witness_HealthScoresDecay : State.reset.wf = true ∧ ∀ n, State.reset.r F.CROWN_HEALTH.SCORE [n] < 65536 := ⟨by decide +kernel, fun _ => by show 0 < 65536; decide⟩
theorem test_health_decays : (after (execHealthDecay (put up [(F.CROWN_HEALTH.SCORE, [1111], 1), (F.CROWN_HEALTH.SCORE, [5], 6400)]))).r F.CROWN_HEALTH.SCORE [5] = 6300 := by decide +kernel

/-- A record of a source. -/
def rec1 (src cause : Nat) : LogRec := { src := src, cause := cause, sev := 0, obj0 := 4, obj1 := 5, time := 100 }
def wired (c : Nat) : State := { up with log := { wire := [rec1 1 0x740, rec1 3 c, rec1 1 0x741], seq := 40, crown := [rec1 9 0x101] } }
def limited : State := { wired 0x103 with log := { (wired 0x103).log with limits := [(limitKey 0x103 4, { last := some 99, held := 65535 })] } }
theorem witness_Records_arrive : let s := wired 0x9ff; s.wf = true ∧ s.log.wire = [rec1 1 0x740] ++ rec1 3 0x9ff :: [rec1 1 0x741] ∧ (∀ x ∈ [rec1 1 0x740], x.src ≠ (rec1 3 0x9ff).src) ∧ s.heldBack (rec1 3 0x9ff) = false ∧ rateLimited 0x9ff = false := by decide +kernel
theorem witness_Records_held : let s := limited; s.wf = true ∧ s.log.wire = [rec1 1 0x740] ++ rec1 3 0x103 :: [rec1 1 0x741] ∧ s.heldBack (rec1 3 0x103) = true := by decide +kernel

def toExport : State := { up with log := { toExport := [rec1 1 0x740, rec1 3 0x741] } }
theorem witness_Export_datagram : toExport.wf = true ∧ toExport.log.toExport.take 16 = rec1 1 0x740 :: [rec1 3 0x741] ∧ toExport.log.toExport.take 1 = rec1 1 0x740 :: [] := by decide +kernel
def sample (id : Nat) : Sample := { id := id, rid := 1, time := 2, ctx := 0, level := 1, part := 0, eng := 0, states := [], ctxs := [], scratch := [] }
theorem witness_Export_sample : let s : State := { up with log := { store := [sample 5, sample 6], ovf := [sample 9] } }; s.wf = true ∧ sample 9 ∈ s.log.store ++ s.log.ovf := by decide +kernel

theorem witness_Pldm : ∀ a ∈ [0, 1, 2, 3, 4, 5, 6], let s : State := { up with boot := { up.boot with upd := a } }; s.serves = true ∧ s.boot.upd = a := by decide +kernel

/-- A requester with a record. -/
def spdmAt (q : Nat) (x : Spdm) : State := { up with boot := { up.boot with spdm := (if x = {} then [] else [(q, x)]) ++ [(600, { stage := 1 })] } }
theorem witness_Spdm_stages : ∀ q ∈ [0, 1, 513], SMap.rising (spdmAt q { stage := 1 }).boot.spdm = true ∧ q < 514 ∧ (spdmAt q {}).hostUp = true ∧ ((spdmAt q { stage := 1 }).spdm q).stage = 1 ∧
    ((spdmAt q { stage := 2 }).spdm q).stage = 2 ∧ ((spdmAt q {}).spdm q).stage < 3 := by decide +kernel
theorem witness_Spdm_agreed : 3 ≤ ((spdmAt 513 { stage := 3 }).spdm 513).stage ∧ 0 < (certChain 0).length ∧ 0 < (certChain 1).length := ⟨by decide +kernel, by simp [certChain], by simp [certChain]⟩
theorem witness_Spdm_session : let s := spdmAt 513 { stage := 3, open_ := [1, 2], half := some 3 }; s.wf = true ∧ SMap.rising s.boot.spdm = true ∧ 3 ≤ (s.spdm 513).stage ∧ (s.spdm 513).half = some 3 ∧ 2 ∈ (s.spdm 513).open_ ∧
    ((spdmAt 1 { stage := 3 }).spdm 1).half = none := by decide +kernel
/-- A CXL link of port p with IDE, at a step of its bring-up. -/
def ideAt (p step ide : Nat) : State := put { spdmAt (p + 2) { stage := 3 } with ports := [(p, { step := step, ide := ide })] } [(F.BRIM_OCTET.MODE, [p / 64, octetOf p], 3), (F.BRIM_OCTET.IDE_EN, [p / 64, octetOf p], 1), (F.BRIM_PORT.EN, [p / 64, p % 64], 1), (F.CROWN_PEER.VALID, [p], 1)]
theorem witness_Spdm_ide : (ideAt 511 7 0).wf = true ∧ SMap.rising (ideAt 511 7 0).boot.spdm = true ∧ (ideAt 511 7 0).ideWaits 511 = true ∧ 3 ≤ ((ideAt 511 7 0).spdm 513).stage ∧ (ideAt 511 3 1).wf = true ∧ (ideAt 511 3 1).ideOn 511 = true ∧
    ((ideAt 511 3 1).port 511).ide ≠ 0 ∧ ((ideAt 511 3 1).port 511).step ≠ 7 := by decide +kernel

theorem witness_Management : let s := put up [(F.HOST_MGMT_CTRL.EN, [], 1), (F.HOST_MGMT_PEER.VALID, [3], 1)]; s.wf = true ∧ s.r F.HOST_MGMT_CTRL.EN [] = 1 ∧ s.pins.pcycReqN = true ∧ s.r F.HOST_MGMT_PEER.VALID [3] = 1 ∧ s.r F.CROWN_LC_STATUS.LC_STATE [] = 1 := by decide +kernel

/-! ### The BTP transport -/

/-- Byte n. -/
def byt (n : Nat) : Byte := BitVec.ofNat 8 n
/-- A value as n bytes, the most significant first. -/
def beb (n v : Nat) : List Byte := (leBytes n v).reverse
/-- A fabric address of a stage. -/
def hall (a : Nat) : Nat := 2 ^ 52 + a
def ext3 : Ext := { st := .active, part := 2, base := 0x40000000, log2 := 22, set1 := 0xff, set2 := 0xff, flags := 1, tag := 7, epoch := 9, acc := 7 }
def conn5 : Conn := { st := .open, part := 2, peerAddr := 0x0a000001, peerConn := 77, portSet := 0xff, services := 0xffff, tag := 7, maxOut := 8, rxNext := 100, txNext := 200, token := 0x1234 }
/-- A switch with partition 2 ACTIVE, extent 3 homed in it, entries of the Cleat for it, and two connections. -/
def world : State := put { up with
    pool := { exts := [(3, ext3)], pages := [(512, { st := .valid, place := .hot 4 none }), (513, { st := .valid, place := .hot 5 none })], mem := (List.range 24).map fun i => (0x40000000 + i, byt (i + 1)) }
    cleat := { ents := [{ tag := 7, lo := hall 0x40000000, hi := hall 0x403fffff, result := 1 * 2 ^ 60 + 2 * 2 ^ 24 + 3 * 16 + 7, sys := false }, { tag := 0xffff, lo := hall 0x40000000, hi := hall 0x403fffff, result := 8 * 2 ^ 60 + 2 * 2 ^ 20 + 3, sys := true }] }
    btp := { conns := [(5, conn5), (6, { conn5 with peerConn := 78, peerAddr := 0x0a000002 })], peers := [(0x0a000002, 4)] }
    nextId := 1000 }
  [(F.FELT_STAGE.STAGE_ID, [], 1), (F.FELT_STAGE.SWITCH_INDEX, [], 2), (F.CROWN_PART_CTRL.STATE, [2], ptActive), (F.FELT_ROUTE_EPOCH.CURRENT, [], 3), (F.TIER_CTRL.TIER_EN, [], 1), (F.HITCH_CTRL.HITCH_EN, [], 1),
   (F.BRIM_BTP_CTRL.BTP_EN, [0], 1)]
theorem test_world_is_sound : world.wf = true := by decide +kernel
/-- A request admitted under number r. -/
def ask (s : State) (r : Nat) (q : Req) : State := { s with btp := { s.btp with reqs := s.btp.reqs ++ [(r, some q)] } }
def req (op a n : Nat) : Req := { src := .conn 5, op := op, tid := 9, part := 2, addr := hall a, len := n, ext := some 3, ord := 2 }
/-- A world whose connection 5 is x. -/
def withConn (x : Conn) : State := { world with btp := { world.btp with conns := [(5, x)] } }

/-- A LOAD of 32 bytes on connection 5 as a datagram. -/
def datagram (ver : Nat) : List Byte :=
  [byt (ver * 16), byt 0x10] ++ beb 2 5 ++ beb 4 100 ++ beb 4 0 ++ beb 2 3 ++ [byt 0, byt 2] ++ beb 4 44 ++ beb 2 0 ++ beb 2 0 ++ beb 8 (hall 0x40000010) ++ beb 8 (32 * 2 ^ 32)
theorem witness_Packets_ports : world.wf = true ∧ world.portShut (64 * 0 + 3) = false ∧ world.r F.BRIM_BTP_CTRL.BTP_EN [0] = 1 ∧ (beb 23 0).length < 24 := by decide +kernel
theorem witness_Packets_version : (Pkt.parse (datagram 1)).any (fun p => decide (p.ver ≠ 2)) = true := by decide +kernel
theorem witness_Packets_load : (Pkt.parse (datagram 2)).any (fun p => decide (p.ver = 2 ∧ p.op = 0x10 ∧ p.resp = false ∧ p.chk = false ∧ p.ackValid = false ∧ p.sack = none ∧ p.extN = 2 ∧ p.words.length = 2 ∧ retrySet 0x10 false p.words = false ∧
    p.plen ≤ 8192 ∧ (datagram 2).length = 40 + p.plen ∧ (world.conn p.dst).st = .open ∧ connDie p.dst = 0 ∧ bit (world.conn p.dst).portSet 3 = true ∧ (world.conn p.dst).chk = 0 ∧ (world.conn p.dst).held = [] ∧
    p.psn = (world.conn p.dst).rxNext ∧ p.psn < 2 ^ 32 ∧ p.epoch = world.r F.FELT_ROUTE_EPOCH.CURRENT [])) = true := by decide +kernel

def pktOut (psn sends : Nat) : OutPkt := { psn := psn, op := 0x10, tid := 3, resp := true, status := 0, data := [], epoch := 1, rto := 20, limit := 7, sends := sends }
def sending (k : Nat) : State := put (withConn { conn5 with out := [pktOut 195 1, pktOut 199 k], unacked := 2 }) [(F.BRIM_BTP_TIMER.RETRY_LIMIT, [0], 7)]
theorem witness_Acknowledge_ack : (sending 1).wf = true ∧ ((sending 1).conn 5).st = .open ∧ (sending 1).r F.BRIM_BTP_CTRL.BTP_EN [connDie 5] = 1 ∧ newer32 199 ((((sending 1).conn 5).txNext + 2 ^ 32 - 1) % 2 ^ 32) = false ∧ (∀ p ∈ ((sending 1).conn 5).out, p.sacked = false) := by decide +kernel
theorem witness_Acknowledge_again : ((sending 7).conn 5).out.find? (fun o => decide (o.psn = 199)) = some (pktOut 199 7) ∧ (pktOut 199 7).sacked = false ∧ (pktOut 199 7).sends ≤ (pktOut 199 7).limit := by decide +kernel
theorem witness_Acknowledge_limit : (sending 8).wf = true ∧ ((sending 8).conn 5).out.find? (fun o => decide (o.psn = 199)) = some (pktOut 199 8) ∧ (pktOut 199 8).limit < (pktOut 199 8).sends := by decide +kernel
theorem witness_Acknowledge_timer : ((sending 1).conn 5).unacked ≠ 0 ∧ ((sending 1).conn 5).st = .open := by decide +kernel
/-- A connection of one port, which is UP. -/
def onePort : State := put (withConn { conn5 with portSet := 2, badOpens := 15, unacked := 2 }) [(F.BRIM_PORT.LINK_STATE, [0, 1], lkUp)]
theorem witness_Acknowledge_port : onePort.wf = true ∧ onePort.connPort 5 = some 1 ∧ 80 ≤ onePort.mtu (connDie 5) 1 := by
  have h : (List.range 64).filter (bit (onePort.conn 5).portSet) = [1] ∧ decide (onePort.link (64 * connDie 5 + 1) = lkUp) = true := by decide +kernel
  refine ⟨by decide +kernel, ?_, by decide +kernel⟩
  simp [State.connPort, h.1, pathPick, Nat.mod_one, of_decide_eq_true h.2]
theorem test_ack_retires : ((after (execBtpAck 5 3 300 195 none (sending 1))).conn 5).out.map (·.psn) = [199] := by decide +kernel

/-- A CONN_OPEN or CONN_CLOSE with a token on connection 5. -/
def opening (st : ConnState) (token bad op : Nat) : State := ask (withConn { conn5 with st := st, badOpens := bad }) 50 { src := .conn 5, op := op, tid := 4, data := leBytes 16 token, want := 16, rcv := 16, len := 16 }
theorem witness_ConnOpen_ok : let s := opening .created 0x1234 0 1; s.wf = true ∧ (s.req 50).any (fun q => decide (q.src = .conn 5 ∧ q.resp = false ∧ q.op = 0x01 ∧ q.data.length = 16 ∧ ofLe q.data = (s.conn 5).token)) = true ∧ (s.conn 5).st = .created := by decide +kernel
theorem witness_ConnOpen_wrong : let s := opening .created 0x1235 14 1; s.wf = true ∧ (s.req 50).any (fun q => decide (q.src = .conn 5 ∧ q.resp = false ∧ q.op = 0x01 ∧ q.data.length = 16 ∧ ofLe q.data ≠ (s.conn 5).token)) = true ∧
    (s.conn 5).st = .created ∧ (s.conn 5).badOpens < 15 := by decide +kernel
theorem witness_ConnOpen_sixteenth : let s := opening .created 0x1235 15 1; s.wf = true ∧ (s.conn 5).st = .created ∧ (s.conn 5).badOpens = 15 ∧ 72 ≤ s.mtu (connDie 5) 0 := by decide +kernel
theorem witness_ConnClose : let s := opening .open 0 0 2; s.wf = true ∧ (s.req 50).any (fun q => decide (q.src = .conn 5 ∧ q.resp = false ∧ q.op = 0x02)) = true ∧ (s.conn 5).st = .open ∧ ((opening .closing 0 0 2).conn 5).st = .closing ∧ (opening .closing 0 0 2).wf = true := by decide +kernel
def wrongOpen : Req := { src := .conn 5, op := 1, tid := 4, data := leBytes 16 0x1235, want := 16, rcv := 16, len := 16 }
/-- R66: the sixteenth failed open moves the entry to ERROR, the fifteenth leaves it CREATED. -/
theorem test_sixteenth_open_errors : ((after (execConnOpen 50 (ask (withConn { conn5 with st := .created, badOpens := 15, portSet := 0 }) 50 wrongOpen))).conn 5).st = .error ∧
    ((after (execConnOpen 50 (ask (withConn { conn5 with st := .created, badOpens := 14, portSet := 0 }) 50 wrongOpen))).conn 5).st = .created := by decide +kernel

def sentStore : OutReq := { conn := 6, tid := 33, op := 0x11, addr := hall 0x40000000, len := 8, owners := [50] }
def waitsSent : Req := { req 0x11 0x40000000 8 with dest := .route 3, wait := .sent 60 }
def answerOf : Req := { src := .conn 6, op := 0x11, tid := 33, resp := true, status := 0 }
/-- A store sent to another switch whose response has arrived. -/
def responded : State := let s := ask (ask world 50 waitsSent) 70 answerOf; { s with btp := { s.btp with outs := [(60, some sentStore)] } }
theorem witness_SentRequestsEnd : responded.wf = true ∧ SMap.get none responded.btp.outs 60 = some sentStore ∧ (∀ r ∈ sentStore.owners, ∃ q, responded.req r = some q ∧ q.resp = false) ∧ responded.req 70 = some answerOf ∧
    answerOf.resp = true ∧ answerOf.src = .conn sentStore.conn ∧ responded.outOf sentStore.conn answerOf.tid = some (60, sentStore) ∧ answerOf.status = stOk ∧ sentStore.op ≠ 0x14 :=
  ⟨by decide +kernel, by decide +kernel, fun r h => ⟨waitsSent, by rw [List.mem_singleton.mp h]; decide +kernel, by decide +kernel⟩, by decide +kernel⟩

theorem witness_Rates : let s : State := { withConn { conn5 with rate := 1, ce := true } with btp := { (withConn { conn5 with rate := 1, ce := true }).btp with qps := [(4, { live := true, rate := 61 })] } };
    s.wf = true ∧ (s.conn 5).st ≠ .free ∧ (s.conn 5).ce = true ∧ (s.qp 4).live = true ∧ (world.conn 5).st ≠ .free ∧ (world.conn 5).ce = false := by decide +kernel

/-! ### Memory requests at their home -/

/-- A request at its turn at its home. -/
def at50 (q : Req) : State := ask world 50 q
/-- The same, on a connection without a port: its answer is held. -/
def quiet (q : Req) : State := ask (withConn { conn5 with portSet := 0 }) 50 q
def load32 : Req := req 0x10 0x40000000 32
def bulk : Req := req 0x14 0x40000008 4096
theorem witness_Reads_load : (at50 load32).wf = true ∧ load32.addr % 2 ^ 52 + load32.len ≤ 2 ^ 52 ∧ (∀ p ∈ pagesOf (load32.addr % 2 ^ 52) load32.len, (at50 load32).readHeld p = false ∧ ((at50 load32).page p).st ≠ .poisoned) ∧
    (at50 load32).poisoned (load32.addr % 2 ^ 52) load32.len = [] ∧ (at50 load32).mapMisses [((at50 load32).ext 3, load32.addr % 2 ^ 52, load32.len)] = [] ∧ (at50 load32).rangeWaits ((at50 load32).ext 3) (load32.addr % 2 ^ 52) load32.len false = false ∧ (at50 load32).turn 50 0x10 load32 3 ∧ (at50 load32).leads 50 = none ∧
    (at50 load32).combinable 50 load32 = false := by unfold State.turn State.clearPath; decide +kernel
theorem witness_Reads_bulk : (at50 bulk).wf = true ∧ bulk.addr % 2 ^ 52 + bulk.len ≤ 2 ^ 52 ∧ (∀ p ∈ pagesOf (bulk.addr % 2 ^ 52) bulk.len, (at50 bulk).readHeld p = false ∧ ((at50 bulk).page p).st ≠ .poisoned) ∧
    (at50 bulk).poisoned (bulk.addr % 2 ^ 52) bulk.len = [] ∧ (at50 bulk).mapMisses [((at50 bulk).ext 3, bulk.addr % 2 ^ 52, bulk.len)] = [] ∧ (at50 bulk).rangeWaits ((at50 bulk).ext 3) (bulk.addr % 2 ^ 52) bulk.len false = false ∧ (at50 bulk).turn 50 0x14 bulk 3 := by unfold State.turn State.clearPath; decide +kernel

def store4 : Req := { req 0x11 0x40000002 4 with data := [byt 9, byt 8, byt 7, byt 6] }
theorem witness_Writes_store : (at50 store4).wf = true ∧ (at50 store4).turn 50 0x11 store4 3 ∧ store4.data ≠ [] ∧ (at50 store4).writeAcc ((at50 store4).ext 3) (store4.addr % 2 ^ 52) store4.data.length false = .ok := by unfold State.turn State.clearPath; decide +kernel
def segments (placed : Nat) : Req := { req 0x15 0x40000000 8 with want := 8, placed := placed, segs := [(4, [byt 9, byt 8, byt 7, byt 6])] }
theorem witness_Writes_segment : ∀ k ∈ [0, 4], (at50 (segments k)).wf = true ∧ (at50 (segments k)).turn 50 0x15 (segments k) 3 ∧ (segments k).segs = (4, [byt 9, byt 8, byt 7, byt 6]) :: [] ∧
    (at50 (segments k)).writeAcc ((at50 (segments k)).ext 3) ((segments k).addr % 2 ^ 52 + 4) 4 false = .ok := by unfold State.turn State.clearPath; decide +kernel
theorem test_store_writes : (after (execStore 50 (quiet store4))).memBytes 0x40000000 8 = [byt 1, byt 2, byt 9, byt 8, byt 7, byt 6, byt 7, byt 8] := by decide +kernel

def atom (op ty size a : Nat) : Req := { req 0x12 0x40000000 size with attr := op * 2 ^ 28 + (if size = 8 then 1 else 0) * 2 ^ 26 + ty * 2 ^ 24, opA := a, opB := 0x04030201 }
/-- The old word is 0x04030201. -/
theorem witness_Atomics : ∀ q ∈ [atom 0 0 4 (2 ^ 32 - 1), atom 1 0 4 5, atom 2 1 4 (2 ^ 32 - 5), atom 7 0 4 6, atom 6 0 8 1], (at50 q).wf = true ∧ (at50 q).turn 50 0x12 q 3 ∧ (at50 q).leads 50 = none ∧ (at50 q).combinable 50 q = false ∧
    (q.asize = 4 ∨ q.asize = 8) ∧ q.atype ≤ 1 ∧ (at50 q).poisoned (q.addr % 2 ^ 52) q.asize = [] ∧ (at50 q).readAcc ((at50 q).ext 3) (q.addr % 2 ^ 52) q.asize .ok = .ok ∧
    (at50 q).writeAcc ((at50 q).ext 3) (q.addr % 2 ^ 52) q.asize false = .ok ∧ (at50 q).mapMisses [((at50 q).ext 3, q.addr % 2 ^ 52, q.asize)] = [] ∧ ofLe ((at50 q).memBytes (q.addr % 2 ^ 52) 4) = 0x04030201 := by unfold State.turn State.clearPath; decide +kernel
/-- Both signed MIN and MAX have a result of the required kind: −5 against 0x04030201. -/
theorem witness_Atomics_signed : sext 32 (2 ^ 32 - 5) = min (sext 32 0x04030201) (sext 32 (2 ^ 32 - 5)) ∧ sext 32 0x04030201 = max (sext 32 0x04030201) (sext 32 (2 ^ 32 - 5)) := by decide +kernel
theorem test_atomic_add_wraps : (after (execAtomic 50 .ok (quiet (atom 0 0 4 (2 ^ 32 - 1))))).memBytes 0x40000000 4 = leBytes 4 0x04030200 := by decide +kernel

/-! ### Near-pool operations, triggers and combining -/

theorem hot_of {x : Place} (h : (match x with | .hot _ none => true | _ => false) = true) : ∃ f, x = .hot f none := by
  cases x with
  | hot f o => cases o with
    | none => exact ⟨f, rfl⟩
    | some _ => cases h
  | _ => cases h

/-- A near operation on 64-byte blocks. -/
def near (fn size ty op len a : Nat) : Req := { req 0x16 0x40000000 len with attr := op * 2 ^ 28 + (if size = 8 then 1 else 0) * 2 ^ 26 + ty * 2 ^ 24 + fn * 2 ^ 16, opA := a }
theorem witness_NearWrites : ∀ q ∈ [near 1 4 0 0 64 3, near 2 4 0 0 128 (hall 0x40200000), near 5 8 1 1 64 (hall 0x40000040)], let s := at50 q; s.wf = true ∧ s.turn 50 0x16 q 3 ∧ q.placed = 0 ∧ 64 ≤ q.len ∧ q.len % 64 = 0 ∧ q.addr % 64 = 0 ∧ (q.opA % 64 = 0 ∨ q.nearFn = 1) ∧
    (s.ext 3).prot = 0 ∧ s.poisoned (q.addr % 2 ^ 52) q.len = [] ∧
    (q.nearFn = 1 ∨ q.nearFn = 2 ∨ q.nearFn = 5 ∧ (q.asize = 4 ∨ q.asize = 8)) := by unfold State.turn State.clearPath; decide +kernel
theorem witness_NearWrites_source : ∀ q ∈ [near 1 4 0 0 64 3, near 2 4 0 0 128 (hall 0x40200000), near 5 8 1 1 64 (hall 0x40000040)], let s := at50 q; (q.nearFn ≠ 1 → (s.ext (q.ext2.getD 3)).coherent = false ∧ (s.extAt (q.opA % 2 ^ 52)).isSome = true ∧ s.poisoned (q.opA % 2 ^ 52) q.len = [] ∧ s.mapMisses [(s.ext (q.ext2.getD 3), q.opA % 2 ^ 52, q.len)] = [] ∧ s.rangeWaits (s.ext (q.ext2.getD 3)) (q.opA % 2 ^ 52) q.len false = false ∧
      (q.addr % 2 ^ 52 + q.len ≤ q.opA % 2 ^ 52 ∨ q.opA % 2 ^ 52 + q.len ≤ q.addr % 2 ^ 52) ∧ ∀ p ∈ pagesOf (q.opA % 2 ^ 52) q.len, (s.page p).st ≠ .poisoned ∧ s.readHeld p = false ∧ s.pageHeld p = false) := by decide +kernel
theorem witness_NearWrites_pages (q : Req) (h : q ∈ [near 1 4 0 0 64 3, near 2 4 0 0 128 (hall 0x40200000), near 5 8 1 1 64 (hall 0x40000040)]) :
    ∀ p ∈ pagesOf (q.addr % 2 ^ 52) q.len, ((at50 q).page p).st = .valid ∧ (at50 q).readHeld p = false ∧ (at50 q).pageHeld p = false ∧ ∃ f, ((at50 q).page p).place = .hot f none :=
  have k : ∀ q ∈ [near 1 4 0 0 64 3, near 2 4 0 0 128 (hall 0x40200000), near 5 8 1 1 64 (hall 0x40000040)], ∀ p ∈ pagesOf (q.addr % 2 ^ 52) q.len, ((at50 q).page p).st = .valid ∧ (at50 q).readHeld p = false ∧
      (at50 q).pageHeld p = false ∧ (match ((at50 q).page p).place with | .hot _ none => true | _ => false) = true := by decide +kernel
  fun p hp => ⟨(k q h p hp).1, (k q h p hp).2.1, (k q h p hp).2.2.1, hot_of (k q h p hp).2.2.2⟩

theorem witness_NearReads : ∀ q ∈ [near 3 4 0 0 64 (hall 0x40200000), near 4 8 1 1 64 0, near 4 4 2 0 64 0], let s := at50 q; s.wf = true ∧ s.turn 50 0x16 q 3 ∧ s.mapMisses (s.nearReads 3 q) = [] ∧ (∀ y ∈ s.nearReads 3 q, s.rangeWaits y.1 y.2.1 y.2.2 false = false) ∧ 64 ≤ q.len ∧ s.poisoned (q.addr % 2 ^ 52) q.len = [] ∧ (s.ext (q.ext2.getD 3)).coherent = false ∧
    (∀ p ∈ pagesOf (q.addr % 2 ^ 52) q.len, (s.page p).st ≠ .poisoned ∧ s.readHeld p = false ∧ s.pageHeld p = false) ∧ (q.nearFn = 4 ∨ q.nearFn = 3 ∧ (s.extAt (q.opA % 2 ^ 52)).isSome = true ∧ s.poisoned (q.opA % 2 ^ 52) q.len = [] ∧
      ∀ p ∈ pagesOf (q.opA % 2 ^ 52) q.len, (s.page p).st ≠ .poisoned ∧ s.readHeld p = false ∧ s.pageHeld p = false) := by unfold State.turn State.clearPath; decide +kernel
theorem test_compare_answers_first_difference : firstDiff [byt 1, byt 2, byt 3] [byt 1, byt 9, byt 3] = 1 := by decide +kernel

def trig (d : List Byte) : Req := { src := .conn 5, op := 0x13, tid := 9, part := 2, addr := hall (0x80000000 + 7 * 128 + 0x40), data := d, dest := .knotWin }
def prog11 : Prg := { part := 2, level := 0, atiles := 0, chkSlots := 0, handles := 0, scr := 0, clu := 0, entry := 24, shared := false, service := false, code := [], starts := [] }
/-- A knot with a launch slot, and two instances of its program. -/
def triggered (st : CtxState) (d : List Byte) : State := ask (put { world with
    knots := { kn := [(7, { st := .active })] }
    eng := { world.eng with ctxs := [(65, { st := st, mode := true, part := 2, prog := 11, parkedAt := 5 }), (66, { st := st, mode := true, part := 2, prog := 11, parkedAt := 3 })], progs := [(11, some prog11)] } }
  [(F.KNOT_WINDOW.WIN_EN, [], 1), (F.KNOT_WINDOW.BASE, [], 0x80000000 / 2 ^ 23), (F.KNOT_SLICE.BASE, [2], 4), (F.KNOT_SLICE.COUNT, [2], 4), (F.KNOT.VALID, [7], 1), (F.KNOT.TRIG_EN, [7], 1), (F.KNOT.TRIG_PROG, [7], 11)]) 50 (trig d)
theorem witness_Trigger : ∀ k ∈ [0, 64], let q := trig (List.replicate k (byt 5)); let s := triggered .parked (List.replicate k (byt 5)); s.wf = true ∧ s.req 50 = some q ∧ q.op = 0x13 ∧ q.resp = false ∧ q.wait = .none ∧ q.retryOf = none ∧
    s.inOrder 50 q = true ∧ s.clearPath q ∧ q.dest = .knotWin ∧ s.slotOf (q.addr % 2 ^ 52) = some (7, 0x40) ∧ (s.knot 7).held.contains (.req 50) = false ∧ s.knotPart 7 = some q.part ∧ q.data.length ≤ 64 ∧ (s.knot 7).st = .active ∧
    s.r F.KNOT.TRIG_EN [7] = 1 ∧ s.hasInstance q.part (s.r F.KNOT.TRIG_PROG [7]) = true ∧ s.parked q.part (s.r F.KNOT.TRIG_PROG [7]) = some 66 := by unfold State.clearPath; decide +kernel
theorem witness_Trigger_queued : let q := trig [byt 4]; let s := triggered .ready [byt 4]; s.wf = true ∧ s.req 50 = some q ∧ s.inOrder 50 q = true ∧ s.slotOf (q.addr % 2 ^ 52) = some (7, 0x40) ∧ s.knotPart 7 = some q.part ∧ (s.knot 7).st = .active ∧
    s.hasInstance q.part (s.r F.KNOT.TRIG_PROG [7]) = true ∧ s.parked q.part (s.r F.KNOT.TRIG_PROG [7]) = none ∧ s.knots.launches.length < 4096 ∧
    s.knots.launches.countP (fun l => l.part = q.part) < s.r F.KNOT_LAUNCH.MAX_QUEUED [q.part] := by decide +kernel

/-- A request merged into entry 20. -/
def merged (op a n attr opA tid : Nat) (dest : Where) : Req := { req op a n with ord := 0, attr := attr, opA := opA, tid := tid, wait := .merged 20, dest := dest }
def comb (x : Comb) (dest : Where) (l : List (Nat × Req)) : State := l.foldl (fun s e => ask s e.1 { e.2 with dest := dest }) { world with hitch := { world.hitch with combs := [(20, some x)] } }
def atomics : List (Nat × Req) := [(50, merged 0x12 0x40000008 0 0 10 9 .home), (51, merged 0x12 0x4000000c 0 0 11 10 .home)]
def loads : List (Nat × Req) := [(50, merged 0x10 0x40000008 8 0 0 9 .home), (51, merged 0x10 0x4000000c 5 0 0 10 .home)]
def combA : Comb := { line := 0x40000000 / 64, part := 2, atomic := some (0, 4, 0), parts := [50, 51] }
theorem witness_Fuller_hold : let s := comb combA .home atomics; s.wf = true ∧ s.combAt 20 = some combA ∧ combA.forward = false ∧ combA.atomic.isSome = true ∧ combA.sent = false ∧
    (s.leader combA).any (fun r => (s.req r).any (fun q => decide (q.ext = some 3 ∧ (s.ext 3).coherent = false ∧ q.atype ≤ 1))) = true ∧ s.poisoned (combA.line * 64) 64 = [] ∧ s.readAcc (s.ext 3) (combA.line * 64) 64 .ok = .ok ∧
    s.writeAcc (s.ext 3) (combA.line * 64) 64 false = .ok ∧ s.mapMisses [(s.ext 3, combA.line * 64, 64)] = [] := by decide +kernel
def combF (ps : List Nat) : Comb := { line := hall 0x40000000 / 64, part := 2, parts := ps, forward := true }
theorem witness_Fuller_forward : ∀ ps ∈ [[50, 51], [50]], let s := comb (combF ps) (.route 3) loads; s.wf = true ∧ s.combAt 20 = some (combF ps) ∧ (combF ps).sent = false ∧
    ((combF ps).parts.filterMap (fun r => (s.req r).map (fun q => (r, q)))).length = ps.length ∧ (s.req 50).any (fun q => decide (s.exitConn q = some 6 ∧ q.op = 0x10 ∧ q.dest = .route 3)) = true := by decide +kernel
def replied (x : Comb) : Comb := { x with sent := true, closed := true, ops := if x.atomic.isSome then atomics else [], reply := some (world.memBytes 0x40000000 64) }
theorem witness_Fuller_response : ∀ e ∈ [(replied combA, atomics), (replied { combA with atomic := none }, loads)], let s := comb e.1 .home e.2; s.wf = true ∧ s.combAt 20 = some e.1 ∧ e.1.reply.isSome = true ∧ e.1.status = stOk ∧
    (∀ r ∈ e.1.parts, (s.req r).any (fun q => decide (q.src = .conn 5 ∧ (s.conn 5).st = .open ∧ (q.op = 0x10 ∨ q.op = 0x12) ∧ (e.1.atomic.isSome = true → e.1.ops.any (fun o => decide (o.1 = r)) = true))) = true) := by decide +kernel

def gathered (op a tid : Nat) (d : List Byte) : Req := { req op a 32 with ord := 1, tid := tid, data := d, dest := .gateway 6, wait := .other, ext := none }
def gathering (op : Nat) (d : List Byte) : State := { ask (ask world 50 (gathered op 0x40000000 1 d)) 51 (gathered op 0x40000020 2 d) with
  btp := { (ask (ask world 50 (gathered op 0x40000000 1 d)) 51 (gathered op 0x40000020 2 d)).btp with gathers := [{ src := .conn 5, gate := 6, block := hall 0x40000000 / 4096, store := decide (op = 0x11), reqs := [50, 51] }] } }
theorem witness_Gather : ∀ e ∈ [(0x11, List.replicate 32 (byt 3)), (0x10, [])], (gathering e.1 e.2).wf = true ∧ ((gathering e.1 e.2).btp.gathers[0]?).any (fun g => (gathering e.1 e.2).gatherReady g && decide (((gathering e.1 e.2).conn g.gate).st = .open) &&
    g.reqs.all (fun r => ((gathering e.1 e.2).req r).any (fun q => decide (q.op = e.1)))) = true := by decide +kernel

/-- A request of another switch on connection 6. -/
def forwarded (a : Nat) : Req := { req 0x10 a 16 with src := .conn 6, ext := none, wait := .other, attr := 9, ord := 0 }
theorem witness_Forwarded_home : let q := forwarded 0x40000010; let s := at50 q; s.wf = true ∧ s.req 50 = some q ∧ q.src = .conn 6 ∧ q.resp = false ∧ q.wait = .other ∧ q.dest = .home ∧ memOp q.op = true ∧
    (∃ e, s.look tagLocation q.addr = .hit e ∧ e.kind = 8 ∧ (s.ext (e.result % 2 ^ 20)).epoch % 65536 = q.attr % 65536 ∧ bits e.result 20 4 = q.part ∧ (s.ext (e.result % 2 ^ 20)).part = q.part ∧ q.addr + q.span - 1 ≤ e.hi ∧
      s.homeVerdict q none (e.result % 2 ^ 20) = .serve .home (some 3) none) :=
  ⟨by decide +kernel, by decide +kernel, by decide +kernel, by decide +kernel, by decide +kernel, by decide +kernel, by decide +kernel,
    { tag := 0xffff, lo := hall 0x40000000, hi := hall 0x403fffff, result := 8 * 2 ^ 60 + 2 * 2 ^ 20 + 3, sys := true }, by decide +kernel⟩
def routed : State := { world with
  cleat := { world.cleat with ents := world.cleat.ents ++ [{ tag := 0xffff, lo := hall 0x50000000, hi := hall 0x5fffffff, result := 9 * 2 ^ 60 + 7, sys := true }] }
  btp := { world.btp with conns := world.btp.conns ++ [(8, { conn5 with peerAddr := 0x0a000003 })], peers := [(0x0a000002, 4), (0x0a000003, 8)] } }
theorem witness_Forwarded_route : let q := forwarded 0x50000010; let s := ask routed 50 q; s.wf = true ∧ s.req 50 = some q ∧ s.mirror ≠ mirLost ∧ ∃ e, s.look tagLocation q.addr = .hit e ∧ e.kind = 9 ∧ some (e.result % 16) ≠ s.peerIdx 6 ∧
    s.connTo (e.result % 16) = some 8 ∧ q.op = 0x10 :=
  ⟨by decide +kernel, by decide +kernel, by decide +kernel, { tag := 0xffff, lo := hall 0x50000000, hi := hall 0x5fffffff, result := 9 * 2 ^ 60 + 7, sys := true }, by decide +kernel⟩

/-! ### RoCE, services and the mailbox -/

def qpair : Qp := { live := true, part := 2, portSet := 0xff, services := 0xff, tag := 7, rxPsn := 2 ^ 24 - 1, peerQp := 5, maxOut := 4, rate := 9, out := [(3, []), (2 ^ 24 - 2, [])] }
/-- Queue pair 5 of Brim die 1, with R_Key 100 for extent 3. -/
def roce : State := put { world with btp := { world.btp with qps := [(2053, qpair)] }, cleat := { ents := { tag := 7, lo := 100, hi := 100, result := 4 * 2 ^ 60 + 3 * 2 ^ 52 + 0x40000000, sys := false } :: world.cleat.ents } } [(F.BRIM_BTP_CTRL.ROCE_EN, [1], 1)]
theorem witness_QueuePairs : roce.wf = true ∧ (roce.qp 2053).live = true ∧ roce.portShut (64 * qpDie 2053 + 3) = false ∧ roce.r F.BRIM_BTP_CTRL.ROCE_EN [qpDie 2053] = 1 ∧ (roce.qp 2053).err = false ∧ bit (roce.qp 2053).portSet 3 = true ∧
    (roce.qp 2053).rxPsn < 2 ^ 24 ∧ (roce.qp 2053).lastCnp = none ∧ bit (roce.qp 2053).services 2 = true ∧ roce.fenced (roce.qp 2053).part = false ∧ (roce.openQp 2053).length < (roce.qp 2053).maxOut := by decide +kernel
theorem witness_QueuePairs_keys : roce.rkey 2053 101 = .error false ∧ roce.rkey 2053 100 = .ok (0x40000000, 3) := ⟨rfl, rfl⟩
theorem witness_QueuePairs_write : let q : Req := { src := .qp 2053, op := 0x15, psn := (roce.qp 2053).rxPsn, ord := 2, part := (roce.qp 2053).part, addr := roce.hall (0x40000000 + 5), len := 3, want := 3, rcv := 3, segs := [(0, [byt 1, byt 2, byt 3])] };
    3 ≤ (roce.qp 2053).mtu ∧ (3 : Nat) &&& 2 = 2 ∧ roce.rights (roce.qp 2053).tag q.part q.addr q.len 2 false = .ok ∧ roce.resolve q (roce.qp 2053).tag 0x830 = .serve .home (some 3) none := by decide +kernel
theorem witness_QueuePairs_read : let q : Req := { src := .qp 2053, op := 0x14, psn := (roce.qp 2053).rxPsn, ord := 2, part := (roce.qp 2053).part, addr := roce.hall (0x40000000 + 5), len := 300 };
    ((roce.openQp 2053).filter (fun e => decide (e.2.op = 0x14))).length < 16 ∧ (3 : Nat) &&& 1 = 1 ∧ roce.rights (roce.qp 2053).tag q.part q.addr q.len 1 false = .ok ∧ roce.resolve q (roce.qp 2053).tag 0x830 = .serve .home (some 3) none := by decide +kernel
/-- The same queue pair in the middle of a WRITE. -/
def writing : State := { roce with btp := { roce.btp with qps := [(2053, { qpair with wAddr := 0x40000005, wLeft := 5, wAcc := 2, wKey := 100 })] } }
theorem witness_QueuePairs_next : let q : Req := { src := .qp 2053, op := 0x15, psn := (writing.qp 2053).rxPsn, ord := 2, part := (writing.qp 2053).part, addr := writing.hall (writing.qp 2053).wAddr, len := 3, want := 3, rcv := 3, segs := [(0, [byt 1, byt 2, byt 3])] };
    writing.wf = true ∧ (writing.qp 2053).live = true ∧ 3 ≤ (writing.qp 2053).wLeft ∧ 3 ≤ (writing.qp 2053).mtu ∧ (writing.qp 2053).wAcc &&& 2 = 2 ∧ writing.rights (writing.qp 2053).tag q.part q.addr q.len 2 false = .ok ∧
    writing.resolve q (writing.qp 2053).tag 0x830 = .serve .home (some 3) none := by decide +kernel
theorem witness_QueuePairs_above : (roce.qp 2053).mtu < (List.replicate 1025 (byt 0)).length ∧ (2 : Nat) ^ 24 < 2 ^ 24 + 1 := by decide +kernel
theorem witness_QueuePairs_again : psn24le 3 3 = true ∧ (3, []) ∈ (roce.qp 2053).out := by decide +kernel
theorem test_roce_unsupported : (after (execRoceUnsupportedRequest 2053 3 (2 ^ 24 - 1) true false roce)).sent = [roceMsg 2053 (.nak (2 ^ 24 - 1) 1)] := rfl

/-- A service request with its body complete. -/
def svc (op : Nat) (d : List Byte) (n : Nat) : Req := { src := .conn 5, op := op, tid := 4, part := 2, data := d, want := d.length, rcv := d.length, len := d.length, dest := .service, words := [7, 8, n * 2 ^ 32] }
def serving (q : Req) : State := ask { withConn { conn5 with portSet := 0 } with eng := { world.eng with svc := [(2, { on := true, kv := [(q.svcKey, some [byt 1, byt 2])], ps := [(q.psKey 0, 0x3f800000)] })] } } 50 q
theorem witness_Services : ∀ q ∈ [svc 0x30 [byt 9] 0, svc 0x31 [] 0, svc 0x32 [] 0, svc 0x34 (leBytes 4 0x40000000) 1, svc 0x35 [] 3], (serving q).wf = true ∧ (serving q).req 50 = some q ∧ q.resp = false ∧ q.wait = .none ∧ q.retryOf = none ∧ (serving q).inOrder 50 q = true ∧ (serving q).clearPath q ∧ q.want ≤ q.rcv := by unfold State.clearPath; decide +kernel
theorem witness_Services_get : SMap.get none ((serving (svc 0x31 [] 2)).svcMode 2).kv (svc 0x31 [] 2).svcKey = some [byt 1, byt 2] ∧ (svc 0x31 [] 2).svcLen = 2 ∧
    SMap.get none ((at50 (svc 0x31 [] 2)).svcMode 2).kv (svc 0x31 [] 2).svcKey = none := by decide +kernel
theorem witness_Services_push : (svc 0x34 (leBytes 4 0x40000000) 1).svcType = 0 ∧ elems 4 (svc 0x34 (leBytes 4 0x40000000) 1).data = [0x40000000] := by decide +kernel
/-- 1.0 and 2.0 add to 3.0. -/
theorem test_push_adds : SMap.get (0 : Lane) ((after (execSvcPsPush 50 (serving (svc 0x34 (leBytes 4 0x40000000) 1)))).svcMode 2).ps ((svc 0x34 (leBytes 4 0x40000000) 1).psKey 0) = 0x40400000 := by decide +kernel

/-- Command words in a slot of the mailbox. -/
def mbox (s : State) (slot : Nat) (w : List Nat) : State := put s (w.zipIdx.map fun e => (F.TIER_MBOX.CMD, [slot, e.2], e.1))
def withExt (s : State) (x : Ext) : State := { s with pool := { s.pool with exts := [(3, x)] } }
def adding : State := mbox world 7 [1 + 0xab * 2 ^ 16, 9 + 2 * 2 ^ 20 + 21 * 2 ^ 24, 0x80000000, 2 ^ 20, 0xff + 0xff * 256 + 7 * 2 ^ 16, 3, 100 + 7 * 2 ^ 16]
theorem witness_Mbox_add : let s := adding; s.wf = true ∧ s.mboxReady 7 0x01 ∧ (s.ext (s.mboxExt 7)).st = .free ∧ s.fenced (s.newExt 7).part = false ∧ (s.newExt 7).formOk = true ∧ s.floorOk (s.newExt 7) = true ∧
    (s.pool.exts.all fun y => !(decide (y.2.st ≠ .free) && meets (s.newExt 7).base (s.newExt 7).log2 y.2.base y.2.log2)) = true ∧ s.pool.routes = [] ∧ s.roomFor (s.newExt 7) = true ∧ s.newPageBase ((s.newExt 7).size / 2 ^ 21) + (s.newExt 7).size / 2 ^ 21 ≤ 2 ^ 27 := by
  unfold State.mboxReady State.mboxStarts; decide +kernel
theorem witness_Mbox_addWrong : let s := mbox world 0 [1, 3]; s.wf = true ∧ s.mboxReady 0 0x01 ∧ (s.ext (s.mboxExt 0)).st = .active := by unfold State.mboxReady State.mboxStarts; decide +kernel
theorem witness_Mbox_revoke : ∀ n ∈ [0, 2], let s := withExt (mbox world 3 [2, 3, 0]) { ext3 with openReq := n }; s.wf = true ∧ s.mboxReady 3 0x02 ∧ (s.ext (s.mboxExt 3)).st = .active ∧ s.mbox 3 2 % 65536 = 0 := by unfold State.mboxReady State.mboxStarts; decide +kernel
theorem witness_Mbox_release : ∀ f ∈ [1, 65], let s := withExt (mbox world 3 [3, 3]) { ext3 with st := .drained, flags := f }; s.wf = true ∧ s.mboxReady 3 0x03 ∧ (s.ext (s.mboxExt 3)).st = .drained ∧
    (s.ext (s.mboxExt 3)).scrub = decide (f = 65) := by unfold State.mboxReady State.mboxStarts; decide +kernel
theorem witness_Mbox_query : ∀ st ∈ [ExtState.active, .draining, .drained, .releasing, .recovering, .lost], let s := withExt (mbox world 3 [4, 3]) { ext3 with st := st, openReq := 77 }; s.wf = true ∧ s.mboxReady 3 0x04 ∧ (s.ext (s.mboxExt 3)).st ≠ .free ∧ (s.ext (s.mboxExt 3)).st ≠ .adding := by
  unfold State.mboxReady State.mboxStarts; decide +kernel
/-- An EXT_ADD of the extent is under way. -/
theorem witness_Mbox_held : let s := withExt (mbox world 3 [4, 3]) { ext3 with st := .adding, slot := some 7 }; s.wf = true ∧ s.mboxStarts 3 0x04 ∧ s.mboxHeld 3 = true := by unfold State.mboxStarts; decide +kernel
theorem witness_Mbox_policy : ∀ f ∈ [1, 5], let s := mbox world 3 [5, 3, f]; s.wf = true ∧ s.mboxReady 3 0x05 ∧ (s.ext (s.mboxExt 3)).st = .active ∧ s.fenced (s.ext (s.mboxExt 3)).part = false ∧ f = s.mbox 3 2 % 1024 ∧ f / 8 = (s.ext (s.mboxExt 3)).flags / 8 ∧ f % 4 ≠ 3 ∧
    ((s.ext (s.mboxExt 3)).set1 = 0xFF → f % 2 = 1) := by unfold State.mboxReady State.mboxStarts; decide +kernel
theorem witness_Mbox_route : let s := mbox world 3 [6, 1 + 5 * 16 + 22 * 256, 0x60000000, 0, 44]; s.wf = true ∧ s.mboxReady 3 0x06 ∧ 0x60000000 = s.mbox 3 2 + s.mbox 3 3 % 2 ^ 20 * 2 ^ 32 ∧ 22 = bits (s.mbox 3 1) 8 5 ∧ 0x60000000 % 2 ^ 22 = 0 ∧ s.mbox 3 1 % 2 = 1 ∧ s.pool.routes = [] ∧
    (s.pool.exts.all fun y => !(decide (y.2.st ≠ .free) && meets 0x60000000 22 y.2.base y.2.log2)) = true := by unfold State.mboxReady State.mboxStarts; decide +kernel
def poisoned : State := let s := mbox world 3 [7, 0x40000000, 0]; { s with pool := { s.pool with pages := [(512, { st := .poisoned, place := .hot 4 none })], poison := [(0x40000040 / 64, true)] } }
theorem witness_Mbox_pageClear : let s := poisoned; s.wf = true ∧ s.mboxReady 3 0x07 ∧ 0x40000000 = s.mbox 3 1 + s.mbox 3 2 * 2 ^ 32 ∧ 0x40000000 % 2 ^ 21 = 0 ∧ s.extAt 0x40000000 = some 3 ∧ (s.ext 3).st = .active ∧ s.fenced (s.ext 3).part = false ∧
    (s.page (0x40000000 / 2 ^ 21)).st = .poisoned := by unfold State.mboxReady State.mboxStarts; decide +kernel
theorem witness_Mbox_reserved : ∀ o ∈ [0, 8, 0x23, 255], o ∉ [0x01, 0x02, 0x03, 0x04, 0x05, 0x06, 0x07, 0x10, 0x11, 0x12, 0x13, 0x20, 0x21, 0x22, 0x24, 0x25] ∧ (mbox world 3 [o]).wf = true ∧ (mbox world 3 [o]).mboxReady 3 o := by unfold State.mboxReady State.mboxStarts; decide +kernel
theorem test_mbox_revoke_drains : ((after (execMboxExtRevoke 3 (withExt (mbox world 3 [2, 3, 0]) { ext3 with openReq := 2 }))).ext 3).st = .draining := by decide +kernel

def device (k : Nat) : TrayDev := { kind := k, bytes := 2 ^ 40, zones := 1000, cz := 4096, fits := true }
theorem witness_Mbox_attach : ∀ e ∈ [(0, 3, 3), (1, 2, 0)], let s := mbox (put world [(F.BRIM_OCTET.MODE, [e.2.2, 9], e.2.1)]) 3 [0x10, 5 + e.2.2 * 64 + 36 * 512 + e.1 * 2 ^ 15]; s.wf = true ∧ s.mboxReady 3 0x10 ∧ s.mbox 3 1 % 64 = 5 ∧ bits (s.mbox 3 1) 6 3 = e.2.2 ∧ bits (s.mbox 3 1) 9 6 = 36 ∧
    bits (s.mbox 3 1) 15 1 = e.1 ∧ s.trayAt 5 = none ∧ e.2.2 ≤ 3 ∧ (device e.1).kind = e.1 ∧ s.r F.BRIM_OCTET.MODE [e.2.2, 36 / 4] = (if e.1 = 1 then 2 else 3) ∧ (e.1 = 1 → flashTrayOk (device e.1) = true) := by unfold State.mboxReady State.mboxStarts; decide +kernel
def tray (k : Nat) : Tray := { kind := k, die := 0, port := 0, cap := 2 ^ 40 }
/-- A world with four CXL trays. -/
def trays (s : State) : State := { s with pool := { s.pool with trays := [(5, some (tray 0)), (6, some (tray 0)), (7, some (tray 0)), (63, some (tray 0))] } }
theorem witness_Mbox_detach : let s := trays (mbox world 3 [0x11, 5]); s.wf = true ∧ s.mboxReady 3 0x11 ∧ s.trayAt (s.mbox 3 1 % 64) ≠ none ∧ s.pool.sets = [] := by unfold State.mboxReady State.mboxStarts; decide +kernel
theorem witness_Mbox_setDefine : ∀ e ∈ [(0, 2 ^ 5, 0, [5]), (1, 2 ^ 6 + 2 ^ 7, 2 ^ 31, [6, 7, 63])], let s := trays (mbox world 3 [0x12, 254 + e.1 * 256 + 6 * 1024, e.2.1, e.2.2.1]); s.wf = true ∧ s.mboxReady 3 0x12 ∧ s.mbox 3 1 % 256 = 254 ∧ bits (s.mbox 3 1) 8 2 = e.1 ∧ e.1 ≤ 1 ∧
    bits (s.mbox 3 1) 10 3 ≤ 6 ∧ s.sset 254 = none ∧ e.2.2.2 = (List.range 64).filter (fun i => bit (s.mbox 3 2 + s.mbox 3 3 * 2 ^ 32) i) ∧ e.2.2.2 ≠ [] ∧ e.2.2.2.length ≤ 32 ∧ (e.1 = 1 → 3 ≤ e.2.2.2.length ∧ e.2.2.2.length ≤ 16) ∧
    (∀ i ∈ e.2.2.2, s.trayAt i = some (tray 0)) := by unfold State.mboxReady State.mboxStarts; decide +kernel
def degraded : Machine.SSet := { mode := 1, unit := 0, staging := false, trays := [5, 6, 7], degraded := [6] }
def withSet (s : State) (y : Machine.SSet) : State := { s with pool := { s.pool with sets := [(4, some y)] } }
theorem witness_Mbox_rebuild : let s := withSet (trays (mbox world 3 [0x13, 4 + 6 * 256 + 63 * 2 ^ 14])) degraded; s.wf = true ∧ s.mboxReady 3 0x13 ∧ 4 = s.mbox 3 1 % 256 ∧ 6 = bits (s.mbox 3 1) 8 6 ∧ 63 = bits (s.mbox 3 1) 14 6 ∧ s.sset 4 = some degraded ∧ s.trayAt 6 = some (tray 0) ∧
    s.trayAt 63 = some (tray 0) ∧ 6 ∈ degraded.degraded ∧ 6 ∈ degraded.trays ∧ degraded.rebuild = none ∧ s.spare 6 = some 63 := by unfold State.mboxReady State.mboxStarts; decide +kernel
theorem witness_Mbox_connCreate : ∀ die ∈ [0, 7], let s := mbox world 3 [0x20, die * 2 ^ 16 + 2 * 2 ^ 20 + 0xff * 2 ^ 24, 1, 2, 3, 4, 5 + 7 * 2 ^ 16, 1, 2, 2 ^ 32 - 1, 77, 64, 1, 2, 3, 4]; s.wf = true ∧ s.mboxReady 3 0x20 ∧ die = bits (s.mbox 3 1) 16 3 ∧ s.partSt (s.newConn 3).part = ptActive ∧
    s.chkOk die (s.newConn 3).chk = true ∧ SMap.freshFrom (8192 * die) (s.btp.conns.filter (fun e => decide (8192 * die ≤ e.1))) < 8192 * (die + 1) := by unfold State.mboxReady State.mboxStarts; decide +kernel
theorem witness_Mbox_connModify : let s := mbox world 3 [0x21, 5 + 2 * 2 ^ 20 + 0x5f * 2 ^ 24, 1, 2, 3, 4, 5 + 8 * 2 ^ 16, 9, 2, 0, 0, 64, 1, 2, 3, 4]; s.wf = true ∧ s.mboxReady 3 0x21 ∧ 5 = s.mbox 3 1 % 65536 ∧ (s.conn 5).st = .open ∧ (s.newConn 3).part = (s.conn 5).part ∧
    s.partSt (s.conn 5).part = ptActive ∧ s.chkOk (connDie 5) (s.newConn 3).chk = true := by unfold State.mboxReady State.mboxStarts; decide +kernel
theorem witness_Mbox_connDestroy : ∀ x ∈ [{ conn5 with st := .error }, { conn5 with st := .fenced }, { conn5 with out := [pktOut 195 1] }], let s := mbox (withConn x) 3 [0x22, 5]; s.wf = true ∧ s.mboxReady 3 0x22 ∧ 5 = s.mbox 3 1 % 65536 ∧ ((s.conn 5).st = .error ∨ (s.conn 5).st = .fenced ∨ (s.conn 5).st = .open ∧ (s.conn 5).out ≠ []) := by
  unfold State.mboxReady State.mboxStarts; decide +kernel
theorem witness_Mbox_qp : let s := mbox world 3 [0x24, 2047 + 7 * 2 ^ 16 + 2 * 2 ^ 20 + 0xff * 2 ^ 24, 1, 2, 3, 4, 7 * 2 ^ 16, 1, 2, 2 ^ 24 - 1, 77, 64, 2 ^ 24 - 1, 0, 0, 0]; s.wf = true ∧ 16383 = bits (s.mbox 3 1) 16 3 * 2048 + s.mbox 3 1 % 2048 ∧ s.mboxReady 3 0x24 ∧ (s.qp 16383).live = false ∧
    s.partSt (s.newConn 3).part = ptActive ∧ s.mbox 3 6 % 65536 = 0 ∧ s.mbox 3 12 < 2 ^ 24 ∧ s.mbox 3 13 = 0 ∧ s.mbox 3 14 = 0 ∧ s.mbox 3 15 = 0 := by unfold State.mboxReady State.mboxStarts; decide +kernel
theorem witness_Mbox_qpDestroy : let s := mbox { world with btp := { world.btp with qps := [(16383, { live := true, part := 2 })] } } 3 [0x25, 16383]; s.wf = true ∧ 16383 = s.mbox 3 1 % 2 ^ 24 ∧ s.mboxReady 3 0x25 ∧ (s.qp 16383).live = true ∧ s.openQp 16383 = [] := by unfold State.mboxReady State.mboxStarts; decide +kernel

/-! ### Extents, pages, trays and flash trays -/

theorem witness_Extents_adding : let s := { withExt world { ext3 with st := .adding, slot := some 3 } with cleat := { upds := [{ src := .adding 3, op := world.homeOp 3 ext3 }] } }; s.wf = true ∧ (s.ext 3).st = .adding ∧ (∀ u ∈ s.cleat.upds, u.src = .adding 3) ∧ s.pool.waits = [] ∧ SMap.get none s.pool.routes (s.ext 3).base = none ∧
    s.cleatCheck (s.homeOp 3 (s.ext 3)) none true = clDone ∧ ((cleatDo (s.homeOp 3 (s.ext 3))).run s).cleatCheck (s.rightsOp 3 (s.ext 3)) none true = clDone ∧ (s.ext 3).slot = some 3 := by decide +kernel
theorem witness_Extents_turn : let s := { withExt world { ext3 with st := .adding, slot := some 3 } with cleat := { upds := [{ src := .set 4, op := world.homeOp 3 ext3 }, { src := .adding 3, op := world.homeOp 3 ext3 }] } }; s.wf = true ∧ (s.ext 3).st = .adding ∧
    s.addingTurn 3 = false := by decide +kernel
theorem witness_Extents_overlap : let s := withExt world { ext3 with st := .adding, slot := some 3 }; s.wf = true ∧ (s.ext 3).st = .adding ∧ SMap.get none s.pool.routes (s.ext 3).base = none ∧ s.cleatCheck (s.homeOp 3 (s.ext 3)) none true = clOverlap ∧ (s.ext 3).slot = some 3 := by decide +kernel
theorem witness_Extents_drain : let s := ask (withExt world { ext3 with st := .draining, openReq := 1 }) 50 load32; s.wf = true ∧ (s.ext 3).st = .draining ∧ s.hitch.txns = [] ∧ s.req 50 = some load32 ∧ load32.resp = false ∧ load32.ext = some 3 := by decide +kernel
theorem witness_Extents_release : let s := withExt world { ext3 with st := .releasing }; s.wf = true ∧ (s.ext 3).st = .releasing ∧ (s.ext 3).hasPage 512 = true ∧ (s.ext 3).hasPage 514 = false := by decide +kernel

def set4 : Machine.SSet := { mode := 0, unit := 0, staging := false, trays := [5] }
/-- A world with trays of a kind, stripe set 4 on tray 5, and pages. -/
def paged (kind : Nat) (l : List (Nat × Page)) (y : Machine.SSet) : State := put { world with pool := { world.pool with exts := [(3, { ext3 with set1 := 4, flags := 0 })], pages := l, trays := [(5, some (tray kind)), (6, some (tray kind)), (7, some (tray kind))], sets := [(4, some y)] } }
  [(F.TIER_CTRL.MIGRATE_EN, [], 1), (F.TIER_POLICY.PROMOTE_THRESH, [], 8)]
theorem witness_Extents_recover : let s := withExt (paged 0 [] set4) { ext3 with st := .recovering, set1 := 4, prot := 2, flags := 0 }; s.wf = true ∧ (s.ext 3).st = .recovering ∧ s.coldFloor (s.ext 3) = false ∧ (s.ext 3).compressed = false := by decide +kernel

def warm : State := paged 0 [(512, { st := .valid, place := .floor, cnt := 8 }), (513, { st := .valid, place := .floor, cnt := 7 })] set4
def chosen : State := after (execPlacementWindowExpiry warm)
theorem witness_Pages_window : warm.wf = true ∧ warm.r F.TIER_CTRL.MIGRATE_EN [] = 1 ∧ warm.r F.TIER_POLICY.PROMOTE_THRESH [] ≤ (warm.page 512).cnt ∧ ¬ warm.r F.TIER_POLICY.PROMOTE_THRESH [] ≤ (warm.page 513).cnt ∧ warm.movable 512 = true ∧ warm.promotable 512 = true := by decide +kernel
theorem witness_Pages_start : chosen.wf = true ∧ chosen.extAt (512 * 2 ^ 21) = some 3 ∧ chosen.movable 512 = true ∧ chosen.called 512 .promote = true ∧ (chosen.moveTo (chosen.ext 3) 512 .promote).isSome = true := by decide +kernel
/-- A hot tier so full that its free part is below the low water mark. -/
def full : State := put { paged 0 ((List.range 165).map fun i => (512 + i, { st := .valid, place := .hot (2 * i) (some (2 * i + 1)), floorValid := true, used := i })) set4 with
  pool := { (paged 0 ((List.range 165).map fun i => (512 + i, { st := .valid, place := .hot (2 * i) (some (2 * i + 1)), floorValid := true, used := i })) set4).pool with exts := [(3, { ext3 with set1 := 4, flags := 0, log2 := 30 })] } }
  [(F.TIER_POLICY.HBM_LOW_WATER, [], 255), (F.TIER_HBM_CFG.RESERVED_GIB, [], 127)]
theorem witness_Pages_demote : full.wf = true ∧ full.extAt (512 * 2 ^ 21) = some 3 ∧ full.r F.TIER_CTRL.MIGRATE_EN [] = 1 ∧ full.movable 512 = true ∧ 256 * full.hotFree < full.r F.TIER_POLICY.HBM_LOW_WATER [] * full.hotTotal ∧ full.demotable 512 = true ∧
    (∀ n, full.demotable n = true → (full.page 512).used ≤ (full.page n).used) ∧ (full.page 512).floorValid = true :=
  ⟨by decide +kernel, by decide +kernel, by decide +kernel, by decide +kernel, by decide +kernel, by decide +kernel, fun n _ => (by decide +kernel : (full.page 512).used = 0) ▸ Nat.zero_le _, by decide +kernel⟩
/-- A page under migration. -/
def moving (m : Migr) : State := { warm with pool := { warm.pool with migs := [(512, some m)] } }
def migr : Migr := { kind := .promote, dst := .hot 9 none }
theorem witness_Pages_copy : ∀ m ∈ [migr, { migr with recopy := 5, rounds := 3 }, { migr with recopy := 5, rounds := 4 }], (moving m).wf = true ∧ SMap.get none (moving m).pool.migs 512 = some m ∧ m.verify = false ∧ m.cold = false := by decide +kernel
theorem witness_Pages_verify : let m := { migr with verify := true }; (moving m).wf = true ∧ SMap.get none (moving m).pool.migs 512 = some m ∧ m.verify = true ∧ m.cold = false ∧ ((moving m).extAt (512 * 2 ^ 21)).isSome = true := by decide +kernel
def fetching : Prefetch := { op := 40, ext := 3, staging := false, deadline := 5, pages := [512] }
theorem witness_Pages_deadline : let s : State := { warm with pool := { warm.pool with prefetch := [fetching] } }; s.wf = true ∧ s.pool.prefetch.find? (fun f => decide (f.op = 40)) = some fetching ∧ fetching.late = false ∧ s.r F.TIER_CTRL.MIGRATE_EN [] = 1 := by decide +kernel
theorem witness_Pages_tray : warm.trayAt 5 = some (tray 0) ∧ (tray 0).lost = false ∧ warm.sset 4 = some set4 ∧ 5 ∈ set4.trays := by decide +kernel
theorem witness_Pages_rebuild : let y := { degraded with rebuild := some (6, 1) }; let s := paged 0 [] y; s.wf = true ∧ s.sset 4 = some y ∧ y.rebuild = some (6, 1) ∧ s.coldSet 4 = false ∧ s.r F.TIER_CTRL.AUTO_REBUILD [] = 0 ∧ (∀ x ∈ s.pool.exts, s.fenced x.2.part = false) := by decide +kernel
theorem witness_Pages_pause : let y := { degraded with rebuild := some (6, 1) }; let s := put (paged 0 [(512, { st := .valid, place := .hot 4 none })] y) [(F.CROWN_PART_CTRL.STATE, [2], ptFenced)]; s.wf = true ∧ s.sset 4 = some y ∧ y.rebuild ≠ none ∧
    (s.page 512).st ≠ .zero ∧ s.extAt (512 * 2 ^ 21) = some 3 ∧ s.fenced (s.ext 3).part = true ∧ 4 ∈ (s.ext 3).floors.map (·.1) := by decide +kernel
theorem test_verified_page_is_placed : ((after (execPageMigrationVerifyDone 512 true (moving { migr with verify := true }))).page 512).place = .hot 9 none := by decide +kernel

/-- A flash tray with two root zones, a journal zone, a data zone, a dropped zone and the destination of a collection. -/
def flash5 : Flash := { zones := 100, cz := 4096, zn := [(0, { role := .root }), (1, { role := .root }), (2, { role := .journal, wp := 3 }), (3, { role := .data, wp := 4 }), (4, { role := .dropped }), (5, { role := .gc, wp := 2 })], jz := some 2, data := some 3, jseq := 20, map := [(10, 3 * 65536 + 1), (11, 3 * 65536 + 3)] }
def flashed (f : Flash) : State := { paged 1 [] set4 with pool := { (paged 1 [] set4).pool with flash := [(5, f)] } }
def group : JGroup := { recs := [{ typ := 1, n := 1, chunk := 12, jseq := 19, newZone := 3, newOff := 4, last := true }], left := 1, acked := true }
theorem witness_Flash_sound : (flashed flash5).wf = true ∧ SMap.wf {} ((flashed flash5).flash 5).zn = true := by decide +kernel
theorem witness_Flash_append : ∀ g ∈ [group, { group with left := 2 }], let s := flashed { flash5 with groups := [g] }; s.wf = true ∧ (s.flash 5).groups = g :: [] ∧ (s.flash 5).jz = some 2 ∧ (s.flash 5).recovering = false ∧ (2 ≤ g.left ∨ g.left = 1 ∧ g.acked = true ∧ g.act = .none) := by decide +kernel
theorem witness_Flash_failed : let s := flashed { flash5 with groups := [group] }; (s.flash 5).groups = group :: [] ∧ 0 < group.left ∧ ((s.flash 5).take .journal).isSome = true := by decide +kernel
theorem witness_Flash_partner : let g := { group with acked := false }; let s := flashed { flash5 with groups := [g] }; s.wf = true ∧ (s.flash 5).groups = g :: [] ∧ 0 < g.left ∧ g.acked = false ∧ (s.flash 5).owed = [] ∧ g.alone = false ∧ ((flashed { flash5 with owed := [g.recs] }).flash 5).owed = g.recs :: [] := by decide +kernel
theorem witness_Flash_checkpoint : ∀ e ∈ [true, false], let c : Ckpt := { start := 7, zone := 6, blocks := 3, ended := e }; let s := flashed { flash5 with ckpt := some c, roots := 9 }; s.wf = true ∧ (s.flash 5).ckpt = some c ∧ c.ended = e := by decide +kernel
theorem witness_Flash_mapPage : let s := flashed { flash5 with reads := [8, 9] }; s.wf = true ∧ 9 ∈ (s.flash 5).reads ∧ s.pool.mapCache.length < s.mapPages := by decide +kernel
def cold (n : Nat) : Migr := { kind := .demote, dst := .floor, cold := true, verify := true, restarts := n, locs := [(5, 40, 3, 4)] }
theorem witness_Flash_demotion : let s : State := { flashed flash5 with pool := { (flashed flash5).pool with pages := [(512, { st := .migrating, place := .hot 4 none })], migs := [(512, some (cold 1))] } }; s.wf = true ∧ SMap.get none s.pool.migs 512 = some (cold 1) ∧ (cold 1).cold = true ∧ (cold 1).verify = true ∧
    (cold 1).locs ≠ [] ∧ (cold 1).trays = [] ∧ (cold 1).restarts < 2 := by decide +kernel
theorem witness_Flash_epoch : let s := put (flashed flash5) [(F.CROWN_KEY_EPOCH.EPOCH, [15], 7)]; s.wf = true ∧ 6 < s.r F.CROWN_KEY_EPOCH.EPOCH [15] ∧ s.r F.CROWN_KEY_EPOCH.EPOCH [15] ≤ 7 ∧ s.pool.rows = [] := by decide +kernel
theorem witness_Flash_row : let s := { paged 0 [] { degraded with degraded := [] } with pool := { (paged 0 [] { degraded with degraded := [] }).pool with rows := [(4, 9)] } }; s.wf = true ∧ s.pool.rows.head? = some (4, 9) ∧ s.sset 4 = some { degraded with degraded := [] } ∧
    ({ degraded with degraded := [] } : Machine.SSet).parityTray 9 ∈ [5, 6, 7] := by decide +kernel
theorem witness_Zones_collect : ∀ st ∈ [GcStage.copy, .check], let g : Gc := { src := 3, dst := 5, evac := false, stage := st }; let s := flashed { flash5 with gc := some g }; s.wf = true ∧ (s.flash 5).gc = some g ∧ g.stage = st ∧ ((s.flash 5).zone g.dst).role ≠ .retired := by decide +kernel
theorem witness_Zones_reset : let s := flashed flash5; s.wf = true ∧ ((s.flash 5).zone 4).role = .dropped ∧ (s.flash 5).groups.any (fun g => decide (g.act = .free 4)) = false := by decide +kernel
theorem witness_Zones_retire : ∀ z ∈ [0, 3, 99], z < ((flashed flash5).flash 5).zones ∧ (((flashed flash5).flash 5).zone z).role ≠ .retired ∧ (((flashed flash5).flash 5).zone z).offline = false := by decide +kernel
theorem test_zone_read_only_retires : (((after (execZoneReadOnly 5 99 (flashed flash5))).flash 5).zone 99).role = .retired := by decide +kernel

/-! ### CXL agents -/

/-- The Cleat of a port with tag t: a byte range granted to it, the rights of its tag to extent 3, and the home of extent 3. -/
def grantEnt (t : Nat) : CleatEnt := { tag := t, lo := 0x1000, hi := 0xffff, result := 5 * 2 ^ 60 + 3 * 2 ^ 52 + 0x40000000, sys := false }
def rightsEnt (t part : Nat) : CleatEnt := { tag := t, lo := hall 0x40000000, hi := hall 0x403fffff, result := 1 * 2 ^ 60 + part * 2 ^ 24 + 3 * 16 + 7, sys := false }
def homeEnt (part : Nat) : CleatEnt := { tag := 0xffff, lo := hall 0x40000000, hi := hall 0x403fffff, result := 8 * 2 ^ 60 + part * 2 ^ 20 + 3, sys := true }
def portEnts (t part : Nat) : List CleatEnt := [grantEnt t, rightsEnt t part, homeEnt part]
theorem look_grant (t part : Nat) (ht : t < 0xE000) : cleatLook (portEnts t part) t 0x1040 = .hit (grantEnt t) := by
  have : t ≠ 0xfffe := by omega
  simp [cleatLook, cleatFind, portEnts, grantEnt, this]
theorem look_rights (t part k : Nat) (ht : t < 0xE000) (h : hall 0x40000000 ≤ k) (h' : k ≤ hall 0x403fffff) : cleatLook (portEnts t part) t k = .hit (rightsEnt t part) := by
  have : ¬ k ≤ 0xffff := by unfold hall at h; omega
  have : t ≠ 0xfffe := by omega
  simp [cleatLook, cleatFind, portEnts, grantEnt, rightsEnt, *]
theorem look_home (t part k : Nat) (ht : t < 0xE000) (h : hall 0x40000000 ≤ k) (h' : k ≤ hall 0x403fffff) : cleatLook (portEnts t part) 0xffff k = .hit (homeEnt part) := by
  have : t ≠ 0xffff := by omega
  simp [cleatLook, cleatFind, portEnts, grantEnt, rightsEnt, homeEnt, *]
theorem portTag_lt (p : Nat) : portTag p < 0xE000 := Nat.mod_lt _ (by decide)
theorem portTag_rights (p : Nat) : isRightsTag (portTag p) = true := by have := portTag_lt p; simp [isRightsTag]; omega

def ext3c : Ext := { ext3 with flags := 1 + 16 + 8 }
/-- Agents 4 and 9 of partition 2; agent 4, in a state and of a kind, is on port 70. -/
def agents (st kind : Nat) : State := put { world with pool := { world.pool with exts := [(3, ext3c)] }, cleat := { ents := portEnts (portTag 70) 2 } }
  [(F.HITCH_AGENT.VALID, [4], 1), (F.HITCH_AGENT.KIND, [4], kind), (F.HITCH_AGENT.PARTITION, [4], 2), (F.HITCH_AGENT.DIE, [4], 1), (F.HITCH_AGENT.PORT, [4], 6), (F.HITCH_AGENT.STATE, [4], st),
   (F.HITCH_AGENT.VALID, [9], 1), (F.HITCH_AGENT.PARTITION, [9], 2), (F.HITCH_AGENT.DIE, [9], 1), (F.HITCH_AGENT.PORT, [9], 7), (F.HITCH_AGENT.STATE, [9], 1)]
def line3 : Nat := 0x40000040 / 64
/-- A directory in which agents hold the line. -/
def holds (s : State) (em : Bool) (h : List Nat) : State := { s with hitch := { s.hitch with dir := [(line3, some { line := line3, em := em, holders := h, part := 2, way := 3 })] } }
theorem agents_ents (s : State) (h : s.cleat = (agents 1 0).cleat) : s.cleat.ents = portEnts (portTag 70) 2 := by rw [h]; rfl

/-- The map and the rights of port 70 in a world with its Cleat. -/
theorem hostMap_70 (s : State) (h : s.cleat.ents = portEnts (portTag 70) 2) : s.hostMap 70 0x1040 = some (0x40000040, 3) := by
  have ht := portTag_rights 70
  simp [State.hostMap, State.look, h, look_grant _ _ (portTag_lt 70), CleatEnt.kind, grantEnt, ht]; decide
theorem resolve_70 (s : State) (q : Req) (cause p : Nat) (hp16 : p < 16) (h : s.cleat.ents = portEnts (portTag 70) p) (hq : q.addr = hall 0x40000040 ∧ q.span = 64) (hp : q.part = p) (hold : q.old = false)
    (hs : s.r F.FELT_STAGE.STAGE_ID [] = 1 ∧ s.slotOf 0x40000040 = none) (hn : q.need = 1 ∨ q.need = 2) (ho : q.op ≠ 0x13) (he : (s.ext 3).part = p) (hv : s.homeVerdict q (some (portTag 70)) 3 = .serve .home (some 3) none) :
    s.resolve q (portTag 70) cause = .serve .home (some 3) none := by
  have ht := portTag_lt 70
  have l1 : s.look (portTag 70) (hall 0x40000040) = .hit (rightsEnt (portTag 70) p) := by rw [State.look, h]; exact look_rights _ _ _ ht (by decide) (by decide)
  have l2 : s.look (portTag 70) (hall 0x40000040 + 64 - 1) = .hit (rightsEnt (portTag 70) p) := by rw [State.look, h]; exact look_rights _ _ _ ht (by decide) (by decide)
  have l3 : s.look tagLocation (hall 0x40000040) = .hit (homeEnt p) := by rw [State.look, h]; exact look_home _ _ _ ht (by decide) (by decide)
  have e1 : (rightsEnt (portTag 70) p).kind = 1 := by simp [rightsEnt, CleatEnt.kind]; omega
  have e2 : bits (rightsEnt (portTag 70) p).result 24 4 = p := by simp [rightsEnt, bits]; omega
  have e3 : (rightsEnt (portTag 70) p).access = 7 := by rw [CleatEnt.access, e1]; simp [rightsEnt]; omega
  have r : s.rights (portTag 70) q.part (hall 0x40000040) q.span q.need (decide (q.op = 0x13)) = .ok := by
    rw [hq.2, hp]
    simp only [State.rights, portTag_rights, l1, l2, not_true, if_false]
    rcases hn with hn | hn <;> simp [hn, ho, e1, e2, e3]
  have lo : s.location q (portTag 70) = .serve .home (some 3) none := by
    have l4 : s.lookRoute q.old (hall 0x40000040) = .hit (homeEnt p) := by rw [hold]; exact l3
    simp only [State.location, hq.1, hq.2, l4]
    have a1 : (homeEnt p).kind = 8 := by simp [homeEnt, CleatEnt.kind]; omega
    have a2 : (homeEnt p).result % 1048576 = 3 := by simp [homeEnt]; omega
    have a3 : bits (homeEnt p).result 20 4 = p := by simp [homeEnt, bits]; omega
    have a4 : ¬ (homeEnt p).hi < hall 0x40000040 + 63 := by simp only [homeEnt]; decide
    simp [a1, a2, a3, hp, he, hv, a4]
  have m : hall 0x40000040 % 2 ^ 52 = 0x40000040 := by decide
  have n : hall 0x40000040 / 2 ^ 52 = 1 := by decide
  simp only [State.resolve, hq.1, hs.1, lo, m, n, r, hs.2]
  simp

/-- What agentTurn asks beside the map and the rights. -/
theorem agentTurn_70 (s : State) (op : CxlOp) (h : s.cleat.ents = portEnts (portTag 70) 2)
    (hd : s.agentOf 70 = some 4 ∧ s.portShut 70 = false ∧ s.agentSt 4 = agActive ∧ s.hitch.txns = [] ∧ s.hitch.stalls = [] ∧ s.hitch.ingress = [] ∧ SMap.get false s.pool.poison line3 = false ∧ (s.page (line3 * 64 / 2 ^ 21)).st ≠ .poisoned ∧ s.fenced (s.agentPart 4) = false ∧
      s.r F.HITCH_CTRL.HITCH_EN [] = 1 ∧ s.r F.HITCH_WAYMASK.WAYS [s.agentPart 4] ≠ 0 ∧ s.txnRoom (s.agentPart 4) 1 = true ∧ s.agentPart 4 = 2 ∧ s.hall (0x40000040 / 64 * 64) = hall 0x40000040 ∧ (s.ext 3).part = 2 ∧ (s.ext 3).coherent = true ∧
      s.r F.FELT_STAGE.STAGE_ID [] = 1 ∧ s.slotOf 0x40000040 = none)
    (ho : op.asOp = 0x10 ∨ op.asOp = 0x11) (hv : s.homeVerdict { src := .agent 4, op := op.asOp, part := 2, addr := hall 0x40000040, len := 64 } (some (portTag 70)) 3 = .serve .home (some 3) none) :
    s.agentTurn 70 0x1040 4 line3 op := by
  obtain ⟨h1, h2, h3, h4, ha, hb, h5, h6, h7, h8, h9, h10, h11, h12, h13, h14, h15, h16⟩ := hd
  refine ⟨h1, h2, h3, h4, ha, hb, h5, h6, h7, h8, h9, h10, 0x40000040, 3, 3, none, hostMap_70 s h, by decide, ?_, ?_, h14, by rw [h13, h11]⟩
  · rcases ho with ho | ho <;> simp [ho]
  · rw [h11, h12]
    refine resolve_70 s _ _ 2 (by decide) h ⟨rfl, ?_⟩ rfl rfl ⟨h15, h16⟩ ?_ ?_ h13 hv
    · rcases ho with ho | ho <;> simp [Req.span, ho] <;> rfl
    · rcases ho with ho | ho <;> simp [Req.need, ho]
    · rcases ho with ho | ho <;> simp [ho]

/-- Both kinds of agent, and the directory states of the statements: every operation has its turn. -/
theorem witness_AgentTurn : ∀ op ∈ [CxlOp.rdCurr, .memRdData, .rdShared, .rdAny, .rdOwn, .rdOwnNoData, .itoMWr, .wrCur, .wrInv, .clFlush, .cleanEvict, .cleanEvictNoData, .memClnEvct, .dirtyEvict, .memWr],
    (agents 1 0).agentTurn 70 0x1040 4 line3 op ∧ (agents 1 1).agentTurn 70 0x1040 4 line3 op ∧ (holds (agents 1 0) true [4]).agentTurn 70 0x1040 4 line3 op ∧ (holds (agents 1 0) false [4, 9]).agentTurn 70 0x1040 4 line3 op := by
  intro op _
  have ho : op.asOp = 0x10 ∨ op.asOp = 0x11 := by cases op <;> simp [CxlOp.asOp]
  refine ⟨agentTurn_70 _ op rfl (by decide +kernel) ho ?_, agentTurn_70 _ op rfl (by decide +kernel) ho ?_, agentTurn_70 _ op rfl (by decide +kernel) ho ?_, agentTurn_70 _ op rfl (by decide +kernel) ho ?_⟩ <;>
    rcases ho with ho | ho <;> rw [ho] <;> decide +kernel
theorem witness_Agents_free : ∀ k ∈ [0, 1], (agents 1 k).wf = true ∧ (agents 1 k).dirAt line3 = none ∧ ((agents 1 k).freeWay line3 ((agents 1 k).agentPart 4)).isSome = true ∧ (agents 1 k).r F.HITCH_CTRL.NO_E [] = 0 ∧ ((agents 1 k).extAt (line3 * 64)).isSome = true := by decide +kernel
theorem witness_Agents_held : ∀ em ∈ [true, false], let s := holds (agents 1 0) em [4]; s.wf = true ∧ (s.dirAt line3).map (·.holders) = some [4] ∧ (s.dirAt line3).map (·.em) = some em ∧ (s.extAt (line3 * 64)).isSome = true := by decide +kernel
theorem witness_Agents_shared : let s := holds (agents 1 0) false [4, 9]; s.wf = true ∧ (s.dirAt line3).map (·.holders) = some [4, 9] ∧ (s.dirAt line3).map (·.em) = some false ∧ [4, 9].filter (· ≠ 4) ≠ [] ∧ ∀ m ∈ [4, 9], s.agentSt m = agActive := by decide +kernel
/-- A port without an agent, whose partition and tag are free. -/
def portOnly : State := put { world with pool := { world.pool with exts := [(3, { ext3 with part := Config.portPart 70 % 16 })] }, cleat := { ents := portEnts (portTag 70) (Config.portPart 70 % 16) } } []
theorem witness_Agents_port : portOnly.wf = true ∧ portOnly.agentOf 70 = none ∧ portOnly.portShut 70 = false ∧ portOnly.hostMap 70 0x1040 = some (0x40000040, 3) ∧ (3 : Nat) &&& 1 = 1 ∧ portOnly.fenced (Config.portPart 70 % 16) = false ∧
    portOnly.resolve { src := .cxlPort 70, op := 0x10, part := Config.portPart 70 % 16, addr := portOnly.hall (0x40000040 / 64 * 64), len := 64 } (portTag 70) 0x830 = .serve .home (some 3) none := by
  have h : portOnly.cleat.ents = portEnts (portTag 70) (Config.portPart 70 % 16) := rfl
  refine ⟨by decide +kernel, by decide +kernel, by decide +kernel, ?_, by decide, (by decide +kernel : ∀ p < 16, portOnly.fenced p = false) _ (Nat.mod_lt _ (by decide)), ?_⟩
  · have ht := portTag_rights 70
    simp [State.hostMap, State.look, h, look_grant _ _ (portTag_lt 70), CleatEnt.kind, grantEnt, ht]; decide
  · refine resolve_70 _ _ _ _ (Nat.mod_lt _ (by decide)) h ⟨by decide +kernel, rfl⟩ rfl rfl (by decide +kernel) (.inl rfl) (by decide) rfl ?_
    decide +kernel

/-- A transaction on the line that waits for snooped agents. -/
def snoops (s : State) (k : TxnKind) (w : List Nat) : State := { s with hitch := { s.hitch with txns := [(line3, some { kind := k, snoop := .inv, waitFor := w })] } }
theorem witness_Snoops_none : (agents 1 0).wf = true ∧ line3 ≠ probeLine ∧ (agents 1 0).snooped 4 line3 = false := by decide +kernel
theorem witness_Snoops_first : let s := snoops (holds (agents 1 0) false [4, 9]) (.cxl .rdOwn 7 [] false) [9, 4]; s.wf = true ∧ (s.txnAt line3).map (·.waitFor) = some [9, 4] ∧ [9, 4].erase 4 ≠ [] ∧ (s.dirAt line3).map (·.holders) = some [4, 9] ∧ [4, 9].filter (· ≠ 4) ≠ [] ∧
    (s.extAt (line3 * 64)).isSome = true := by decide +kernel
theorem dirAt_holds {s : State} {em : Bool} {h : List Nat} {k : Nat} {e : DirEnt} (hk : (holds s em h).dirAt k = some e) : k = line3 := by
  rcases Decidable.em (k = line3) with h | h
  · exact h
  · simp [State.dirAt, holds, SMap.get, SMap.find, h] at hk
theorem witness_Snoops_last : let s := snoops (holds (agents 1 0) true [4]) (.cxl .rdOwn 9 [] false) [4]; (s.wf = true ∧ s.agentSt 9 = agActive ∧ s.hitch.stalls = [] ∧ s.hitch.ingress = []) ∧ s.hitch.txns = [(line3, some { kind := .cxl .rdOwn 9 [] false, snoop := .inv, waitFor := [4] })] ∧
    s.dirAt line3 = some { line := line3, em := true, holders := [4], part := 2, way := 3 } ∧ bit (s.r F.HITCH_WAYMASK.WAYS [s.agentPart 9]) 3 = true ∧ (∀ k e, s.dirAt k = some e → dirSet k = dirSet line3 → k ≠ line3 → e.way ≠ 3) ∧ SMap.get false s.pool.poison line3 = false ∧
    (s.page (line3 * 64 / 2 ^ 21)).st ≠ .poisoned :=
  ⟨by decide +kernel, rfl, by decide +kernel, by decide +kernel, fun k e h _ n => absurd (dirAt_holds (s := agents 1 0) (em := true) (h := [4]) h) n, by decide +kernel, by decide +kernel⟩
theorem witness_Probes : let s := agents 1 0; s.agentSt 4 = agActive ∧ s.agentSt 9 = agActive ∧ s.linkQuiet 4 = false ∧ SMap.get 0 s.hitch.probes 4 + 1 < s.r F.HITCH_TIMING.HB_MISS [] ∧
    (snoops (holds s true [4]) (.cxl .rdOwn 9 [] false) [4]).snooped 4 line3 = true := by decide +kernel
theorem witness_Probes_missed : let s : State := { agents 1 0 with hitch := { (agents 1 0).hitch with probes := [(4, 2)] } }; s.wf = true ∧ s.agentSt 4 = agActive ∧ s.linkQuiet 4 = false ∧ s.r F.HITCH_TIMING.HB_MISS [] ≤ SMap.get 0 s.hitch.probes 4 + 1 := by decide +kernel
theorem witness_Probes_quiet : let s := put (agents 1 0) [(F.BRIM_PORT.LINK_STATE, [1, 6], lkFenced)]; s.wf = true ∧ s.agentSt 4 = agActive ∧ s.linkQuiet 4 = true ∧ s.link (s.agentPort 4) = lkFenced ∧ (agents 1 0).link ((agents 1 0).agentPort 4) ≠ lkFenced := by decide +kernel
theorem witness_LossWalk : let s := holds (agents 2 0) true [4]; s.wf = true ∧ s.agentSt 4 = agRecalling ∧ 4 ∉ s.hitch.heldValid ∧ s.hitch.stalls = [] ∧ s.hitch.ingress = [] ∧ (s.dirAt line3).map (·.holders) = some [4] := by decide +kernel
theorem witness_PoisonClear : let s := put { agents 1 0 with pool := { (agents 1 0).pool with poison := [(line3, true)] } } [(F.HITCH_POISON_ADDR.LINE, [], line3)]; s.wf = true ∧ s.reach 0x1002000 = true ∧ s.r F.HITCH_POISON_CTRL.GO [] = 0 ∧ s.r F.HITCH_POISON_CTRL.MODE [] = 0 ∧
    s.r F.HITCH_POISON_ADDR.LINE [] = line3 ∧ s.hitch.txns = [] ∧ s.hitch.stalls = [] ∧ s.hitch.ingress = [] ∧ s.dirAt line3 = none ∧ SMap.get false s.pool.poison line3 = true := by decide +kernel
theorem test_link_down_recalls : (after (execAgentLinkDown 4 (agents 1 0))).agentSt 4 = agRecalling := by decide +kernel

/-! ### Programs, contexts, engines and knots -/

/-- Command words in a program slot. -/
def prog (s : State) (v : Option Nat) (slot : Nat) (w : List Nat) : State := put s (w.zipIdx.map fun e => match v with | none => (F.CROWN_PROG.CMD, [slot, e.2], e.1) | some p => (F.VIEW_PROG.CMD, [p, slot, e.2], e.1))
theorem witness_Programs_reserved : ∀ o ∈ [0, 8, 0x12, 0xff], o ∉ [1, 2, 3, 4, 5, 6, 7, 0x10, 0x11] ∧ (prog world none 3 [o]).wf = true ∧ (prog world none 3 [o]).slotReady none 3 o ∧ (prog world (some 2) 1 [o]).wf = true ∧ (prog world (some 2) 1 [o]).slotReady (some 2) 1 o := by
  simp only [State.slotReady]; decide +kernel
/-- One instruction, halt, and an image of it. -/
def halt : List Byte := leBytes 8 (0x16 * 2 ^ 56)
def image (level : Nat) : List Byte := leBytes 4 0x31465051 ++ [byt level, 0, 0, 0] ++ leBytes 2 1 ++ leBytes 2 0 ++ leBytes 4 8 ++ leBytes 4 0 ++ leBytes 4 0 ++ leBytes 2 0 ++ leBytes 6 0 ++ sha256 halt ++ halt
def prog0 : Prg := { prog11 with part := 3 }
/-- A slot about to load the image that lies at 0x40001000. -/
def loading (img : List Byte) : State := prog (put { world with
    pool := { world.pool with mem := world.pool.mem ++ (img.zipIdx.map (fun (e : Byte × Nat) => (0x40001000 + e.2, e.1))).filter (fun (e : Nat × Byte) => e.2 ≠ 0) }
    eng := { world.eng with progs := [(0, some prog0)] } } [(F.SPL_PART_ACCESS.VALID, [0, 2], 1), (F.SPL_PART_ACCESS.CLEAT_TAG, [0, 2], 7)]) none 3 [1, 2 * 2 ^ 20, hall 0x40001000 % 2 ^ 32, hall 0x40001000 / 2 ^ 32, 72, 0, 0, 0]
/-- The number of the result with which an image is refused; 0 where it is taken. -/
def refusal (x : Except Nat Prg) : Nat := match x with | .ok _ => 0 | .error e => e
theorem witness_Programs_load : let s := loading (image 1); s.wf = true ∧ s.slotReady none 3 1 ∧ bits (s.slotWord none 3 1) 20 4 = 2 ∧ s.slotWord none 3 7 ≤ 4096 ∧ s.partSt 2 = ptActive ∧ s.firmwareRead 2 (s.slotPair none 3 2) (s.slotWord none 3 4) .ok [] = some (image 1) ∧
    refusal (s.finalize 2 (image 1) (s.firmwareRead 2 (s.slotPair none 3 5) (8 * s.slotWord none 3 7) .ok [])) = 0 ∧ s.programs.length < 4096 ∧ s.programs.countP (fun e => decide (e.2.part = 2)) < 1024 := by
  simp only [State.slotReady]; decide +kernel
theorem witness_Programs_badImage : let s := loading ((image 1).set 70 (byt 3)); s.wf = true ∧ s.slotReady none 3 1 ∧ s.firmwareRead 2 (s.slotPair none 3 2) (s.slotWord none 3 4) .ok [] = some ((image 1).set 70 (byt 3)) ∧
    refusal (s.finalize 2 ((image 1).set 70 (byt 3)) (s.firmwareRead 2 (s.slotPair none 3 5) (8 * s.slotWord none 3 7) .ok [])) = 0x10 := by
  simp only [State.slotReady]; decide +kernel
def prog7 : Prg := { part := 2, level := 1, atiles := 3, chkSlots := 1, handles := 2, scr := 4, clu := 5, entry := 8, shared := false, service := false, code := halt ++ halt, starts := [0, 8] }
def loaded (s : State) : State := { s with eng := { s.eng with progs := [(7, some prog7)] } }
theorem witness_Programs_unload : (loaded (prog world none 3 [2, 7])).wf = true ∧ (loaded (prog world none 3 [2, 7])).slotReady none 3 2 ∧ (loaded (prog world (some 2) 1 [2, 7])).slotReady (some 2) 1 2 ∧ (loaded (prog world none 3 [2, 7])).slotWord none 3 1 % 4096 = 7 ∧
    SMap.get none (loaded (prog world none 3 [2, 7])).eng.progs 7 = some prog7 ∧ (loaded (prog world none 3 [2, 7])).ctxsOf 7 = [] ∧ (loaded (prog world none 3 [2, 7])).namedByKnot 7 prog7.part = false := by simp only [State.slotReady]; decide +kernel
/-- A slot about to place program 7 on context 4095, to run or to park. -/
def placing (mode : Nat) : State := loaded (prog world none 3 [3, 7, 1, 0xff + mode * 256 + 2 ^ 10, 4095, 1, 2, 3, 4, 5, 6])
theorem witness_Programs_place : ∀ m ∈ [0, 1], let s := placing m; s.wf = true ∧ s.slotReady none 3 3 ∧ s.slotWord none 3 2 % 2 ^ 13 = 1 ∧ bit (s.slotWord none 3 3) 10 = true ∧ 4095 = s.slotWord none 3 4 % 4096 ∧ s.partSt prog7.part = ptActive ∧
    bit (s.slotWord none 3 3 % 256) (ctxDie 4095) = true ∧ s.engAvail (ctxEng 4095) = true ∧ (s.ctx 4095).placed = false ∧ (s.fitAt (prog7.need 7) none 4095).isSome = true := by simp only [State.slotReady]; decide +kernel

def ctx10 (st : CtxState) : Ctx := { st := st, part := 2, prog := 7, scrBase := 1, scrSize := 2, cluBase := 3, cluSize := 4, pc := 8 }
/-- Context 10 beside context 9. -/
def withCtx (s : State) (x : Ctx) : State := let s := loaded s; { s with eng := { s.eng with ctxs := [(9, { x with prog := 3 }), (10, x)] } }
/-- A context command in a slot. -/
def ctxCmd (v : Option Nat) (slot op : Nat) (x : Ctx) : State := withCtx (prog world v slot [op, 10]) x
theorem witness_Contexts_stop : ∀ st ∈ [CtxState.ready, .parked], let s := ctxCmd (some 2) 1 4 (ctx10 st); s.wf = true ∧ s.slotReady (some 2) 1 4 ∧ s.slotCtx (some 2) 1 10 ∧ (s.ctx 10).st = st := by simp only [State.slotReady, State.slotCtx]; decide +kernel
theorem witness_Contexts_resume : let s := ctxCmd none 3 5 (ctx10 .stopped); s.wf = true ∧ s.slotReady none 3 5 ∧ s.slotCtx none 3 10 ∧ (s.ctx 10).st = .stopped ∧ (s.ctx 10).wasParked = false ∧ (s.ctx 10).halting = false := by simp only [State.slotReady, State.slotCtx]; decide +kernel
theorem witness_Contexts_reset : ∀ st ∈ [CtxState.done, .faulted, .stopped], let s := ctxCmd none 3 6 { ctx10 st with mode := true }; s.wf = true ∧ s.slotReady none 3 6 ∧ s.slotCtx none 3 10 ∧ (s.ctx 10).st = st := by simp only [State.slotReady, State.slotCtx]; decide +kernel
theorem witness_Contexts_free : ∀ st ∈ [CtxState.done, .faulted, .stopped, .parked], let s := ctxCmd none 3 7 (ctx10 st); s.wf = true ∧ s.slotReady none 3 7 ∧ s.slotCtx none 3 10 ∧ (s.ctx 10).st = st := by simp only [State.slotReady, State.slotCtx]; decide +kernel
theorem witness_Contexts_zeroed : ∀ z ∈ [ZeroThen.start, .park, .free], let s := withCtx world { ctx10 .free with zero := some z }; s.wf = true ∧ (s.ctx 10).st ≠ .stopped ∧ (s.ctx 10).st ≠ .fenced ∧ (s.ctx 10).zero = some z ∧ s.excess (s.ctx 10) = false ∧ s.r F.CROWN_HEALTH.FENCED [ctxEng 10] = 0 := by decide +kernel
theorem witness_Contexts_svcDisable : let s : State := { prog world none 2 [0x11, 2 * 2 ^ 20] with eng := { world.eng with svc := [(2, { on := true })] } }; s.wf = true ∧ s.slotReady none 2 0x11 ∧ bits (s.slotWord none 2 1) 20 4 = 2 ∧ (s.svcMode 2).on = true := by simp only [State.slotReady]; decide +kernel
theorem witness_Contexts_svcTimeout : let s := withCtx world { ctx10 .ready with svc := true }; ({ s with eng := { s.eng with svc := [(2, { on := true, draining := true })] } } : State).wf = true ∧ (({ s with eng := { s.eng with svc := [(2, { on := true, draining := true })] } } : State).svcMode 2).draining = true ∧
    (s.ctx 10).svc = true ∧ (s.ctx 10).part = 2 ∧ (s.ctx 10).st ≠ .free := by decide +kernel
theorem test_stop_stops : ((after (execCtxStop (some 2) 1 (ctxCmd (some 2) 1 4 (ctx10 .ready)))).ctx 10).st = .stopped := by decide +kernel

theorem witness_Watchdogs_context : ∀ k ∈ [0, 1], let s := put (withCtx world (ctx10 .ready)) [(F.CROWN_WDT_CTRL.CTX_EN, [], k), (F.CROWN_WDT_CTRL.ENG_EN, [], k)]; s.wf = true ∧ s.boot.pend = none ∧ (s.ctx 10).st = .ready ∧ (s.ctx 10).halting = false ∧ s.waitsOf 10 = [] ∧
    s.r F.CROWN_WDT_CTRL.CTX_EN [] = k ∧ s.r F.CROWN_WDT_CTRL.ENG_EN [] = k ∧ 10 ∈ engCtxs 1 ∧ SMap.get 0 s.eng.engs 1 ≠ 2 := by decide +kernel
theorem witness_Watchdogs_reset : let s := withCtx world { ctx10 .ready with resetting := true }; s.wf = true ∧ s.boot.pend = none ∧ (s.ctx 10).resetting = true ∧ SMap.get 0 s.eng.engs (ctxEng 10) = 0 := by decide +kernel
theorem witness_Watchdogs_engine : ∀ e ∈ [0, 511], let s : State := { withCtx world (ctx10 .ready) with eng := { (withCtx world (ctx10 .ready)).eng with engs := [(e, 1)] } }; s.wf = true ∧ s.boot.pend = none ∧ SMap.get 0 s.eng.engs e = 1 := by decide +kernel
theorem witness_Watchdogs_fence : ∀ k ∈ [0, 1], let s := put (withCtx world (ctx10 .done)) [(F.CROWN_ENG_FENCE.ENGINE, [], 1), (F.CROWN_ENG_FENCE.FENCE, [], k)]; s.wf = true ∧ s.boot.pend = none ∧ 1 = s.r F.CROWN_ENG_FENCE.ENGINE [] ∧ s.r F.CROWN_ENG_FENCE.GO [] = 0 ∧ s.engOff 1 = false ∧
    s.r F.CROWN_ENG_FENCE.FENCE [] = k ∧ 10 ∈ engCtxs 1 ∧ (s.ctx 10).st = .done := by decide +kernel
theorem test_engine_fence : (after (execEngFenceCommand (put (withCtx world (ctx10 .done)) [(F.CROWN_ENG_FENCE.ENGINE, [], 1), (F.CROWN_ENG_FENCE.FENCE, [], 1)]))).r F.CROWN_HEALTH.FENCED [1] = 1 := by decide +kernel

/-- Knot 7 of a type, in the slice of partition 2, with two signals on their way. -/
def knotted (k : Knot) (ty : Nat) (l : List (Fld × List Nat × Nat)) : State := put { withCtx world (ctx10 .ready) with knots := { kn := [(7, k)], sigs := [(40, some { knot := 7, status := 0 }), (41, some { knot := 7, status := 4 })] } }
  ([(F.KNOT_WINDOW.WIN_EN, [], 1), (F.KNOT_WINDOW.BASE, [], 0x80000000 / 2 ^ 23), (F.KNOT_SLICE.BASE, [2], 4), (F.KNOT_SLICE.COUNT, [2], 4), (F.KNOT.VALID, [7], 1), (F.KNOT.TYPE, [7], ty)] ++ l)
def knot7 : Knot := { st := .active, value := 2 ^ 64 - 1, arrived := 2, gen := 2 ^ 32 - 1, fail := 0 }
theorem witness_Knots_signal : (knotted knot7 tyCounter []).wf = true ∧ SMap.get none (knotted knot7 tyCounter []).knots.sigs 40 = some { knot := 7, status := 0 } ∧ ((knotted knot7 tyCounter []).knot 7).waits = [] ∧ ((knotted knot7 tyCounter []).knot 7).st = .active ∧
    (knotted knot7 tyCounter []).knotTy 7 = tyCounter ∧ SMap.get none (knotted knot7 tyEvent []).knots.sigs 41 = some { knot := 7, status := 4 } ∧ (knotted knot7 tyEvent []).knotTy 7 = tyEvent ∧ (4 : Nat) ≠ stOk ∧ ((knotted { knot7 with st := .broken } tyEvent []).knot 7).st = .broken := by decide +kernel
/-- An operation of context 10 on knot 7 through handle 2. -/
def knotOp (kind : AKind) : AOp := { ctx := 10, pc := 0, kind := kind, a := 7, fn := 2, part := 2, dst := .s 9, deadline := some 44 }
def operating (s : State) (o : AOp) (h : Handle) : State := { s with eng := { s.eng with ops := [(60, some o)], ctxs := s.eng.ctxs.map fun (e : Nat × Ctx) => if e.1 = 10 then (10, { e.2 with k := [(2, h)] }) else e } }
theorem witness_Knots_arrival : ∀ tg ∈ [4, 3], let s := operating (knotted knot7 tyBarrier [(F.KNOT.TARGET, [7], tg)]) (knotOp .knotArr) { bound := true, knot := 7 }; s.wf = true ∧ s.aop 60 = some (knotOp .knotArr) ∧ s.storesBefore 60 (knotOp .knotArr) = false ∧
    (s.knot 7).held.contains (.op 60) = false ∧ (s.knot 7).st = .active ∧ s.knotTy 7 = tyBarrier ∧ s.r F.KNOT.STAGE [7] = 0 ∧ (s.ctx 10).halting = false ∧ (s.knot 7).waits = [] ∧ ((s.knot 7).arrived + 1 = s.barTarget 7 ↔ tg = 3) ∧ ((s.ctx 10).handle 2).bound = true ∧ ((s.ctx 10).handle 2).id = (knotOp .knotArr).b := by decide +kernel
/-- A second operation of context 10, number 61, behind number 60. -/
def behind (s : State) (o : AOp) : State := { s with eng := { s.eng with ops := s.eng.ops ++ [(61, some o)] } }
theorem witness_Knots_waitBehindArrival : let s := behind (operating (knotted knot7 tyBarrier [(F.KNOT.TARGET, [7], 4)]) (knotOp .knotArr) { bound := true, knot := 7 }) (knotOp .knotWait); s.wf = true ∧ s.aop 60 = some (knotOp .knotArr) ∧ s.aop 61 = some (knotOp .knotWait) ∧
    (knotOp .knotWait).dead = false ∧ s.handleOps (knotOp .knotWait) .knotArr (fun i => decide (i < 61)) ≠ [] ∧ s.storesBefore 60 (knotOp .knotArr) = false ∧ (s.knot 7).arrived + 1 ≠ s.barTarget 7 := by decide +kernel
theorem witness_Knots_waits : ∀ ty ∈ [tyCounter, tyEvent, tyBarrier, tySemaphore], let s := operating (knotted { knot7 with value := 0 } ty [(F.KNOT.TARGET, [7], 4)]) { knotOp .knotWait with gen := some (2 ^ 32 - 1) } { bound := true, knot := 7, arrGen := some (2 ^ 32 - 1) }; s.wf = true ∧ s.aop 60 = some { knotOp .knotWait with gen := some (2 ^ 32 - 1) } ∧
    (s.ctx 10).halting = false ∧ s.handleOps (knotOp .knotWait) .knotArr (fun i => decide (i < 60)) = [] ∧ ((s.knot 7).waits.any fun w => decide (w.op = 60)) = false ∧ s.waitNow 7 (some (2 ^ 32 - 1)) = none := by decide +kernel
theorem witness_Knots_waitMet : let s := operating (knotted knot7 tyEvent []) (knotOp .knotWait) { bound := true, knot := 7 }; s.wf = true ∧ s.aop 60 = some (knotOp .knotWait) ∧ s.handleOps (knotOp .knotWait) .knotArr (fun i => decide (i < 60)) = [] ∧ ((s.knot 7).waits.any fun w => decide (w.op = 60)) = false ∧ (s.knot 7).st = .active ∧ s.knotTy 7 = tyEvent ∧ (s.knot 7).value ≠ 0 ∧ (knotOp .knotWait).deadline.isSome = true := by decide +kernel
def stageStore : Req := { src := .conn 6, op := 0x11, tid := 4, part := 2, addr := hall (0x80000000 + 7 * 128 + 0x18), len := 8, data := leBytes 8 5, dest := .knotWin }
theorem witness_Knots_stage : let s := ask (knotted knot7 tyBarrier [(F.KNOT.STAGE, [7], 2), (F.KNOT.HOME_INDEX, [7], 3), (F.KNOT.TARGET, [7], 4)]) 50 stageStore; s.wf = true ∧ s.req 50 = some stageStore ∧ s.peerIdx 6 = some (s.r F.KNOT.HOME_INDEX [7]) ∧ s.slotOf (stageStore.addr % 2 ^ 52) = some (7, 0x18) ∧
    s.knotPart 7 = some stageStore.part ∧ (s.knot 7).st = .active ∧ s.knotTy 7 = tyBarrier ∧ s.r F.KNOT.STAGE [7] = 2 ∧ (s.knot 7).held = [] ∧ (s.knot 7).waits = [] := by decide +kernel
theorem witness_Knots_rearm : let s := knotted { knot7 with st := .broken, fail := 5 } tyEvent []; s.wf = true ∧ s.reach 0x1400000 = true ∧ (s.knot 7).st = .broken ∧ (s.knot 7).ownerFreed = false := by decide +kernel
def launch7 : Launch := { knot := 7, part := 2, prog := 7, srcConn := true, srcId := 5, args := [byt 4] }
theorem witness_Knots_launch : let s := withCtx world { ctx10 .parked with mode := true }; let u : State := { s with knots := { s.knots with launches := [{ launch7 with prog := 8 }, launch7] } }; u.wf = true ∧ u.knots.launches.find? (fun l => decide (l.part = 2 ∧ l.prog = 7)) = some launch7 ∧ u.parked 2 7 = some 10 := by decide +kernel
theorem test_counter_wraps : ((after (execKnotSignalApply 40 (knotted knot7 tyCounter []))).knot 7).value = 0 := by decide +kernel

/-! ### The service mode finds its places, whatever the service program needs -/

theorem countP_ins {α : Type} (p : Nat × α → Bool) (k : Nat) (v : α) : ∀ m : SMap α, SMap.find m k = none → (SMap.ins m k v).countP p = m.countP p + (if p (k, v) then 1 else 0)
  | [], _ => by simp [SMap.ins, List.countP_cons]
  | (j, w) :: m, h => by
    simp only [SMap.find] at h
    split at h
    · cases h
    · rename_i n
      simp only [SMap.ins, if_neg n]
      split
      · simp [List.countP_cons]
      · rename_i l
        rw [if_neg l] at h
        simp only [List.countP_cons, countP_ins p k v m h]; omega

/-- How many service contexts of partition 2 wait for their zeroing. -/
def svcCount (s : State) : Nat := s.eng.ctxs.countP (fun e => e.2.svc && decide (e.2.part = 2) && decide (e.2.st = .free) && decide (e.2.zero = some .start))
/-- The first d dies hold one service context each, and the other dies nothing. -/
structure Placed (d : Nat) (s : State) : Prop where
  ctxs : SMap.rising s.eng.ctxs = true
  code : SMap.rising s.eng.code = true
  avail : ∀ i < 8, s.engAvail (64 * i) = true
  free : ∀ c, d ≤ c / 512 → SMap.find s.eng.ctxs c = none
  noCode : ∀ e ∈ s.eng.code, e.1 / 8192 / 16 < d
  count : svcCount s = d

theorem freeRun_nil (t n : Nat) (h : n ≤ t) : freeRun t [] n = some 0 := by
  unfold freeRun
  split
  · rfl
  · have : t + 1 - n = (t - n) + 1 := by omega
    simp [this, List.range_succ_eq_map]
theorem freeRun_after (w n c : Nat) (h : n + c ≤ 128) (hw : w = 0) : (freeRun 128 [{ base := w, size := n }] c).isSome = true := by
  unfold freeRun
  split
  · rfl
  · rw [List.find?_isSome]
    exact ⟨n, List.mem_range.mpr (by omega), by simp [hw]⟩

theorem Placed.spot {d : Nat} {s : State} (h : Placed d s) (hd : d < 8) : ∃ p, s.svcSpot d = some p ∧ p.ctx = 512 * d + 7 := by
  have ctx : ∀ c, d ≤ c / 512 → s.ctx c = {} := fun c hc => by simp [State.ctx, SMap.get, h.free c hc]
  have on : s.placedOn (64 * d) = [] := by
    simp only [State.placedOn, List.filter_eq_nil_iff, engCtxs, rangeFrom, List.mem_map, List.mem_range]
    rintro c ⟨i, hi, rfl⟩
    rw [ctx _ (by omega)]; decide
  have inn : s.placedIn (16 * d) = [] := by
    simp only [State.placedIn, List.filter_eq_nil_iff, rangeFrom, List.mem_map, List.mem_range]
    rintro c ⟨i, hi, rfl⟩
    rw [ctx _ (by omega)]; decide
  have used : s.cluUsed (16 * d) = [] := by
    simp only [State.cluUsed, inn, List.map_nil, List.nil_append, List.filterMap_eq_nil_iff]
    intro e he
    have := h.noCode e he
    rw [if_neg (by omega)]
  have nc : SMap.get none s.eng.code (codeKey (16 * d) kernSvc) = none := by
    unfold SMap.get
    cases hf : SMap.find s.eng.code (codeKey (16 * d) kernSvc) with
    | none => rfl
    | some v =>
      have m : ∀ (m : SMap (Option Region)) (k : Nat) (v : Option Region), SMap.find m k = some v → (k, v) ∈ m := by
        intro m k v
        induction m with
        | nil => intro h; cases h
        | cons a m ih =>
          obtain ⟨j, w⟩ := a
          simp only [SMap.find]
          split
          · rename_i e; intro h; cases h; subst e; exact List.mem_cons_self
          · split
            · intro h; cases h
            · exact fun h => List.mem_cons_of_mem _ (ih h)
      have := h.noCode _ (m _ _ _ hf)
      simp only [codeKey, kernSvc] at this; omega
  have fit : (s.fitAt svcNeed none (8 * (64 * d) + 7)).any (fun p => decide (p.ctx = 512 * d + 7)) = true := by
    have e1 : (8 * (64 * d) + 7) / 8 = 64 * d := by omega
    have e2 : 64 * d / 4 = 16 * d := by omega
    have a : ¬ 16 < svcNeed.atiles := by simp only [svcNeed]; omega
    have b : svcNeed.chk = false := rfl
    have k : svcNeed.prog = kernSvc := rfl
    simp only [State.fitAt, e1, e2, on, inn, used, List.map_nil, List.sum_nil, Nat.zero_add, if_neg a, b]
    rw [freeRun_nil 32 svcNeed.scr (by simp only [svcNeed]; omega), freeRun_nil 128 svcNeed.clu (by simp only [svcNeed]; omega)]
    simp only [k, nc]
    have f := freeRun_after 0 svcNeed.clu svcNeed.code (by simp only [svcNeed]; omega) rfl
    obtain ⟨g, hg⟩ := Option.isSome_iff_exists.mp f
    simp [hg]; omega
  cases hf : s.fitAt svcNeed none (8 * (64 * d) + 7) with
  | none => rw [hf] at fit; cases fit
  | some p =>
    rw [hf] at fit
    refine ⟨p, ?_, by simpa using fit⟩
    have c : (s.ctx (8 * (64 * d) + 7)).placed = false := by rw [ctx _ (by omega)]; rfl
    simp [State.svcSpot, rangeFrom, List.range_succ_eq_map, h.avail d hd, c, hf]

theorem mem_set {α : Type} [DecidableEq α] {d : α} {m : SMap α} {k : Nat} {v : α} {e : Nat × α} (h : e ∈ SMap.set d m k v) : e.1 = k ∨ e ∈ m := by
  unfold SMap.set at h
  split at h
  · exact .inr (SMap.mem_era k e m h)
  · rcases SMap.mem_ins k v e m h with h | h
    · exact .inl (h ▸ rfl)
    · exact .inr h

/-- A service context placed on the next die keeps the shape of the earlier dies. -/
theorem Placed.next {d : Nat} {s : State} (h : Placed d s) (p : Spot) (hp : p.ctx = 512 * d + 7) (x : Ctx) (h1 : x.svc = true) (h2 : x.part = 2) (h3 : x.st = .free) (h4 : x.mode = false) :
    Placed (d + 1) (s.after (svcNeed.effects x p)) := by
  let v : Ctx := { x with prog := svcNeed.prog, atiles := svcNeed.atiles, chkSlot := svcNeed.chk, scrBase := p.scr, scrSize := svcNeed.scr, cluBase := p.clu, cluSize := svcNeed.clu
                          zero := some (if x.mode then .park else .start) }
  have ne : v ≠ {} := fun e => by
    have : v.prog = ({} : Ctx).prog := by rw [e]
    exact absurd this (by show ¬ kernSvc = 0; decide)
  have hset : SMap.set {} s.eng.ctxs p.ctx v = SMap.ins s.eng.ctxs p.ctx v := by simp [SMap.set, ne]
  have hno : SMap.find s.eng.ctxs p.ctx = none := h.free _ (by omega)
  have hv : v.zero = some .start := by simp [v, h4]
  have e : ∃ code, (code = s.eng.code ∨ ∃ r, code = SMap.set none s.eng.code (codeKey (ctxClu p.ctx) svcNeed.prog) r) ∧
      ∃ clu, s.after (svcNeed.effects x p) = { s with eng := { s.eng with ctxs := SMap.ins s.eng.ctxs p.ctx v, code := code, clu := clu } } := by
    cases hc : p.code with
    | none => exact ⟨_, .inl rfl, SMap.eraRange s.eng.clu (ctxClu p.ctx * 2 ^ 23 + p.clu * 65536) (ctxClu p.ctx * 2 ^ 23 + p.clu * 65536 + svcNeed.clu * 65536), by rw [← hset]; simp only [State.after, Need.effects, hc]; rfl⟩
    | some g => exact ⟨_, .inr ⟨some { base := g, size := svcNeed.code }, rfl⟩, SMap.eraRange s.eng.clu (ctxClu p.ctx * 2 ^ 23 + p.clu * 65536) (ctxClu p.ctx * 2 ^ 23 + p.clu * 65536 + svcNeed.clu * 65536), by rw [← hset]; simp only [State.after, Need.effects, hc]; rfl⟩
  obtain ⟨code, hc, clu, e⟩ := e
  rw [e]
  refine ⟨SMap.risingFrom_ins _ _ (Nat.zero_le _) h.ctxs, ?_, h.avail, ?_, ?_, ?_⟩
  · rcases hc with rfl | ⟨r, rfl⟩
    · exact h.code
    · exact SMap.rising_set _ h.code _ _
  · intro c hd
    have : c ≠ p.ctx := by omega
    show SMap.find (SMap.ins _ _ _) c = none
    rw [SMap.find_ins, if_neg this]
    exact h.free c (by omega)
  · intro e he
    have old : e ∈ s.eng.code → e.1 / 8192 / 16 < d + 1 := fun m => Nat.lt_succ_of_lt (h.noCode e m)
    rcases hc with rfl | ⟨r, rfl⟩
    · exact old he
    · rcases mem_set he with k | m
      · rw [k]; simp only [codeKey, ctxClu, svcNeed, kernSvc]; omega
      · exact old m
  · show (SMap.ins s.eng.ctxs p.ctx v).countP _ = d + 1
    rw [countP_ins _ _ _ _ hno]
    have : svcCount s = d := h.count
    unfold svcCount at this
    rw [this]
    simp [v, h1, h2, h3, h4]

/-- All eight contexts find their places. -/
theorem Placed.all {xs : List Ctx} (hx : ∀ x ∈ xs, x.svc = true ∧ x.part = 2 ∧ x.st = .free ∧ x.mode = false) : ∀ {d : Nat} {s : State} (wins : SMap (Option Nat)), Placed d s → d + xs.length ≤ 8 →
    ∃ r, placeAll (fun t _ => t.svcSpot (svcCount t % 8)) svcNeed xs wins s = some r := by
  induction xs with
  | nil => exact fun _ _ _ => ⟨_, rfl⟩
  | cons x xs ih =>
    intro d s wins h hd
    have hd : d + (xs.length + 1) ≤ 8 := hd
    obtain ⟨p, hp, hc⟩ := h.spot (by omega)
    obtain ⟨h1, h2, h3, h4⟩ := hx x (List.mem_cons_self ..)
    have pick : s.svcSpot (svcCount s % 8) = some p := by rw [h.count, Nat.mod_eq_of_lt (by omega)]; exact hp
    have n := h.next p hc x h1 h2 h3 h4
    obtain ⟨r, hr⟩ := ih (fun y hy => hx y (List.mem_cons_of_mem _ hy)) (if svcNeed.shared ∧ 0 < svcNeed.clu then SMap.set none wins (ctxClu p.ctx) (some p.clu) else wins) n (by omega)
    exact ⟨(svcNeed.effects x p ++ r.1, p.ctx :: r.2), by simp only [placeAll, pick, hr]⟩

/-- A command that turns the service mode of partition 2 on. -/
def enabling : State := put (prog world none 2 [0x10, 2 * 2 ^ 20, 8, 1, 2, 3, 4]) ((List.range 8).map fun d => (F.SPL_ENG_AVAIL.AVAIL, [d], 2 ^ 64 - 1))
theorem witness_Contexts_svcEnable : enabling.wf = true ∧ enabling.slotReady none 2 0x10 ∧ bits (enabling.slotWord none 2 1) 20 4 = 2 ∧ enabling.slotWord none 2 2 % 256 = 8 ∧ enabling.partSt 2 = ptActive ∧ (enabling.svcMode 2).on = false := by
  simp only [State.slotReady]; decide +kernel
theorem witness_Contexts_svcEnable_places : ∃ r, placeAll (fun t _ => t.svcSpot ((t.eng.ctxs.countP (fun e => e.2.svc && decide (e.2.part = 2) && decide (e.2.st = .free) && decide (e.2.zero = some .start))) % 8)) svcNeed
    ((List.range 8).map (fun i => { part := 2, inst := i, count := 8, svc := true })) [] enabling = some r :=
  have e : enabling.eng.ctxs = [] ∧ enabling.eng.code = [] ∧ ∀ i < 8, enabling.engAvail (64 * i) = true := by decide +kernel
  Placed.all (by simp) [] (d := 0) (s := enabling) ⟨by rw [e.1]; rfl, by rw [e.2.1]; rfl, e.2.2, fun c _ => by rw [e.1]; rfl, fun a h => by rw [e.2.1] at h; simp at h, by unfold svcCount; rw [e.1]; rfl⟩ (by simp)

/-! ### Instructions of programs -/

/-- An instruction word from its fields (R248): opcode, FMT, DST, SA, SB, SC, PG, MOD and IMM. -/
def word (op fmt dst sa sb sc pg mod imm : Nat) : Nat := op * 2 ^ 56 + fmt * 2 ^ 52 + dst * 2 ^ 46 + sa * 2 ^ 40 + sb * 2 ^ 34 + sc * 2 ^ 28 + pg * 2 ^ 25 + mod * 2 ^ 16 + imm
/-- A context with values in its registers. -/
def regs10 : Ctx := { st := .ready, part := 2, prog := 7, scrBase := 1, scrSize := 2, cluBase := 3, cluSize := 2, pc := 8, atiles := 8, chkSlot := true, stat := 5
                      s := [(1, 0x0123456789abcdef), (2, 0xfffffffffffffff0), (3, 7), (4, 0x8000000000000000), (5, 64), (6, 3), (7, 0x30020), (9, 8)]
                      v := (List.range 64).map (fun l => (64 * 2 + l, BitVec.ofNat 32 (l * 0x01030507 + 0x3f000000))) ++ (List.range 64).map (fun l => (64 * 3 + l, BitVec.ofNat 32 ((63 - l) * 4))) ++
                        (List.range 64).map (fun l => (64 * 4 + l, BitVec.ofNat 32 (0x3f800000 + l * 0x10000)))
                      p := [(0, 0xffffffffffffffff), (1, 0x00ff00ff00ff0f0f), (2, 0x123456789)] }
/-- Context 10, left as x, at an instruction word with its extension word behind it and a halt on either side. -/
def running (w ext : Nat) (x : Ctx) : State :=
  let g : Prg := { part := 2, level := 1, atiles := 8, chkSlots := 1, handles := 8, scr := 2, clu := 2, entry := 0, shared := false, service := false, code := halt ++ leBytes 8 w ++ leBytes 8 ext ++ halt, starts := [0, 8, 16, 24] }
  { put world [(F.SPL_PART_ACCESS.VALID, [0, 2], 1), (F.SPL_PART_ACCESS.CLEAT_TAG, [0, 2], 7), (F.SPL_PART_ACCESS.MEM, [0, 2], 1), (F.SPL_PART_ACCESS.BULK, [0, 2], 1)] with
    eng := { world.eng with progs := [(7, some g)], ctxs := [(9, { x with prog := 3 }), (10, x)], scratch := (List.range 40).map (fun k => (2 ^ 21 + 65536 + 2 * k, byt (k + 1)))
                            clu := (List.range 40).map (fun k => (3 * 65536 + 3 * k, byt (k + 0x81))), order := 77 } }
/-- The instruction that context 10 is at. -/
def now (s : State) : Ins := (s.fetch 10).getD (Ins.ofWord 0 0)
/-- Context 10 at an instruction of an opcode. -/
def At (op : Nat) (s : State) : Prop := s.wf = true ∧ s.atIns 10 op (now s)
/-- Whether an address is an instruction start. -/
def starts (s : State) (a : Int) : Bool := match SMap.get none s.eng.progs (s.ctx 10).prog with | none => false | some p => decide (0 ≤ a) && p.starts.contains a.toNat
theorem startAt_of {s : State} {a : Int} (h : starts s a = true) : s.startAt 10 a := by
  unfold starts at h
  split at h
  · cases h
  · rename_i p e
    simp only [Bool.and_eq_true, decide_eq_true_eq, List.contains_iff_mem] at h
    exact ⟨p, e, h.1, h.2⟩
theorem not_startAt_of {s : State} {a : Int} (h : starts s a = false) : ¬ s.startAt 10 a := by
  rintro ⟨p, e, h1, h2⟩
  simp [starts, e, h1, h2] at h

theorem witness_Scalar_alu : ∀ fn ∈ List.range 16, At 0x00 (running (word 0 0 8 2 3 0 0 fn 0) 0 regs10) ∧ (now (running (word 0 0 8 2 3 0 0 fn 0) 0 regs10)).fn = fn := by unfold At State.atIns; decide +kernel
theorem witness_Scalar_cmp : ∀ fn ∈ List.range 10, At 0x01 (running (word 1 0 8 2 3 0 0 fn 0) 0 regs10) ∧ (now (running (word 1 0 8 2 3 0 0 fn 0) 0 regs10)).fn = fn := by unfold At State.atIns; decide +kernel
theorem witness_Scalar_plain : ∀ e ∈ [(0x02, word 2 0 8 0 0 0 0 0 0), (0x03, word 3 0 8 2 5 0 0 0 0), (0x04, word 4 0 3 2 5 0 0 0 0), (0x10, word 0x10 0 0 0 0 0 0 0 2), (0x14, word 0x14 0 8 0 0 0 0 0 0xffff), (0x13, word 0x13 0 0 0 0 0 0 0 0),
    (0x16, word 0x16 0 0 0 0 0 0 0 0), (0x17, word 0x17 0 8 0 0 0 0 0x10 4), (0x18, word 0x18 0 8 0 0 0 0 0 0), (0x19, word 0x19 0 0 0 0 0 0 0 0), (0x1A, word 0x1A 0 8 0 0 0 0 0 0), (0x15, word 0x15 0 0 9 0 0 0 0 0), (0x15, word 0x15 0 0 3 0 0 0 0 0)],
    At e.1 (running e.2 (2 ^ 48 - 1) regs10) := by unfold At State.atIns; decide +kernel
theorem witness_Scalar_bc : ∀ e ∈ [(0, 0, true), (1, 2, true), (2, 2, true), (3, 3, true), (0, 2, false), (1, 0, false), (2, 3, false), (3, 2, false)], let s := running (word 0x11 0 0 e.2.1 0 0 0 e.1 2) 0 regs10; let i := now s; let A := regs10.sw i.sa; At 0x11 s ∧
    s.ctx 10 = regs10 ∧ decide (i.fn = 0 ∧ A = 0 ∨ i.fn = 1 ∧ A ≠ 0 ∨ i.fn = 2 ∧ A.toInt < 0 ∨ i.fn = 3 ∧ 0 ≤ A.toInt) = e.2.2 := by unfold At State.atIns; decide +kernel
theorem witness_Scalar_bp : ∀ e ∈ [(0, 2, true), (1, 5, true), (2, 0, true), (0, 5, false), (1, 2, false), (2, 2, false)], let s := running (word 0x12 0 0 e.2.1 0 0 0 e.1 2) 0 regs10; let i := now s; At 0x12 s ∧ s.ctx 10 = regs10 ∧
    decide (i.fn = 0 ∧ regs10.pr i.sa ≠ 0 ∨ i.fn = 1 ∧ regs10.pr i.sa = 0 ∨ i.fn = 2 ∧ regs10.pr i.sa = 2 ^ 64 - 1) = e.2.2 := by unfold At State.atIns; decide +kernel
theorem witness_Scalar_near : ∀ e ∈ [(word 0x10 0 0 0 0 0 0 0 2, (24 : Int)), (word 0x11 0 0 0 0 0 0 0 0xffff, 0), (word 0x12 0 0 2 0 0 0 0 2, 24), (word 0x14 0 8 0 0 0 0 0 0xffff, 0)], let s := running e.1 0 regs10; (((s.ctx 10).pc : Int) + sext 16 (now s).imm * 8 = e.2) ∧ s.startAt 10 e.2 :=
  fun e h => ⟨(by decide +kernel : ∀ e ∈ [(word 0x10 0 0 0 0 0 0 0 2, (24 : Int)), (word 0x11 0 0 0 0 0 0 0 0xffff, 0), (word 0x12 0 0 2 0 0 0 0 2, 24), (word 0x14 0 8 0 0 0 0 0 0xffff, 0)], (((running e.1 0 regs10).ctx 10).pc : Int) + sext 16 (now (running e.1 0 regs10)).imm * 8 = e.2) e h,
    startAt_of ((by decide +kernel : ∀ e ∈ [(word 0x10 0 0 0 0 0 0 0 2, (24 : Int)), (word 0x11 0 0 0 0 0 0 0 0xffff, 0), (word 0x12 0 0 2 0 0 0 0 2, 24), (word 0x14 0 8 0 0 0 0 0 0xffff, 0)], starts (running e.1 0 regs10) e.2 = true) e h)⟩
theorem witness_Scalar_long : ((running (word 0x13 0 0 0 0 0 0 0 0) (2 ^ 48 - 1) regs10).ctx 10).pc + sext 48 (now (running (word 0x13 0 0 0 0 0 0 0 0) (2 ^ 48 - 1) regs10)).ext * 8 = 0 ∧ (running (word 0x13 0 0 0 0 0 0 0 0) (2 ^ 48 - 1) regs10).startAt 10 0 :=
  ⟨by decide +kernel, startAt_of (by decide +kernel)⟩
theorem witness_Scalar_jump : (running (word 0x15 0 0 9 0 0 0 0 0) 0 regs10).startAt 10 (regs10.sw (now (running (word 0x15 0 0 9 0 0 0 0 0) 0 regs10)).sa).toNat ∧
    ¬ (running (word 0x15 0 0 3 0 0 0 0 0) 0 regs10).startAt 10 (regs10.sw (now (running (word 0x15 0 0 3 0 0 0 0 0) 0 regs10)).sa).toNat ∧ (running (word 0x15 0 0 3 0 0 0 0 0) 0 regs10).faultStays 10 :=
  ⟨startAt_of (by decide +kernel), not_startAt_of (by decide +kernel), by unfold State.faultStays; decide +kernel⟩
theorem witness_Scalar_halt : let s := running (word 0x16 0 0 0 0 0 0 0 0) 0 regs10; let u : State := { s with eng := { s.eng with ops := [(60, some { ctx := 10, pc := 0, kind := .dma })] } }; At 0x16 s ∧ At 0x16 u ∧
    s.r F.CROWN_HEALTH.FENCED [ctxEng 10] = 0 ∧ s.opsOf 10 = [] ∧ (s.ctx 10).mode = false ∧ u.r F.CROWN_HEALTH.FENCED [ctxEng 10] = 0 ∧ u.opsOf 10 ≠ [] := by unfold At State.atIns; decide +kernel
theorem test_alu_divides_by_zero : (after (execISAlu 10 (running (word 0 0 8 2 0 0 0 5 0) 0 regs10))).ctx 10 = { regs10.setS 8 (2 ^ 64 - 1) with pc := 16, issuedAt := 78 } := by decide +kernel
theorem test_branch_skips_two : ((after (execIBr 10 (running (word 0x10 0 0 0 0 0 0 0 2) 0 regs10))).ctx 10).pc = 24 := by decide +kernel

/-! ### Vector, tile and local memory instructions -/

theorem witness_Vector_registers : ∀ e ∈ [(0x20, word 0x20 0 9 2 4 0 1 0 0), (0x20, word 0x20 5 9 2 0 0 1 0x110 0x8005), (0x21, word 0x21 1 3 2 4 0 1 2 0), (0x24, word 0x24 0 8 1 0 0 0 0 0), (0x30, word 0x30 2 9 2 4 0 1 0 0), (0x31, word 0x31 3 9 2 4 2 1 1 0),
    (0x32, word 0x32 2 3 2 4 0 1 6 0), (0x33, word 0x33 2 9 2 0 0 1 1 0), (0x50, word 0x50 2 9 2 0 0 1 0 0), (0x51, word 0x51 2 4 2 3 0 1 0 0), (0xE0, word 0xE0 1 9 4 0 0 1 0 0), (0xE1, word 0xE1 0 9 2 3 0 0 8 0), (0xE2, word 0xE2 9 9 4 0 7 0 0 0), (0xE3, word 0xE3 6 9 4 7 0 0 0 0)],
    At e.1 (running e.2 0 regs10) := by unfold At State.atIns; decide +kernel
theorem witness_Vector_mov : ∀ fn ∈ List.range 5, let s := running (word 0x22 0 9 2 (if fn < 3 then 0 else 3) 0 2 fn 0) 0 regs10; At 0x22 s ∧ (now s).fn = fn := by unfold At State.atIns; decide +kernel
theorem witness_Vector_predicates : ∀ fn ∈ List.range 6, let s := running (word 0x23 0 4 5 (if fn < 4 then 2 else 0) 0 0 fn 0) 0 regs10; At 0x23 s ∧ (now s).fn = fn := by unfold At State.atIns; decide +kernel

/-- A context whose registers hold addresses of its windows, with numbers in its tiles. -/
def mem10 : Ctx := { regs10 with s := [(1, 0x40), (2, 0x80000000), (3, 7), (4, 0x100000000), (5, 64), (6, 0x30005), (7, 0x100000), (8, 0x2000), (9, 0x3fffe)], a := [(5, 9), (6144 * 2 + 96 * 3 + 5, 0x3f800000), (6144 * 2 + 96 * 9 + 5, 0x40000000)]
                                 v := (List.range 64).map (fun l => (64 * 2 + l, BitVec.ofNat 32 (l % 7 * 4 + 0x100))) ++ (List.range 64).map (fun l => (64 * 3 + l, BitVec.ofNat 32 (l + 5))) }
theorem witness_Local_scalar : ∀ e ∈ [(0x70, word 0x70 0 9 1 0 0 0 6 0), (0x70, word 0x70 0 9 2 0 0 0 3 0), (0x71, word 0x71 0 0 1 2 0 0 1 8), (0x71, word 0x71 0 0 2 2 0 0 2 8)], let s := running e.2 0 mem10; let i := now s; At e.1 s ∧ s.faultStays 10 ∧ s.ctx 10 = mem10 ∧
    i.addr mem10 % 2 ^ (i.fn % 4) = 0 ∧ (mem10.locate 10 (i.addr mem10) (2 ^ (i.fn % 4))).isSome = true := by unfold At State.atIns State.faultStays; decide +kernel
theorem witness_Local_misaligned : let s := running (word 0x70 0 9 3 0 0 0 1 0) 0 mem10; let i := now s; At 0x70 s ∧ s.faultStays 10 ∧ i.addr (s.ctx 10) % 2 ^ (i.fn % 4) ≠ 0 := by unfold At State.atIns State.faultStays; decide +kernel
theorem witness_Local_outside : let s := running (word 0x71 0 0 7 2 0 0 1 8) 0 mem10; let i := now s; At 0x71 s ∧ s.faultStays 10 ∧ i.addr (s.ctx 10) % 2 ^ (i.fn % 4) = 0 ∧ (s.ctx 10).locate 10 (i.addr (s.ctx 10)) (2 ^ (i.fn % 4)) = none := by
  unfold At State.atIns State.faultStays; decide +kernel
theorem witness_Local_lanes : ∀ e ∈ [(0x72, word 0x72 0 9 1 0 0 1 0 8), (0x73, word 0x73 0 0 2 4 0 1 0 8)], let s := running e.2 0 mem10; At e.1 s ∧ (s.ctx 10).lanesIn 10 (now s) ((now s).lane (s.ctx 10)) := by unfold At State.atIns Ctx.lanesIn; decide +kernel
theorem witness_Local_indexed : ∀ e ∈ [(0x74, word 0x74 0 9 1 2 0 1 0 0), (0x75, word 0x75 0 0 2 2 3 1 0 0)], let s := running e.2 0 mem10; At e.1 s ∧ (s.ctx 10).lanesIn 10 (now s) ((now s).laneX (s.ctx 10)) := by unfold At State.atIns Ctx.lanesIn; decide +kernel
theorem witness_Tiles : SMap.wf 0 mem10.a = true ∧ ∀ e ∈ [(0x41, word 0x41 0 2 0 0 0 0 0 0), (0x42, word 0x42 0 9 2 6 0 1 0 0), (0x43, word 0x43 0 2 2 6 0 1 0x100 0)], let s := running e.2 0 mem10; At e.1 s ∧ s.ctx 10 = mem10 := by unfold At State.atIns; decide +kernel
theorem witness_Tiles_mma : let s := running (word 0x40 6 2 5 8 0 0 0x100 0) 0 mem10; let i := now s; At 0x40 s ∧ s.ctx 10 = mem10 ∧ mem10.scratchFault 10 (mem10.sr i.sa) (panelBytes i.fmt 64) 64 = none ∧ mem10.scratchFault 10 (mem10.sr i.sb) (panelBytes i.fmt 96) 64 = none ∧
    (s.readLocal 10 (mem10.sr i.sa) (panelBytes i.fmt 64)).isSome = true ∧ (s.readLocal 10 (mem10.sr i.sb) (panelBytes i.fmt 96)).isSome = true := by unfold At State.atIns; decide +kernel

/-- A sum worked by hand in FP32: 2.5 and -1.5 add to 1. -/
theorem test_fp32_sum : vFalu 2 0 0 0x40200000 0xbfc00000 = 0x3f800000 := by decide +kernel
/-- The merge rule: an inactive lane keeps its value. -/
theorem test_inactive_lane_is_kept : ((after (execIVIalu 10 (running (word 0x20 0 2 2 4 0 1 0 0) 0 regs10))).ctx 10).lane 2 4 = regs10.lane 2 4 ∧ bit (regs10.pr 1) 4 = false := by decide +kernel

/-! ### Asynchronous instructions -/

/-- A context whose registers hold the operands of fabric and unit instructions, with three knots bound. -/
def async10 : Ctx := { regs10 with
  s := [(1, BitVec.ofNat 64 (hall 0x40000100)), (2, 0x100 + 2 ^ 32 * 128), (3, 7), (4, BitVec.ofNat 64 (hall 0x40000101)), (5, 1000), (6, 0x80000100 + 2 ^ 32 * 256), (7, 0x400), (8, 0x12), (9, 0x0123456789abcdef), (10, 0x80000040), (11, 0x200),
        (12, BitVec.ofNat 64 (hall (0x80000000 + 7 * 128 + 0x40))), (13, 2 + 5 * 2 ^ 32), (14, 0xf009 + 9 * 2 ^ 32), (15, BitVec.ofNat 64 (hall 0x40000000))]
  k := [(0, { bound := true, knot := 55 }), (1, { bound := true, knot := 77 }), (2, { bound := true, knot := 60 })]
  v := (List.range 64).map (fun l => (64 * 2 + l, BitVec.ofNat 32 (4 * l))) ++ (List.range 64).map (fun l => (64 * 3 + l, BitVec.ofNat 32 ((63 - l) * 4))) }
/-- Context 10 at an instruction word with bytes at offset 0x400 of its scratch window, its partition allowed everything, extent 3 homed here with the Cleat's entries for it and for the window of the knots. -/
def issuing (w : Nat) (bs : List Byte) : State :=
  let s := running w 0 async10
  put { s with
    pool := { s.pool with exts := [(3, { ext3 with flags := 9 })] }
    cleat := { s.cleat with ents := [{ tag := 7, lo := hall 0x40000000, hi := hall 0x403fffff, result := 1 * 2 ^ 60 + 2 * 2 ^ 24 + 3 * 16 + 15, sys := false }, { tag := 7, lo := hall 0x80000000, hi := hall 0x8fffffff, result := 3 * 2 ^ 60 + 2 * 2 ^ 24 + 3, sys := false },
      { tag := 0xf009, lo := 0x80000000, hi := 0x80000040, result := 0x1122334455667788, sys := false }, { tag := 0xffff, lo := hall 0x40000000, hi := hall 0x403fffff, result := 8 * 2 ^ 60 + 2 * 2 ^ 20 + 3, sys := true },
      { tag := 0xffff, lo := hall 0x80000000, hi := hall 0x8fffffff, result := 9 * 2 ^ 60 + 7, sys := true }] }
    eng := { s.eng with scratch := SMap.setRange 0 s.eng.scratch (2 ^ 21 + 65536 + 0x400) bs } }
  [(F.SPL_PART_ACCESS.NEAR, [0, 2], 1), (F.SPL_PART_ACCESS.TRIGGER, [0, 2], 1), (F.CLEAT_LEND.TAG_BASE, [2], 6), (F.CLEAT_LEND.TAG_COUNT, [2], 8)]
theorem test_issuing_is_sound : (issuing 0 []).wf = true ∧ (issuing 0 []).inFlight 10 fabKinds < (issuing 0 []).r F.SPL_FAB_CTRL.MAX_INFLIGHT [ctxDie 10] ∧ (issuing 0 []).ctx 10 = async10 := by decide +kernel

/-- Whether a request of the instruction of context 10 passes. -/
def through (s : State) (q : Req) (f : Fld) : Bool := decide (q.badForm = none) && (match s.progVerdict 10 { q with part := (s.ctx 10).part, ord := (now s).ord } f with | .serve _ _ _ => true | _ => false)
theorem passes_of {s : State} {q : Req} {f : Fld} (h : through s q f = true) : ∃ d e e2, s.passes 10 (now s) q f d e e2 := by
  simp only [through, Bool.and_eq_true, decide_eq_true_eq] at h
  obtain ⟨h1, h2⟩ := h
  split at h2
  · rename_i d e e2 h3; exact ⟨d, e, e2, h1, h3⟩
  · cases h2

/-- The knot of an instruction is bound and its record aligned, as a check. -/
theorem knotOk_iff {x : Ctx} {c : Nat} {i : Ins} : x.knotOk c i ↔ ((x.handle i.sc).bound && (i.recAddr x).all (fun a => decide (x.scratchFault c a 32 32 = none))) = true := by
  simp [Ctx.knotOk, Option.all_eq_true]

theorem witness_Fabric_load : ∀ fn ∈ List.range 5, let s := issuing (word 0x90 0 9 1 0 0 0 (0x20 + fn) 0) []; let i := now s; let n := if i.fn = 4 then 256 else 2 ^ i.fn; At 0x90 s ∧ s.inFlight 10 fabKinds < s.r F.SPL_FAB_CTRL.MAX_INFLIGHT [ctxDie 10] ∧
    async10.sr i.sa % n = 0 ∧ through s { src := .tier, op := 0x10, addr := async10.sr i.sa, len := n, attr := mkAttr 0 0 0 i.nocomb 0 } F.SPL_PART_ACCESS.MEM = true := by unfold At State.atIns; decide +kernel
theorem witness_Fabric_load_misaligned : let s := issuing (word 0x90 0 9 4 0 0 0 2 0) []; let i := now s; At 0x90 s ∧ s.inFlight 10 fabKinds < s.r F.SPL_FAB_CTRL.MAX_INFLIGHT [ctxDie 10] ∧ (s.ctx 10).sr i.sa % 2 ^ i.fn ≠ 0 ∧ i.fn ≠ 4 ∧ i.trap = false := by
  unfold At State.atIns; decide +kernel
theorem witness_Fabric_store : ∀ fn ∈ List.range 5, let s := issuing (word 0x91 0 0 1 3 0 0 fn 0) []; let i := now s; let n := if i.fn = 4 then 256 else 2 ^ i.fn; At 0x91 s ∧ async10.knotOk 10 i ∧ async10.sr i.sa % n = 0 ∧
    through s { src := .tier, op := 0x11, addr := async10.sr i.sa, len := n, data := if i.fn = 4 then (async10.vr i.sb).flatMap (leBytes 4) else leBytes n (async10.sr i.sb) } F.SPL_PART_ACCESS.MEM = true := by unfold At State.atIns; simp only [knotOk_iff]; decide +kernel
theorem witness_Fabric_atomic : ∀ e ∈ [(false, 0, 0), (false, 1, 5), (false, 12, 7), (true, 0, 2)], let s := issuing (word (if e.1 then 0x93 else 0x92) (if e.1 then 12 else e.2.1) 9 1 2 0 0 (0x10 + e.2.2) 0) []; let i := now s; let n := 4 * 2 ^ (atomForm e.1 i.fmt).1; At (if e.1 then 0x93 else 0x92) s ∧
    through s { src := .tier, op := 0x12, addr := async10.sr i.sa, attr := mkAttr i.fn (atomForm e.1 i.fmt).1 (atomForm e.1 i.fmt).2 i.nocomb 0, opA := async10.sr i.sb % 2 ^ (8 * n), opB := async10.sr i.dst % 2 ^ (8 * n) } F.SPL_PART_ACCESS.MEM = true := by unfold At State.atIns; decide +kernel
theorem witness_Fabric_trigger : ∀ fn ∈ [0, 8], let s := issuing (word 0x94 0 0 12 3 1 0 (0x20 + fn) 0) []; let i := now s; At 0x94 s ∧ async10.knotOk 10 i ∧ i.fn ≤ 8 ∧
    through s { src := .tier, op := 0x13, addr := async10.sr i.sa, len := 8 * i.fn, data := ((async10.vr i.sb).flatMap (leBytes 4)).take (8 * i.fn) } F.SPL_PART_ACCESS.TRIGGER = true := by unfold At State.atIns; simp only [knotOk_iff]; decide +kernel
theorem witness_Fabric_bulk : ∀ op ∈ [0x95, 0x96], ∀ sb ∈ [2, 6], let s := issuing (word op 0 0 1 sb 1 0 0 0) []; let i := now s; let n := async10.sr i.sb / 2 ^ 32; At op s ∧ async10.knotOk 10 i ∧ async10.sr i.sa % 64 = 0 ∧ async10.sr i.sb % 64 = 0 ∧ n % 64 = 0 ∧ 64 ≤ n ∧ n ≤ 2 ^ 24 ∧
    (async10.locate 10 (async10.sr i.sb % 2 ^ 32) n).any (fun p => through s (if op = 0x95 then { src := .tier, op := 0x14, addr := async10.sr i.sa, len := n } else { src := .tier, op := 0x15, addr := async10.sr i.sa, len := n, want := n, rcv := n, segs := [(0, s.localBytes p n)] }) F.SPL_PART_ACCESS.BULK) = true := by
  unfold At State.atIns; simp only [knotOk_iff]; decide +kernel
theorem witness_Fabric_near : ∀ fn ∈ [1, 2, 3, 4, 5], let s := issuing (word 0x97 1 0 7 0 1 0 fn 0) (leBytes 8 (hall 0x40000100) ++ leBytes 8 (if fn = 2 ∨ fn = 3 ∨ fn = 5 then hall 0x40000000 else 7) ++ leBytes 4 64 ++ [byt 3] ++ leBytes 3 0); let i := now s; At 0x97 s ∧ async10.knotOk 10 i ∧
    async10.scratchFault 10 (async10.sr i.sa) 32 32 = none ∧ (s.readLocal 10 (async10.sr i.sa) 32).any (fun b => decide (byteAt b 20 ≤ 15) && decide (leAt b 21 3 = 0) &&
      through s { src := .tier, op := 0x16, addr := leAt b 0 8, len := leAt b 16 4, opA := leAt b 8 8, attr := mkAttr (byteAt b 20) (if i.fn ≤ 3 then 0 else (atomForm false i.fmt).1) (if i.fn ≤ 3 then 0 else (atomForm false i.fmt).2) false i.fn } F.SPL_PART_ACCESS.NEAR) = true := by
  unfold At State.atIns; simp only [knotOk_iff]; decide +kernel
theorem witness_Reduction_add : let s := issuing (word 0x58 2 0 8 2 1 0 0 0) []; let i := now s; let n := async10.sr i.sb / 2 ^ 32; At 0x58 s ∧ async10.knotOk 10 i ∧ async10.sr i.sb % 64 = 0 ∧ n % 64 = 0 ∧ 64 ≤ n ∧ n ≤ 8192 ∧ (async10.locate 10 (async10.sr i.sb % 2 ^ 32) n).isSome = true := by
  unfold At State.atIns; simp only [knotOk_iff]; decide +kernel

theorem witness_Units_gather : let s := issuing (word 0x60 2 11 10 3 1 1 0 0) []; let i := now s; let x := s.ctx 10; let a := x.sr i.sa % 2 ^ 32; let d := x.sr i.dst % 2 ^ 32; At 0x60 s ∧ s.inFlight 10 [.gather, .filter] < 8 ∧ x.knotOk 10 i ∧ 2 ^ 31 ≤ a ∧ d < 2 ^ 31 ∧
    ∀ l, l < 64 → bit (x.pr i.pg) l = true → a - 2 ^ 31 + x.lane i.sb l + gfBytes i.fmt ≤ x.cluSize * 65536 ∧ (a - 2 ^ 31 + x.lane i.sb l) % gfBytes i.fmt = 0 ∧
      d + l * gfBytes i.fmt + gfBytes i.fmt ≤ x.scrSize * 65536 ∧ (d + l * gfBytes i.fmt) % gfBytes i.fmt = 0 := by unfold At State.atIns; simp only [knotOk_iff]; decide +kernel
theorem witness_Units_filter : ∀ fn ∈ List.range 5, let s := issuing (word 0x61 1 0 7 0 1 0 fn 0) (leBytes 4 0x80000000 ++ leBytes 4 0x800 ++ leBytes 4 10 ++ leBytes 4 3 ++ leBytes 4 0x900 ++ leBytes 4 0x80000800 ++ leBytes 4 0xa00 ++ leBytes 4 0); let i := now s; let x := s.ctx 10; At 0x61 s ∧
    s.inFlight 10 [.gather, .filter] < 8 ∧ x.knotOk 10 i ∧ x.scratchFault 10 (x.sr i.sa) 32 32 = none ∧ (s.readLocal 10 (x.sr i.sa) 32).any (fun b => filterOk i.fmt i.fn b && (filterOut 10 x i.fmt i.fn b).isNone) = true := by unfold At State.atIns; simp only [knotOk_iff]; decide +kernel
/-- A DMA descriptor: two rows of 64 bytes from the fabric to scratch memory. -/
def rows : List Byte := leBytes 8 (hall 0x40000100) ++ leBytes 8 0x800 ++ [byt 1] ++ leBytes 3 0 ++ leBytes 4 64 ++ leBytes 4 2 ++ leBytes 4 2 ++ leBytes 8 64 ++ leBytes 8 256 ++ leBytes 8 64 ++ leBytes 8 128
theorem witness_Units_dma : let s := issuing (word 0x80 0 0 7 0 1 0 0 0) rows; let i := now s; let x := s.ctx 10; At 0x80 s ∧ s.inFlight 10 [.dma] < 8 ∧ s.dmaSlots (ctxClu 10) < 64 ∧ x.knotOk 10 i ∧ x.scratchFault 10 (x.sr i.sa) 64 64 = none ∧ (s.readLocal 10 (x.sr i.sa) 64).any dmaOk = true := by
  unfold At State.atIns; simp only [knotOk_iff]; decide +kernel
/-- Two pages wanted, of which neither is placed. -/
def prefetching : State := let s := issuing (word 0x81 0 0 15 13 1 0 0 0) []; { s with pool := { s.pool with pages := [(512, { st := .valid, place := .floor })] } }
theorem witness_Units_prefetch : let s := prefetching; let i := now s; let x := s.ctx 10; let a := x.sr i.sa; let n := bits (x.sr i.sb) 0 16; At 0x81 s ∧ s.inFlight 10 [.pfPage] < 16 ∧ x.knotOk 10 i ∧ a % 2 ^ 21 = 0 ∧ 0 < n ∧ n ≤ 512 ∧ bits (x.sr i.sb) 16 16 = 0 ∧ bits (x.sr i.sb) 32 16 ≠ 0 ∧
    bits (x.sr i.sb) 48 16 = 0 ∧ s.extAt (a % 2 ^ 52) = some 3 ∧ a % 2 ^ 52 + n * 2 ^ 21 ≤ (s.ext 3).base + (s.ext 3).size ∧ s.progVerdict 10 { src := .tier, op := 0x14, addr := a, len := n * 2 ^ 21, part := x.part } F.SPL_PART_ACCESS.BULK = .serve .home (some 3) none ∧
    (s.ext 3).compressed = false ∧ s.pool.prefetch = [] ∧ (pagesOf (a % 2 ^ 52) (n * 2 ^ 21)).filter (fun p => !s.placed (s.ext 3) false p && decide ((s.page p).st ≠ .poisoned)) ≠ [] := by unfold At State.atIns; simp only [knotOk_iff]; decide +kernel
theorem witness_Knots_bind : At 0xA0 (issuing (word 0xa0 0 1 0 0 0 0 0 300) []) := by unfold At State.atIns; decide +kernel
theorem witness_Knots_handles : ∀ e ∈ [(0xA1, word 0xa1 0 0 1 8 0 0 0 0), (0xA2, word 0xa2 0 0 1 0 0 0 0 0), (0xA3, word 0xa3 0 9 1 8 0 0 0 0), (0xA4, word 0xa4 0 9 1 0 0 0 0 0)], let s := issuing e.2 []; let h := (s.ctx 10).handle (now s).sa; At e.1 s ∧ h.bound = true ∧ s.handleOps { ctx := 10, pc := 0, kind := .knotWait, fn := (now s).sa, b := h.id } .knotArr (fun _ => true) = [] ∧
    s.inFlight 10 [.knotWait] < 8 := by unfold At State.atIns; decide +kernel
theorem witness_Cleat_look : let s := issuing (word 0xb0 1 9 2 14 0 0 0 0) []; let i := now s; let x := s.ctx 10; let tag := bits (x.sr i.sb) 0 16; At 0xB0 s ∧ s.inFlight 10 [.cleatLook] < 8 ∧ bits (x.sr i.sb) 16 16 = 0 ∧ s.lent x.part tag = true ∧ bit i.fn 1 = false ∧
    ∀ l, l < 64 → bit (x.pr i.pg) l = true → s.look tag (lookKey i.fmt (x.lane i.sa l) (if bit i.fn 0 then x.lane (i.sa + 1) l else 0)) ≠ .bad := by unfold At State.atIns; decide +kernel
theorem witness_Checks : ∀ e ∈ [(0xC0, word 0xc0 0 0 7 0 1 0 0 0), (0xC1, word 0xc1 0 0 7 8 1 0 0 0), (0xC2, word 0xc2 0 0 7 8 1 0 0 0), (0xC3, word 0xc3 0 9 0 0 1 0 0 0), (0xC4, word 0xc4 0 9 0 0 1 0 0 0), (0xC5, word 0xc5 0 0 9 0 1 0 0 0)], let s := issuing e.2 rows; let i := now s; let x := s.ctx 10;
    At e.1 s ∧ s.inFlight 10 [.check] < 8 ∧ x.chkSlot = true ∧ x.knotOk 10 i ∧ x.scratchFault 10 (async10.sr 7) 32 32 = none ∧ (s.readLocal 10 (async10.sr 7) 32).isSome = true ∧ 1 ≤ async10.sr 8 ∧ async10.sr 8 ≤ 2 ^ 24 ∧ (e.1 = 0xC0 → i.sa = 7) ∧ (e.1 = 0xC1 ∨ e.1 = 0xC2 → i.sb = 8) := by
  unfold At State.atIns; simp only [knotOk_iff]; decide +kernel
/-- A codec request block: mode, whether it names a base, blocks and format. -/
def request (mode flags n w : Nat) : List Byte :=
  leBytes 8 (hall 0x40000000) ++ leBytes 8 (if bit flags 0 then hall 0x40000000 else 0) ++ leBytes 8 (hall 0x40000000) ++ leBytes 8 (if bit flags 1 then hall 0x40000000 else 0x1000) ++ leBytes 4 0 ++ leBytes 4 n ++ [byt flags, byt mode, byt w, byt 0] ++ leBytes 4 4 ++ leBytes 12 0 ++ leBytes 4 0
theorem witness_Codec : ∀ e ∈ [(0xD0, cdCard, 0, 0), (0xD1, cdEncode, 0, 0), (0xD1, cdFormat, 1, 0), (0xD2, cdDec, 0, 0)], let s := issuing (word e.1 0 0 7 0 1 0 0 0) (request e.2.2.1 e.2.2.2 1 2); let i := now s; let x := s.ctx 10; At e.1 s ∧ s.inFlight 10 [.codec] < 4 ∧ x.knotOk 10 i ∧
    x.scratchFault 10 (x.sr i.sa) 64 64 = none ∧ (x.locate 10 (x.sr i.sa + 48) 16).isSome = true ∧ (s.codecDie none).isSome = true ∧ (s.readLocal 10 (x.sr i.sa) 64).any (fun b => codecOk 10 x e.2.1 b && (codecNeeds e.2.1 b).all (fun m => decide (s.unitRights 10 x.part m.1 m.2.1 m.2.2 = none)) &&
      (e.1 != 0xD1 || (decide (byteAt b 41 = 1) == decide (e.2.1 = cdFormat)))) = true := by unfold At State.atIns; simp only [knotOk_iff]; decide +kernel

/-! ### The ends of asynchronous operations -/

/-- Operation 60 of context 10 in flight, with bytes at offset 0x400 of its scratch window. -/
def flying (p : AOp) : State := let s := issuing 0 ((List.range 64).map fun k => byt (k * 7 + 1)); { s with eng := { s.eng with ops := [(60, some p)] } }
def op60 : AOp := { ctx := 10, pc := 8, kind := .fabLd, dst := .s 9, knot := some 55, part := 2 }
/-- Operation 60 as the rules of its end want it. -/
def Ends (s : State) (p : AOp) : Prop := s.wf = true ∧ s.aop 60 = some p ∧ p.dead = false ∧ p.trap = false ∧ p.crec = none ∧ (s.ctx p.ctx).halting = false
theorem witness_Ends_answered : ∀ e ∈ [(AKind.fabLd, Dest.s 9, stDenied), (.fabLd, .s 9, 0), (.fabLd, .v 9, 0), (.fabAtom, .s 9, 0), (.fabBld, .win true (3 * 65536 + 16), 0), (.fabNear, .win false (2 ^ 21 + 65536), 4), (.fabSt, .none, 0), (.fabTrig, .none, 4), (.fabBst, .none, 0), (.redAdd, .none, 0)],
    let p := { op60 with kind := e.1, dst := e.2.1, len := 4, reply := some (e.2.2, [byt 1, byt 2, byt 3, byt 0xff]) }; Ends (flying p) p ∧ p.reply = some (e.2.2, [byt 1, byt 2, byt 3, byt 0xff]) := by unfold Ends; decide +kernel
theorem witness_Ends_timeout : Ends (flying op60) op60 ∧ op60.reply = none := by unfold Ends; decide +kernel
/-- A descriptor of one row of 64 bytes within scratch memory. -/
def oneRow : List Byte := leBytes 8 0x400 ++ leBytes 8 0x410 ++ [byt 0] ++ leBytes 3 0 ++ leBytes 4 64 ++ leBytes 4 1 ++ leBytes 4 1 ++ leBytes 8 64 ++ leBytes 8 256 ++ leBytes 8 64 ++ leBytes 8 128
theorem witness_Ends_dma : let p := { op60 with kind := .dma, dst := .none, data := oneRow }; let x := (flying p).ctx 10; Ends (flying p) p ∧ dmaRows p.data = (64, 1, 1) ∧ byteAt p.data 16 = 0 ∧ (x.unitRange 10 (dmaAddr p.data false 0) 64).isSome = true ∧ (x.unitRange 10 (dmaAddr p.data true 0) 64).isSome = true := by
  unfold Ends; decide +kernel
theorem witness_Ends_gather : let p := { op60 with kind := .gather, dst := .none, a := 0x20, len := 4, mask := 0x0f0f, words := (List.range 64).map (fun l => 4 * (63 - l)) }; Ends (flying p) p ∧ ∀ l, l < 64 → bit p.mask l = true → ((flying p).readLocal p.ctx (2 ^ 31 + p.words.getD l 0) p.len).isSome = true := by
  unfold Ends; decide +kernel
/-- A filter of twelve elements against a threshold without an index list. -/
def filtering : List Byte := leBytes 4 0x400 ++ leBytes 4 0x800 ++ leBytes 4 12 ++ leBytes 4 0x3c ++ leBytes 4 0xffffffff ++ leBytes 4 0 ++ leBytes 4 0xa00 ++ leBytes 4 0
theorem witness_Ends_filter : ∀ fn ∈ List.range 4, let p := { op60 with kind := .filter, dst := .none, data := filtering, fn := fn, c := 1 }; let s := flying p; let x := s.ctx 10; let e := gfBytes p.c; let n := leAt p.data 8 4; Ends s p ∧ leAt p.data 16 4 = 0xFFFFFFFF ∧
    (s.readLocal 10 (leAt p.data 0 4) (n * e)).any (fun src => let kept := (elems e src).filter (fun y => filterKeeps p.c p.fn y (leAt p.data 12 4 % 2 ^ (8 * e)) false);
      match x.locate 10 (leAt p.data 4 4) (e * kept.length), x.locate 10 (leAt p.data 24 4) 4 with | some qd, some qc => decide (qc.1 ≠ qd.1 ∨ qc.2 + 4 ≤ qd.2 ∨ qd.2 + e * kept.length ≤ qc.2) | _, _ => false) = true := by unfold Ends; decide +kernel
/-- A parameter block of a check value of w bits. -/
def checkBlock (w : Nat) : List Byte := leBytes 8 (0x42f0e1eba9ea3693 % 2 ^ w) ++ leBytes 8 (2 ^ w - 1) ++ leBytes 8 (2 ^ w - 1) ++ [byt w, byt 3] ++ leBytes 6 0
/-- The same with a check value configured. -/
def checking (p : AOp) : State := let s := flying p; { s with eng := { s.eng with ctxs := [(10, { async10 with chk := (ChkSlot.ofBlock (checkBlock 32)).getD {} })] } }
theorem witness_Ends_config : let p := { op60 with kind := .check, dst := .none, fn := 0, data := checkBlock 64 }; Ends (flying p) p ∧ (∀ q ∈ (flying p).opsOf p.ctx, q.2.kind = .check → 60 ≤ q.1) ∧ (ChkSlot.ofBlock p.data).isSome = true := by unfold Ends; decide +kernel
theorem witness_Ends_checks : ∀ e ∈ [(1, Dest.none), (2, .none), (3, .s 9), (4, .s 9), (5, .none)], let p := { op60 with kind := .check, dst := e.2, fn := e.1, a := 0x400, len := 9 }; let s := checking p; let x := s.ctx 10; Ends s p ∧ (∀ q ∈ s.opsOf p.ctx, q.2.kind = .check → 60 ≤ q.1) ∧ x.chk.width ≠ 0 ∧
    (x.locate 10 p.a p.len).isSome = true ∧ (x.locate 10 p.a (p.len + x.chk.size)).isSome = true := by unfold Ends; decide +kernel
/-- A codec request between scratch memory and extent 3. -/
def carding (b0 n : Nat) : List Byte :=
  leBytes 8 (hall 0x40000000) ++ leBytes 8 0x10000 ++ leBytes 8 (hall 0x40000000) ++ leBytes 8 0x500 ++ leBytes 4 b0 ++ leBytes 4 n ++ [byt 0, byt 0, byt 0, byt 1] ++ leBytes 4 4 ++ leBytes 12 0 ++ leBytes 4 0
theorem witness_Ends_card : let p := { op60 with kind := .codec, dst := .win false (2 ^ 21 + 65536 + 0x400), fn := cdCard, data := carding 5 1 }; let s := flying p; let x := s.ctx 10; Ends s p ∧ cdNblk p.data = 1 ∧ cdNoBase p.data = true ∧ cdSrcFab p.data = false ∧ cdDstFab p.data = false ∧
    (x.locate 10 (leAt p.data 8 8 % 2 ^ 32) 65536).isSome = true ∧ (x.locate 10 (leAt p.data 24 8 % 2 ^ 32) 16).any (fun qd => decide (false ≠ qd.1 ∨ 2 ^ 21 + 65536 + 0x400 + 12 ≤ qd.2 ∨ qd.2 + 16 ≤ 2 ^ 21 + 65536 + 0x400)) = true := by unfold Ends; decide +kernel
theorem witness_Ends_encoded : let p := { op60 with kind := .codec, dst := .win false (2 ^ 21 + 65536 + 0x400), fn := cdEncode, a := 1, b := 640, data := carding 5 1 }; Ends (flying p) p ∧ cdNblk p.data ≤ p.a := by unfold Ends; decide +kernel

/-- A block of zeros against a base of zeros takes no space. -/
theorem encode_zeros (block n : Nat) : encodeBlock 0 block (List.replicate n 0) (List.replicate n 0) = { state := 4, size := 0, bytes := [] } := by
  have e : elemsOf 4 (List.replicate n (0 : Byte)) = List.replicate (2 * n) 0 := by
    induction n with
    | zero => rfl
    | succ n ih => rw [List.replicate_succ, show 2 * (n + 1) = 2 * n + 1 + 1 by omega, List.replicate_succ, List.replicate_succ, ← ih]; rfl
  have k : ∀ n, packNibbles (List.replicate (2 * n) 0) = List.replicate n (0 : Byte) := fun n => by
    induction n with
    | zero => rfl
    | succ n ih => rw [show 2 * (n + 1) = 2 * n + 1 + 1 by omega, List.replicate_succ, List.replicate_succ, List.replicate_succ, ← ih]; rfl
  have z : codeStream 4 (List.replicate n 0) (List.replicate n 0) = List.replicate n 0 := by
    unfold codeStream
    rw [e]
    show bytesOf 4 (List.map _ (List.zipWith Prod.mk _ _)) = _
    rw [List.zipWith_replicate', List.map_replicate]
    exact k n
  have f : encodeBlock 0 block (List.replicate n 0) (List.replicate n 0) = if (codeStream 4 (List.replicate n 0) (List.replicate n 0)).all (· = 0) then { state := 4, size := 0, bytes := [] } else _ := rfl
  rw [f, z, if_pos (by simp)]
/-- Extent 3 compressed, with the header of a pack of eight blocks and bytes 16 to 31 of 0, and an encode of blocks 1 and 2. -/
def encoding : State :=
  let p := { op60 with kind := .codec, dst := .win false (2 ^ 21 + 65536 + 0x400), fn := cdEncode, data := carding 1 2 }
  let s := running 0 0 async10
  { s with pool := { s.pool with exts := [(3, { ext3 with flags := 1 + 32 })], mem := SMap.setRange 0 [] 0x40000000 (leBytes 4 0x44425846 ++ leBytes 1 0 ++ leBytes 1 1 ++ leBytes 2 0 ++ leBytes 4 8 ++ leBytes 4 0 ++ leBytes 8 0 ++ leBytes 8 65536 ++ List.replicate 32 0) }
           eng := { s.eng with ops := [(60, some p)], scratch := [] } }
theorem witness_Ends_block : let p := { op60 with kind := .codec, dst := .win false (2 ^ 21 + 65536 + 0x400), fn := cdEncode, data := carding 1 2 }; let s := encoding; let y := s.ext 3; let h := s.codecHdr y; Ends s p ∧ p.c = 0 ∧ p.a < cdNblk p.data ∧ s.codecExt p = some 3 ∧ y.gate = none ∧ h.ok = true ∧
    cdBlock0 p.data + cdNblk p.data ≤ h.nb ∧ (if h.noBase then none else s.unitRights p.ctx p.part (h.base + 65536 * (cdBlock0 p.data + p.a)) 65536 1) = none ∧ s.baseAcc h.noBase h.base (cdBlock0 p.data + p.a) = .ok ∧ cdSrcFab p.data = false ∧ ((s.ctx 10).locate 10 (leAt p.data 8 8 % 2 ^ 32 + 65536 * p.a) 65536).any (fun q => decide (q.1 = false)) = true ∧ (s.codecEntry y (cdBlock0 p.data + p.a)).1 = 0 ∧
    h.fill + 0 ≤ y.size ∧ 72 + 8 * (cdBlock0 p.data + p.a) ≤ h.fill ∧ h.wcode = 0 ∧ h.noBase = true ∧ (∀ w ∈ [(y.base + 24, leBytes 8 (h.fill + 0)), (y.base + h.fill, []), (y.base + 64 + 8 * (cdBlock0 p.data + p.a), leBytes 8 (4 + 0 / 64 * 2 ^ 16 + 0 * 2 ^ 32))],
      w.2 ≠ [] → s.writeAcc y w.1 w.2.length false = .ok ∧ ∀ n ∈ pagesOf w.1 w.2.length, (s.storedPage y n).map (·.place) = some (s.page n).place) := by unfold Ends; decide +kernel
theorem witness_Ends_block_size (b o : Nat) : encodeBlock 0 b (encoding.localBytes (false, o) 65536) (encoding.cardBase true 0 b []) = { state := 4, size := 0, bytes := [] } := by
  have e : encoding.localBytes (false, o) 65536 = List.replicate 65536 0 := by
    have m : encoding.localBytes (false, o) 65536 = (List.range 65536).map (fun i => SMap.get 0 [] (o + i)) := by
      show SMap.slice 0 encoding.eng.scratch o 65536 = _
      rw [show encoding.eng.scratch = [] from rfl]; rfl
    rw [m, List.eq_replicate_iff]
    refine ⟨by rw [List.length_map, List.length_range], fun b hb => ?_⟩
    obtain ⟨i, _, rfl⟩ := List.mem_map.mp hb
    rfl
  rw [e]; exact encode_zeros b 65536

/-! ### The Cleat -/

def ent (t lo hi r : Nat) (sys : Bool) (bad : Bool) : CleatEnt := { tag := t, lo := lo, hi := hi, result := r, sys := sys, bad := bad }
/-- A table with entries of two tags, of the forwarding class, of the rights class and of the switch, one of them uncorrectable. -/
def table : List CleatEnt := [ent 5 10 20 1 false false, ent 5 21 30 2 true false, ent 5 40 50 3 false true, ent 7 0 5 4 false false, ent 0xe001 3 9 5 false false, ent 0xf009 3 9 6 false false, ent 0xffff 0 100 7 true false]
/-- An update set that holds an update. -/
def updating (set : Nat) (u : CleatOp) : State :=
  let s : State := { put world [(F.CLEAT_LEND.TAG_BASE, [2], 6), (F.CLEAT_LEND.TAG_COUNT, [2], 8), (F.CLEAT_LEND.MAX_ENTRIES, [2], 3)] with cleat := { ents := table, fwd := [ent 0xe001 3 9 5 false false], caches := [(3, [ent 5 10 20 1 false false])] } }
  if set = 0 then put s [(F.CLEAT_UPD.OP, [], u.op), (F.CLEAT_UPD.TAG, [], u.tag), (F.CLEAT_UPD.LO, [], u.lo), (F.CLEAT_UPD.HI, [], u.hi), (F.CLEAT_UPD.RES, [], u.res)]
  else put s [(F.VIEW_CLEAT_UPD.OP, [set - 1], u.op), (F.VIEW_CLEAT_UPD.TAG, [set - 1], u.tag), (F.VIEW_CLEAT_UPD.LO, [set - 1], u.lo), (F.VIEW_CLEAT_UPD.HI, [set - 1], u.hi), (F.VIEW_CLEAT_UPD.RES, [set - 1], u.res)]
theorem witness_Cleat_accepted : cleatSound table ∧ ∀ e ∈ [(0, (⟨0, 5, 31, 35, 99⟩ : CleatOp)), (0, ⟨1, 5, 10, 0, 99⟩), (0, ⟨2, 5, 40, 60, 99⟩), (0, ⟨3, 5, 0, 0, 99⟩), (3, ⟨0, 0xf009, 20, 21, 99⟩)], let s := updating e.1 e.2; s.wf = true ∧ s.cleat.ents = table ∧ s.updReady e.1 e.2 ∧ s.cleat.upds = [] ∧
    s.cleatCheck e.2 (if e.1 = 0 then none else some (e.1 - 1)) false = 0 := by unfold cleatSound State.updReady; decide +kernel
theorem witness_Cleat_refused : ∀ e ∈ [((⟨0, 5, 9, 8, 99⟩ : CleatOp), 1), (⟨0, 5, 20, 22, 99⟩, 2), (⟨1, 5, 11, 0, 99⟩, 4), (⟨1, 5, 21, 0, 99⟩, 5), (⟨2, 5, 41, 45, 99⟩, 4)], let s := updating 0 e.1; s.wf = true ∧ s.cleat.ents = table ∧ s.updReady 0 e.1 ∧ s.cleat.upds = [] ∧ s.cleatCheck e.1 none false = e.2 ∧ e.1.tag ≠ 0xFFFE := by
  unfold State.updReady; decide +kernel
/-- Updates that wait, oldest first. -/
def queued (s : State) (l : List CleatUpd) : State := { s with cleat := { s.cleat with upds := l } }
theorem witness_Cleat_waits : let u : CleatOp := ⟨0, 5, 31, 35, 99⟩; let s := queued (updating 3 u) [{ src := .set 1, op := u }]; s.wf = true ∧ s.updReady 3 u ∧ s.cleat.upds ≠ [] ∧ ∀ v ∈ s.cleat.upds.head?, v.src ≠ .set 3 := by unfold State.updReady; decide +kernel
theorem witness_Cleat_completes : let u : CleatOp := ⟨0, 5, 31, 35, 99⟩; let s := queued (updating 3 u) [{ src := .set 3, op := u }]; s.wf = true ∧ s.cleat.upds = [{ src := .set 3, op := u }] := by decide +kernel
theorem witness_Cleat_bad : ent 5 40 50 3 false true ∈ (updating 0 ⟨0, 0, 0, 0, 0⟩).cleat.ents ∧ (ent 5 40 50 3 false true).bad = true := by decide +kernel
theorem witness_Cleat_fill : let s := updating 0 ⟨0, 0, 0, 0, 0⟩; (match s.look 5 22 with | .hit e => decide (e = ent 5 21 30 2 true false) && !s.changing e | _ => false) = true ∧ cleatFind (SMap.get [] s.cleat.caches 3) 5 22 = none := by decide +kernel

/-! ### Collectives, attention and retrieval -/

/-- A contribution or fetch of group 7. -/
def contrib (rank gen gran ctl : Nat) (data : List Byte) : Req := { src := .conn 5, op := 0x20, tid := 9, part := 2, words := [7 * 2 ^ 52 + rank * 2 ^ 40 + gen * 2 ^ 32 + gran, ctl], data := data }
/-- A switch whose group 7 is x, with a request at its turn. -/
def collGroup (x : Coll) (q : Req) : State :=
  put (ask { world with fab := { world.fab with colls := [(7, x)] } } 500 q) [(F.FELT_COLL.VALID, [7], 1), (F.FELT_COLL.PARTITION, [7], 2), (F.FELT_COLL.MODE, [7], 0), (F.FELT_COLL.FMT, [7], 2), (F.FELT_COLL.RES_FMT, [7], 2), (F.FELT_COLL.NRANKS_M1, [7], 1),
    (F.FELT_COLL.GRANULES, [7], 4), (F.FELT_COLL.TIMEOUT_US, [7], 5), (F.FELT_COLL.HOLD_US, [7], 5), (F.FELT_COLL.DONE_EN, [7], 1), (F.FELT_COLL.DONE_KNOT, [7], 55)]
/-- Two granules of FP32 elements. -/
def granules : List Byte := (List.range 32).flatMap fun k => leBytes 4 (0x3f800000 + k * 0x10000)
def sum3 (n : Nat) : Gran := { n := n, f := List.replicate 16 0x40400000 }
def open1 : Coll := { st := clgOpen, gen := 3, grans := [(0, sum3 1), (1, sum3 1)], marks := [(0, 2)] }
def open2 : Coll := { st := clgOpen, gen := 3, grans := [(0, sum3 2), (1, sum3 2), (2, sum3 2), (3, sum3 1)], marks := [(0, 4), (1, 3)] }
/-- The number of granules of a request that passes the checks of its group. -/
def checked (s : State) (q : Req) : Option Nat := match s.collCheck q with | .ok k => some k | .error _ => none
/-- A request of group 7 at its turn. -/
def Turn (s : State) (q : Req) : Prop := s.wf = true ∧ s.serviceTurn 500 0x20 q ∧ q.collId = 7 ∧ s.collInOrder 500 q = true
theorem witness_Collectives_error : let q := contrib 5 3 0 0 granules; let s := collGroup open1 q; Turn s q ∧ (match s.collCheck q with | .error c => decide (c ≠ 0) | .ok _ => false) = true := by unfold Turn State.serviceTurn State.clearPath; decide +kernel
theorem witness_Collectives_off : let q := contrib 0 3 0 0 granules; let s := put (collGroup open1 q) [(F.FELT_COLL.VALID, [7], 0)]; Turn s q ∧ s.r F.FELT_COLL.VALID [7] = 0 := by unfold Turn State.serviceTurn State.clearPath; decide +kernel
theorem witness_Collectives_generation : ∀ gen ∈ [4, 2], let q := contrib 1 gen 0 0 granules; let s := collGroup open1 q; Turn s q ∧ checked s q = some 2 ∧ q.collGen = gen ∧ (s.coll 7).gen = 3 := by unfold Turn State.serviceTurn State.clearPath; decide +kernel
theorem witness_Collectives_late : let q := contrib 1 3 0 0 granules; let s := collGroup { open1 with st := clgClosing } q; Turn s q ∧ checked s q = some 2 ∧ q.collGen = (s.coll 7).gen ∧ (s.coll 7).st = clgClosing := by unfold Turn State.serviceTurn State.clearPath; decide +kernel
theorem witness_Collectives_add : ∀ rank ∈ [0, 1], let q := contrib rank 3 0 0 granules; let s := collGroup open1 q; let x := s.coll 7; Turn s q ∧ checked s q = some 2 ∧ x.gen < 256 ∧ q.collGen = x.gen ∧ x.st = clgOpen ∧ q.collFetch = false ∧ q.collRet = false ∧ q.collRel = false ∧ s.collWaiting 7 = [] ∧
    (rank = 0 → q.collGran + 2 ≤ x.mark q.collRank) ∧ (rank = 1 → SMap.wf {} x.grans = true ∧ SMap.wf 0 x.marks = true ∧ SMap.get 0 x.held q.collRank = 0 ∧ x.rel = [] ∧ s.r F.FELT_COLL.DELIVER [7] = 0 ∧ s.r F.FELT_COLL.KIND [7] = 0 ∧ s.r F.FELT_COLL.MODE [7] = 0 ∧ x.mark q.collRank ≤ q.collGran) := by
  unfold Turn State.serviceTurn State.clearPath; decide +kernel
theorem witness_Collectives_fetch : let q := contrib 1 3 0 (1 + 3 * 256) []; let s := collGroup open2 q; let x := s.coll 7; Turn s q ∧ x.gen < 256 ∧ q.collGen = x.gen ∧ x.st = clgOpen ∧ q.collFetch = true ∧ q.collRel = false ∧ s.collWaiting 7 = [] ∧ (checked s q).any (fun k => s.gransDone 7 x q.collGran k) = true := by
  unfold Turn State.serviceTurn State.clearPath; decide +kernel
theorem witness_Collectives_ends : let s := collGroup open2 { src := .tier, op := 0 }; s.wf = true ∧ (s.coll 7).st = clgOpen ∧ s.collWaiting 7 = [] ∧ s.r F.FELT_COLL.DELIVER [7] = 0 ∧ s.r F.FELT_COLL.DONE_EN [7] = 1 := by decide +kernel
theorem witness_Collectives_closes : let s := collGroup { open2 with st := clgClosing } { src := .tier, op := 0 }; s.wf = true ∧ (s.coll 7).st = clgClosing ∧ (s.coll 7).pend = none := by decide +kernel
theorem witness_Collectives_written : let s := collGroup { open2 with st := clgComplete, wr := [4, 5], ans := [(5, 0), (4, 0)] } { src := .tier, op := 0 }; let x := s.coll 7; s.wf = true ∧ x.ans ≠ [] ∧ (∀ a ∈ x.ans, a.2 = stOk) ∧ x.st = clgComplete ∧ ∀ k ∈ x.wr, ∃ a ∈ x.ans, a.1 = k := by decide +kernel
theorem witness_Collectives_unwritten : let s := collGroup { open2 with wr := [4, 5], ans := [(5, 0), (4, 4)] } { src := .tier, op := 0 }; s.wf = true ∧ (s.coll 7).ans.find? (fun a => decide (a.2 ≠ stOk)) = some (4, 4) := by decide +kernel
/-- With no port behind connection 5. -/
def quietly (s : State) : State := { s with btp := { s.btp with conns := [(5, { conn5 with portSet := 0 })] } }
/-- Two FP32 granules added: 1 + 3 is 4 in the first element. -/
theorem test_contribution_adds : ((((after (execCollSeg 500 (quietly (collGroup open1 (contrib 1 3 0 0 granules))))).coll 7).gran 0).f).head? = some 0x40800000 := by decide +kernel

/-- A parked kernel context. -/
def kernel (prog parked : Nat) : Ctx := { st := .parked, part := 2, prog := prog, mode := true, autoRearm := true, xsvc := true, scrBase := 0, scrSize := 8, atiles := 2, parkedAt := parked }
/-- A retrieval over n rows. -/
def retrieval (n : Nat) : Req := { src := .conn 5, op := 0x2A, tid := 9, part := 2, words := [hall 0x40000000, n * 2 ^ 32 + 3 * 2 ^ 28 + 2 * 2 ^ 16], data := List.replicate (panelBytes 3 1) (byt 0x3c) }
/-- An attention request of one split over one page. -/
def attention : Req :=
  let a : Attn := { list := 0, scale := 0, tau := 0, nq := 1, nh := 1, nkv := 1, dlog := 0, nsplit := 1, kfmt := 9, vfmt := 9, sparse := false, npages := 1, body := [] }
  { src := .conn 5, op := 0x28, tid := 9, part := 2, words := [hall 0x40000000, 0x3f800000 * 2 ^ 32, 9 * 2 ^ 28 + 9 * 2 ^ 24 + 1], data := List.replicate a.maskAt (byt 0x7f) ++ leBytes 4 0 ++ leBytes 4 100 ++ leBytes 4 1 ++ leBytes 4 0 }
/-- Partition 2 with two kernel contexts, a request at its turn, and a place for four work items. -/
def service (attn : Bool) (n : Nat) (q : Req) : State :=
  put (ask { world with eng := { world.eng with ctxs := [(16, kernel (if attn then kernAttn else kernRetr) 5), (80, kernel (if attn then kernAttn else kernRetr) 4)] } } 500 q) [(F.CROWN_XSVC.STATE, [2], 2), (F.CROWN_XSVC.ATTN_CTX, [2], if attn then n else 0),
    (F.CROWN_XSVC.RETR_CTX, [2], if attn then 0 else n), (F.FELT_XSVC_QUOTA.MAX_ITEMS, [2], 4), (F.FELT_SHADOW_CFG.SVC_N, [], 0)]
theorem witness_Items_none : (let q := attention; let s := service true 0 q; s.wf = true ∧ s.serviceTurn 500 0x28 q ∧ q.want ≤ q.rcv ∧ s.kernelCount q.part true = 0) ∧ (let q := retrieval 64; let s := service false 0 q; s.wf = true ∧ s.serviceTurn 500 0x2A q ∧ q.want ≤ q.rcv ∧ s.kernelCount q.part false = 0) := by
  unfold State.serviceTurn State.clearPath; decide +kernel
theorem witness_Items_limits : (let q := { attention with data := [] }; let s := service true 2 q; s.wf = true ∧ s.serviceTurn 500 0x28 q ∧ q.want ≤ q.rcv ∧ s.r F.CROWN_XSVC.STATE [q.part] = 2 ∧ s.kernelCount q.part true ≠ 0 ∧ q.attn.ok = false) ∧
    (let q := retrieval 0; let s := service false 2 q; s.wf = true ∧ s.serviceTurn 500 0x2A q ∧ q.want ≤ q.rcv ∧ s.r F.CROWN_XSVC.STATE [q.part] = 2 ∧ s.kernelCount q.part false ≠ 0 ∧ q.retr.ok = false) := by unfold State.serviceTurn State.clearPath; decide +kernel
theorem witness_Items_busy : let q := retrieval (65536 * 5); let s := service false 2 q; s.wf = true ∧ s.serviceTurn 500 0x2A q ∧ q.want ≤ q.rcv ∧ s.r F.CROWN_XSVC.STATE [q.part] = 2 ∧ s.kernelCount q.part false ≠ 0 ∧ q.retr.ok = true ∧
    s.r F.FELT_XSVC_QUOTA.MAX_ITEMS [q.part] < s.queued.countP (fun e => decide (e.2.part = q.part)) + cdiv q.retr.tiles 1024 := by unfold State.serviceTurn State.clearPath; decide +kernel
theorem witness_Items_queued : (let q := attention; let s := service true 2 q; s.wf = true ∧ s.serviceTurn 500 0x28 q ∧ q.want ≤ q.rcv ∧ s.r F.CROWN_XSVC.STATE [q.part] = 2 ∧ s.kernelCount q.part true ≠ 0 ∧ q.attn.ok = true ∧ s.queued = [] ∧ q.attn.nsplit ≤ s.r F.FELT_XSVC_QUOTA.MAX_ITEMS [q.part] ∧
      s.r F.FELT_SHADOW_CFG.SVC_N [] = 0) ∧
    (let q := retrieval 65537; let s := service false 2 q; s.wf = true ∧ s.serviceTurn 500 0x2A q ∧ q.want ≤ q.rcv ∧ s.r F.CROWN_XSVC.STATE [q.part] = 2 ∧ s.kernelCount q.part false ≠ 0 ∧ q.retr.ok = true ∧ s.queued = [] ∧ cdiv q.retr.tiles 1024 ≤ s.r F.FELT_XSVC_QUOTA.MAX_ITEMS [q.part] ∧
      s.r F.FELT_SHADOW_CFG.SVC_N [] = 0) := by unfold State.serviceTurn State.clearPath; decide +kernel
/-- A work item of a request. -/
def item (attn : Bool) (op ctx : Option Nat) : Item := { req := 500, part := 2, attn := attn, ix := 0, op := op, ctx := ctx }
theorem witness_Items_dispatch : ∀ attn ∈ [true, false], let s0 := service attn 2 { (if attn then attention else retrieval 64) with wait := .launch }; let s : State := { s0 with fab := { s0.fab with items := [(900, some (item attn none none))] } }; s.wf = true ∧
    s.queued.filter (fun e => decide (e.2.part = 2) && (e.2.attn == attn)) = [(900, item attn none none)] ∧ (s.req 500).isSome = true ∧ s.kernelFor (item attn none none) = some 80 ∧ ∀ f ∈ s.items, f.2.shadow ≠ some 900 := by decide +kernel
/-- A work item whose kernel context has read what it needs. -/
def read (attn : Bool) (q : Req) : State :=
  let k := if attn then kernAttn else kernRetr
  let s := service attn 2 { q with wait := .launch }
  { s with fab := { s.fab with items := [(900, some (item attn (some 901) (some 80)))] }
           eng := { s.eng with ops := [(901, some { ctx := 80, pc := 0, kind := .kernel, part := 2, a := 900, d := 7, b := 1, buf := (List.range 64).map fun k => byt (k % 7 + 0x38) })], ctxs := [(16, kernel k 5), (80, { kernel k 4 with st := .ready })] } }
theorem witness_Items_complete : ∀ attn ∈ [true, false], let q := { (if attn then attention else retrieval 64) with wait := .launch }; let s := read attn q; s.wf = true ∧ SMap.get none s.fab.items 900 = some (item attn (some 901) (some 80)) ∧ s.req 500 = some q ∧ (s.aop 901).any (fun p => decide (p.b = 1)) = true ∧ q.src = .conn 5 ∧
    s.reqsWith (fun w => decide (w.src = .unit 901)) = [] ∧ s.r F.CROWN_HEALTH.FENCED [ctxEng 80] = 0 ∧ (s.kernels (s.ctx 80).part attn).length ≤ s.kernelCount (s.ctx 80).part attn ∧
    s.items.filter (fun e => decide (e.2.req = 500) && e.2.shadow.isNone) = [(900, item attn (some 901) (some 80))] ∧ (attn = true → q.op = 0x28 ∧ (q.attn.split 0).2 ≤ (q.attn.split 0).1 + 1) ∧ (attn = false → q.op = 0x2A ∧ min 1024 (q.retr.tiles - 1024 * 0) ≤ 1) := by decide +kernel
theorem witness_Items_shadows : let s := put (collGroup open1 { src := .tier, op := 0 }) [(F.SPL_SHADOW_CFG.MMA_N, [1], 4), (F.FELT_SHADOW_CFG.RED_N, [], 3)]; s.wf = true ∧ 64 / 4 = 65 / 4 ∧ s.r F.SPL_SHADOW_CFG.MMA_N [65 / 64] ≠ 0 ∧ s.r F.FELT_SHADOW_CFG.RED_N [] ≠ 0 ∧ s.r F.FELT_COLL.KIND [7] = 0 ∧
    (s.coll 7).holds = true := by decide +kernel

/-! ### The traffic manager -/

/-- Port 70 UP with a forwarding entry to queue 40 and its class 1, whose queue sends at port 71. -/
def switching (l : List (Fld × List Nat × Nat)) : State :=
  put { up with cleat := { up.cleat with fwd := [ent 0xe001 0 100 (0xC * 2 ^ 60 + 40) false false] }, nextId := 1000 } ([(F.BRIM_PORT.LINK_STATE, [1, 6], lkUp), (F.TM_CTRL.TM_EN, [], 1), (F.TM_INPORT.PARTITION, [1, 6], 2), (F.TM_INPORT.PROFILE, [1, 6], 1), (F.TM_CLASS.TC, [1, 64], 1),
    (F.TM_Q.VALID, [41], 1), (F.TM_Q.VALID, [40], 1), (F.TM_Q.PORT, [41], 71), (F.TM_Q.PARTITION, [41], 2), (F.TM_Q.MIN_CELLS, [41], 2), (F.TM_Q.ALPHA, [41], 4), (F.TM_PART.SHARED_MAX, [2], 100), (F.TM_PORT.UP, [71], 1), (F.BRIM_PORT.LINK_STATE, [1, 7], lkUp), (F.TM_Q.WEIGHT, [41], 3),
    (F.BRIM_PORT.MAX_FRAME, [1, 6], 9000)] ++ l)
def frame : FrameHdr := { bytes := 1000, err := .none, dscp := some 0, vlan := none, ipLen := some 982, ect := true, tag := 0xe001, key := 5, mem := false, data := List.replicate 1000 (byt 7) }
/-- Port 70 under MACsec, its next packet number 300 and its replay window 64. -/
def secured : State := let s := switching [(F.BRIM_PORT.MACSEC_EN, [1, 6], 1), (F.BRIM_PORT.REPLAY_WINDOW, [1, 6], 64)]; { s with ports := [(70, { step := 8, rxPn := 300 })] }
/-- The frame is of class 64, which no policer takes. -/
theorem witness_Frames_link : (switching []).wf = true ∧ (switching []).link 70 = lkUp ∧ (switching []).boot.pend = none ∧ (switching []).secure 70 frame.sec = some ((switching []).port 70) ∧ frame.err = .none ∧ 64 ≤ frame.bytes ∧ frame.bytes ≤ (switching []).r F.BRIM_PORT.MAX_FRAME [1, 6] ∧ ({ frame with err := .fcs } : FrameHdr).err = .fcs ∧
    (switching []).r F.TM_INPORT.PROFILE [1, 6] * 64 + 0 = 64 ∧ (switching []).r F.TM_CLASS.TC [1, 64] = 1 ∧ ({ frame with bytes := 63 } : FrameHdr).bytes < 64 := by decide +kernel
theorem witness_Frames_secured : secured.wf = true ∧ secured.link 70 = lkUp ∧ secured.boot.pend = none ∧ secured.secure 70 none = none ∧ secured.secure 70 (some (0, 235)) = none ∧ (secured.secure 70 (some (0, 236))).isSome = true ∧ (secured.secure 70 (some (1, 1))).isSome = true := by decide +kernel
theorem witness_Frames_red : let s := switching [(F.TM_CLASS.POL_EN, [1, 64], 1), (F.TM_INPORT.POL_BASE, [1, 6], 2040), (F.TM_CLASS.POL_OFF, [1, 64], 9), (F.TM_POL.EN, [1, 1], 1)]; s.wf = true ∧ s.link 70 = lkUp ∧ s.boot.pend = none ∧ s.r F.TM_CLASS.POL_EN [1, 64] = 1 ∧
    1 = (s.r F.TM_INPORT.POL_BASE [1, 6] + s.r F.TM_CLASS.POL_OFF [1, 64]) % 2048 ∧ s.r F.TM_POL.EN [1, 1] = 1 ∧ s.r F.TM_POL.RED_ACT [1, 1] = 0 ∧ (s.secure 70 frame.sec).isSome = true ∧ (s.polAt 1 1 (s.shadow 9)).tp < frame.bytes * 80000 := by decide +kernel
theorem witness_Frames_forward : let s := switching []; s.r F.TM_CLASS.POL_EN [1, 64] = 0 ∧ frame.mem = false ∧ s.r F.TM_CTRL.TM_EN [] = 1 ∧ s.r F.TM_INPORT.SHARED [1, 6] = 0 ∧ s.r F.TM_INPORT.PARTITION [1, 6] = 2 ∧ s.fenced 2 = false ∧
    (match cleatLook s.cleat.fwd frame.tag 200 with | .miss => true | _ => false) = true ∧ (match cleatLook s.cleat.fwd frame.tag frame.key with | .hit e => decide (e = ent 0xe001 0 100 (0xC * 2 ^ 60 + 40) false false) | _ => false) = true ∧ isFwdTag frame.tag = true ∧
    (ent 0xe001 0 100 (0xC * 2 ^ 60 + 40) false false).kind = 0xC ∧ bit (0xC * 2 ^ 60 + 40) 14 = false ∧ s.queueOf ((0xC * 2 ^ 60 + 40) % 2 ^ 14) 1 2 = some 41 ∧ s.queueShut 41 = false ∧ frameCells (max 60 (14 + 982)) = 5 := by decide +kernel
theorem witness_Frames_admitted : (switching []).admitCells 41 2 (frameCells (max 60 (14 + 982))) (decide ((switching []).r F.TM_CLASS.COLOUR [1, 64] = 1)) = some (2, frameCells (max 60 (14 + 982)) - 2) := by decide +kernel
theorem witness_Frames_dropped : (switching [(F.TM_PART.SHARED_MAX, [2], 1)]).admitCells 41 2 (frameCells (max 60 (14 + 982))) (decide ((switching [(F.TM_PART.SHARED_MAX, [2], 1)]).r F.TM_CLASS.COLOUR [1, 64] = 1)) = none := by decide +kernel
/-- The frame admitted, its last cell not yet written. -/
def admitted : State := after (execFrameReceive 70 frame (switching []))
theorem witness_Frames_last : admitted.wf = true ∧ (admitted.frm 1000).any (fun x => decide (x.done = false ∧ x.qs = [41] ∧ x.first = 41 ∧ x.out = [] ∧ frameCells (64 - 4) ≤ x.n)) = true := by decide +kernel
/-- The frame whole in its queue. -/
def whole : State := after (execFrameLastCellWritten 1000 1000 .none admitted)
theorem witness_Frames_sent : whole.wf = true ∧ whole.portSends 71 (whole.shadow 16) = true ∧ whole.d2d.retraining.contains 9 = false ∧ (whole.pick 71 (whole.shadow 16)).any (fun e => decide (e.1 = some 41)) = true ∧ (whole.headOf 41).any (fun e => decide (e.1 = 1000 ∧ e.2.2.done = true ∧ e.2.2.qs = [41])) = true := by decide +kernel
/-- A packet of a response. -/
def answer : Msg := .btp 5 { src := 1, dst := 2, ecn := 2, flow := 3, udpSrc := 2 ^ 15, udpDst := 4000, csum := 0 } { sack := false, chk := false, ackValid := true, resp := true, op := 0x10, dst := 9, psn := 195, ackPsn := 9, epoch := 1, ord := 2, status := 0, extN := 0, tid := 4, plen := 8, credit := 3 } [] (List.replicate 8 (byt 1)) []
/-- The packet waiting at port 71. -/
def headed : State := let s := switching [(F.TM_PORT.RESP_WEIGHT, [71], 2)]; { s with btp := { s.btp with respQs := [(71, [answer])] } }
theorem witness_Frames_head : headed.wf = true ∧ SMap.get [] headed.btp.respQs 71 = [answer] ∧ 0 < headed.frameBytes 71 answer ∧ SMap.get [] (switching []).btp.respQs 71 = [] := by decide +kernel
/-- A response waiting at port 71. -/
def responding : State := after (execRespQueueHeadChange 71 headed)
theorem witness_Frames_grant : responding.wf = true ∧ responding.portSends 71 (responding.shadow 16) = true ∧ (responding.pick 71 (responding.shadow 16)).any (fun e => decide (e.1 = none)) = true := by decide +kernel
theorem witness_Frames_flush : (after (run admitted (flushPort 71))).wf = true ∧ ((after (run admitted (flushPort 71))).tmPort 71).freed.isSome = true := by decide +kernel

/-! ### The ports -/

/-- Port 70 in a mode and link state, with more registers set, enabled. -/
def atPort (md st : Nat) (x : PortSt) (l : List (Fld × List Nat × Nat)) : State := put { world with ports := [(70, x)] } ([(F.BRIM_OCTET.MODE, [1, 1], md), (F.BRIM_PORT.EN, [1, 6], 1), (F.BRIM_PORT.LINK_STATE, [1, 6], st)] ++ l)
/-- Port 70 as the rules want it: sound, with no tray and no agent on it. -/
def Port (md st : Nat) (x : PortSt) (s : State) : Prop := s.wf = true ∧ s.port 70 = x ∧ s.trayOn 70 = none ∧ s.agentOf 70 = none ∧ s.portMode 70 = md ∧ s.portOn 70 = true ∧ s.link 70 = st
theorem witness_Ports_signal : Port mdEth lkDown { step := 1 } (atPort mdEth lkDown { step := 1 } []) := by unfold Port; decide +kernel
theorem witness_Ports_signal_lost : ∀ st ∈ [lkTraining, lkUp], Port mdEth st { step := 5, signal := true } (atPort mdEth st { step := 5, signal := true } []) := by unfold Port; decide +kernel
/-- The same with the port owned by partition 2, fenced. -/
def owned (s : State) : State := put s [(F.CROWN_PART_CTRL.STATE, [2], ptFenced), (F.TM_INPORT.PARTITION, [1, 6], 2)]
/-- Whether a port is owned by a fenced partition. -/
def held (s : State) (p : Nat) : Bool := (List.range 16).any (fun q => s.fenced q && s.owns q p)
theorem witness_Ports_hold : let x : PortSt := { retry := true, fails := 1 }; let s := atPort mdEth lkDown x []; held s 70 = false ∧ Port mdEth lkDown x (owned s) ∧ held (owned s) 70 = true := by unfold Port; decide +kernel
theorem witness_Ports_steps : ∀ k ∈ [1, 2, 3, 4, 5, 6], Port mdEth lkTraining { step := k, signal := true } (atPort mdEth lkTraining { step := k, signal := true } []) ∧ (atPort mdEth lkTraining { step := k, signal := true } []).r F.BRIM_PORT.MACSEC_EN [1, 6] = 0 := by unfold Port; decide +kernel
theorem witness_Ports_macsec : ∀ e ∈ [(6, none), (7, some 0), (7, none)], let x : PortSt := { step := e.1, signal := true, sak := e.2 }; let s := atPort mdEth lkTraining x [(F.BRIM_PORT.MACSEC_EN, [1, 6], 1), (F.CROWN_PEER.VALID, [70], 1)]; Port mdEth lkTraining x s ∧ s.r F.BRIM_PORT.MACSEC_EN [1, 6] = 1 ∧
    s.r F.CROWN_PEER.VALID [70] = 1 ∧ s.macsec 70 = true ∧ s.r F.CROWN_LC_STATUS.LC_STATE [] = 1 := by unfold Port; decide +kernel
theorem witness_Ports_keys : (List.replicate 32 (byt 9)).length = 32 ∧ (List.replicate 31 (byt 9)).length ≠ 32 := by decide
theorem witness_Ports_attempts : ∀ k ∈ [1, 2], Port mdEth lkTraining { step := 4, signal := true, fails := k } (atPort mdEth lkTraining { step := 4, signal := true, fails := k } []) := by unfold Port; decide +kernel
theorem witness_Ports_retry : Port mdEth lkDown { retry := true, fails := 1 } (atPort mdEth lkDown { retry := true, fails := 1 } []) := by unfold Port; decide +kernel
theorem witness_Ports_up : Port mdEth lkUp { signal := true } (atPort mdEth lkUp { signal := true } []) ∧ (atPort mdEth lkUp { signal := true, bad := 9 } []).r F.BRIM_PORT.REEQ_WINDOWS [1, 6] ≤ 9 + 1 ∧ 0 + 1 < (atPort mdEth lkUp { signal := true } []).r F.BRIM_PORT.REEQ_WINDOWS [1, 6] := by
  unfold Port; decide +kernel
theorem witness_Ports_fenced : Port mdEth lkFenced { signal := true } (atPort mdEth lkFenced { signal := true } []) := by unfold Port; decide +kernel
theorem witness_Ports_reeq : ∀ k ∈ [1, 2], Port mdEth lkReeq { signal := true, tries := k, checking := true } (atPort mdEth lkReeq { signal := true, tries := k, checking := true } []) := by unfold Port; decide +kernel
theorem witness_Ports_pcie : let s := put { world with ports := [(64, { step := 1, signal := true })] } [(F.BRIM_OCTET.MODE, [1, 0], mdPcie), (F.BRIM_OCTET.MODE, [1, 1], mdPcie), (F.BRIM_PORT.EN, [1, 0], 1), (F.BRIM_PORT.LINK_STATE, [1, 0], lkTraining), (F.BRIM_OCTET.MAX_RATE, [1, 0], 2)]; s.wf = true ∧
    s.trayOn 64 = none ∧ s.agentOf 64 = none ∧ s.portMode 64 = mdPcie ∧ s.portOn 64 = true ∧ s.port 64 = { step := 1, signal := true } ∧ s.link 64 = lkTraining ∧ s.x16 64 = true ∧ 2 ≤ s.r F.BRIM_OCTET.MAX_RATE [1, 0] := by decide +kernel
theorem witness_Ports_pcie_up : let s := atPort mdPcie lkUp { signal := true } [(F.BRIM_LINK_CTRL.MARGIN_MIN, [1], 20), (F.BRIM_PCIE_CTRL.RETRAIN_S, [1], 60)]; Port mdPcie lkUp { signal := true } s ∧ 19 < s.r F.BRIM_LINK_CTRL.MARGIN_MIN [1] ∧ s.r F.BRIM_PCIE_CTRL.RETRAIN_S [1] ≠ 0 := by unfold Port; decide +kernel
theorem witness_Ports_recovery : Port mdPcie lkRecovery { signal := true } (atPort mdPcie lkRecovery { signal := true } []) := by unfold Port; decide +kernel
theorem witness_Ports_ide : let s := atPort mdCxl lkUp { signal := true } [(F.BRIM_OCTET.IDE_EN, [1, 1], 1)]; Port mdCxl lkUp { signal := true } s ∧ s.ideOn 70 = true := by unfold Port; decide +kernel
theorem witness_Ports_hbm : 0 < (put up [(F.FELT_HBM_TRAIN.MARGIN_MIN, [], 1)]).r F.FELT_HBM_TRAIN.MARGIN_MIN [] := by decide +kernel
theorem witness_Ports_fence_sets : ∀ r ∈ [0, 1], Port mdEth lkUp { signal := true, rxFence := some r } (atPort mdEth lkUp { signal := true, rxFence := some r } []) := by unfold Port; decide +kernel
theorem witness_Ports_fence_block : ∀ r ∈ [0, 1], ∀ i ∈ [0, 15], let b : FenceSet := { d1 := 0xF0 + i, d2 := 16 * r + 15, d3 := 200 }; fenceReason b = some r ∧ Port mdEth lkUp { signal := true } (atPort mdEth lkUp { signal := true } []) := by unfold Port; decide +kernel
theorem witness_Ports_fence_none : fenceReason { d1 := 0xEF, d2 := 0, d3 := 0 } = none ∧ fenceReason { d1 := 0xF0, d2 := 0, d3 := 0, o := 1 } = none := by decide
theorem witness_Ports_fence_hold : Port mdEth lkFenced { fence := some 0 } (atPort mdEth lkFenced { fence := some 0 } []) := by unfold Port; decide +kernel

/-! ### Partitions, the life cycle and debug -/

/-- Partition 2 in a state, with a configuration that CREATE takes, a context of its own waiting on a knot, and port 70. -/
def part (st : Nat) (l : List (Fld × List Nat × Nat)) : State :=
  let s := running 0 0 regs10
  put { s with eng := { s.eng with ops := [(60, some { ctx := 10, pc := 8, kind := .knotWait, a := 7, dst := .s 1, part := 2 })] }, knots := { s.knots with kn := [(7, { st := .active, waits := [{ ctx := 10, op := 60, gen := 0 }] })] } }
    ([(F.CROWN_PART_CTRL.STATE, [2], st), (F.KNOT_SLICE.BASE, [2], 4), (F.KNOT_SLICE.COUNT, [2], 8), (F.KNOT.VALID, [7], 1), (F.CROWN_PART_CFG.RIGHTS_TAG, [2], 77), (F.CROWN_PART_CFG.MEM, [2], 1), (F.CROWN_PART_CFG.KNOT_BASE, [2], 4), (F.CROWN_PART_CFG.KNOT_COUNT, [2], 8),
      (F.CROWN_PART_CFG.TAG_COUNT, [2], 3), (F.BRIM_PORT.EN, [1, 6], 1), (F.BRIM_OCTET.MODE, [1, 1], 1), (F.TM_INPORT.PARTITION, [1, 6], 2), (F.BRIM_PORT.LINK_STATE, [1, 6], lkUp)] ++ l)
theorem witness_Partitions_states : ∀ st ∈ [ptFree, ptActive, ptFencing, ptFenced], let s := part st []; s.wf = true ∧ s.boot.pend = none ∧ s.partSt 2 = st ∧ s.r F.CROWN_PART_CTRL.CREATE [2] = 0 ∧ s.r F.CROWN_PART_CTRL.FENCE [2] = 0 ∧ s.r F.CROWN_PART_CTRL.REMOVE [2] = 0 ∧
    SMap.wf 0 s.boot.started = true ∧ (st = ptFree → s.createResult 2 = 0) := by decide +kernel
theorem witness_Partitions_refused : ∀ e ∈ [(F.CROWN_PART_CFG.RIGHTS_TAG, [2], 0xe000), (F.CROWN_LC_STATUS.LC_STATE, [], 2)], let s := part ptFree [e]; s.wf = true ∧ s.partSt 2 = ptFree ∧ s.createResult 2 ≠ 0 ∧ s.createResult 2 < 16 ∧ (e.1 = F.CROWN_LC_STATUS.LC_STATE → s.r F.CROWN_LC_STATUS.LC_STATE [] ≠ 1) := by
  decide +kernel
theorem witness_Partitions_stalled : ∀ en ∈ [0, 1], let s := ask (part ptActive [(F.CROWN_WDT_CTRL.PART_EN, [], en)]) 500 (req 0x10 0x40000000 64); s.wf = true ∧ s.boot.pend = none ∧ s.partSt 2 = ptActive ∧ s.holdsReq 2 = true ∧ s.r F.CROWN_WDT_CTRL.PART_EN [] = en := by decide +kernel
theorem witness_Partitions_drained : let s := part ptFencing [(F.CROWN_PART_CTRL.FENCE, [2], 1)]; s.wf = true ∧ s.partSt 2 = ptFencing ∧ s.r F.CROWN_PART_CTRL.REMOVE [2] = 0 ∧ s.reqsWith (fun q => decide (q.part = 2)) = [] ∧ s.r F.CROWN_PART_CTRL.FENCE [2] = 1 := by decide +kernel
theorem witness_Partitions_removed : (part ptRemoving []).wf = true ∧ (part ptRemoving []).partSt 2 = ptRemoving ∧ (part ptRemoving []).r F.CROWN_KEY_EPOCH.EPOCH [2] + 1 < 2 ^ 32 ∧ (part ptScrubbing []).wf = true ∧ (part ptScrubbing []).partSt 2 = ptScrubbing := by decide +kernel
/-- A life cycle state, the debug port and TIER_EN. -/
def cycle (lc db te : Nat) : State := put up [(F.CROWN_LC_STATUS.LC_STATE, [], lc), (F.CROWN_LC_STATUS.DEBUG_STATE, [], db), (F.TIER_CTRL.TIER_EN, [], te)]
theorem witness_LifeCycle_moves : (cycle 1 0 0).wf = true ∧ (cycle 1 0 0).r F.CROWN_LC_STATUS.LC_STATE [] = 1 ∧ 1 < 2 ∧ (cycle 1 0 0).allFree = true ∧ (cycle 1 0 0).r F.TIER_CTRL.TIER_EN [] = 0 := by decide +kernel
theorem witness_LifeCycle_refused : (cycle 2 0 0).wf = true ∧ 1 ≤ (cycle 2 0 0).r F.CROWN_LC_STATUS.LC_STATE [] ∧ (cycle 1 0 1).r F.TIER_CTRL.TIER_EN [] = 1 ∧ (part ptActive []).allFree = false := by decide +kernel
theorem witness_Debug : (cycle 2 0 0).r F.CROWN_LC_STATUS.LC_STATE [] = 2 ∧ (cycle 1 1 0).wf = true ∧ (cycle 1 1 0).r F.CROWN_LC_STATUS.LC_STATE [] = 1 ∧ (cycle 1 1 0).r F.CROWN_LC_STATUS.DEBUG_STATE [] = 1 ∧ (cycle 3 0 0).wf = true ∧ (cycle 3 0 0).r F.CROWN_LC_STATUS.LC_STATE [] = 3 ∧
    (cycle 1 0 0).r F.CROWN_LC_STATUS.DEBUG_STATE [] = 0 := by decide +kernel

/-! ### Ill-formed commands, one for each check -/

theorem test_refused_numbers : ∀ i ∈ [Instr.engPllLockLost 8, .fenceHoldExpiry 512, .partitionWatchdogExpiry 16, .ctxWatchdogExpiry 4096, .engineWatchdogExpiry 512, .clusterCleatFill 128 0 0, .btpAck 65536 0 0 0 none, .cxlSnoopResponse 32 0 .iHitI [] false, .knotRearm 65536, .collGenerationTimeout 4096, .extentAddingComplete (2 ^ 20),
    .extentRecoveryComplete 0 [(64, .none)], .trayLost 64, .mboxExtAdd 8, .cleatInsert 17, .d2dCrcError 19 true, .tempReport 25 0, .hbmRetrain 6 0, .loglineRecord 3, .registerWrite 5 (.write 0 4 0), .mgmtMessage 4 true (.read 0 4), .lcTransition 4 true, .spdmGetVersion 514], i.wf = false := by decide +kernel
theorem test_refused_values : ∀ i ∈ [Instr.powerOnBoot false false 16 true true ⟨true, 0, 0⟩ ⟨true, 0, 0⟩, .pldmGetPldmCommands 256, .btpPacketReceive 0 0 65536 true false .confirmed [], .cleatEntryRestore 65536 0 true, .registerWrite 0 (.write (2 ^ 32) 4 0), .registerWrite 0 (.write 0 4 (2 ^ 64)), .roceRdmaWrite 0 0 (2 ^ 24) .next true false [], .roceRdmaWrite 16384 0 0 .next true false [],
    .cxlSnoopResponse 0 (2 ^ 46 + 1) .iHitI [] false, .fenceOrderedSetReceive 0 { type := 256, d1 := 0xF0, d2 := 0, d3 := 0 }, .btpAck 0 0 (2 ^ 32) 0 none, .btpAck 0 65536 0 0 none, .spdmPskExchange 0 [], .fenceOrderedSetReceive 512 { d1 := 0xF0, d2 := 0, d3 := 0 }], i.wf = false := by decide +kernel
theorem test_refused_facts : ∀ i ∈ [Instr.timeBroadcast (List.replicate 19 0), .powerSample 0 (List.replicate 20 0), .linkErrorWindow 0 (List.replicate 17 0) 0 [], .commitGo (.brim 8), .mboxTrayAttach 0 (some { kind := 2, bytes := 0 }), .powerOnBoot false false 0 true true ⟨true, 256, 0⟩ ⟨true, 0, 0⟩, .pldmSensorRead (.temp 25),
    .mgmtMessage 0 true (.write 0 4 (2 ^ 64)), .frameReceive 0 { bytes := 64, vlan := some 4096 }, .roceRdmaWrite 0 0 0 (.first (2 ^ 32) 0 0) true false [], .shadowCompare (.mma 512 0) true, .resyncComplete (some { seq := 2 ^ 64 })], i.wf = false := by decide +kernel
theorem test_refused_boot (f : BootFacts) (h : 256 ≤ f.compute) : (Instr.ppsFirstEdge f).wf = false := by
  show (decide (f.compute < 256) && decide (f.brims < 256) && decide (f.hbms < 64) && decide (f.epochs.length ≤ 16)) = false
  rw [decide_eq_false (by omega : ¬ f.compute < 256)]; rfl
theorem test_refused_bytes (r : Nat) (x : TierRead) (bs : List Byte) (h : 2 ^ 24 < bs.length) : (Instr.load r x bs).wf = false :=
  decide_eq_false (by omega : ¬ bs.length ≤ 2 ^ 24)

/-! ### Numbers that the spec works out -/

/-- The check values of R407 over the ASCII bytes of 123456789. -/
theorem test_check_values : ∀ e ∈ [(8, 7, 0, 0, 0, 0xF4), (16, 0x1021, 0xFFFF, 0, 0, 0x29B1), (32, 0x04C11DB7, 0xFFFFFFFF, 3, 0xFFFFFFFF, 0xCBF43926), (32, 0x1EDC6F41, 0xFFFFFFFF, 3, 0xFFFFFFFF, 0xE3069283), (64, 0x42F0E1EBA9EA3693, 2 ^ 64 - 1, 3, 2 ^ 64 - 1, 0x995DC9BBDF1939FA)],
    (ChkSlot.ofBlock (leBytes 8 e.2.1 ++ leBytes 8 e.2.2.1 ++ leBytes 8 e.2.2.2.2.1 ++ [byt e.1, byt e.2.2.2.1] ++ leBytes 6 0)).map (fun k => k.final (k.feed k.init ((List.range 9).map fun i => byt (0x31 + i)))) = some e.2.2.2.2.2 := by decide +kernel
/-- The word of mma.mxf4 a2, s4, s5 with MOD.ACC = 1, worked after R255. -/
theorem test_word_mma : let i := Ins.ofWord 0x4060841401000000 0; [i.op, i.fmt, i.dst, i.sa, i.sb, i.sc, i.pg] = [0x40, 6, 2, 4, 5, 0, 0] ∧ i.acc = true := by decide +kernel
/-- The word of fab.atom.add.i64.strict.trap s3, s10, s11, worked after R305. -/
theorem test_word_atomic : let i := Ins.ofWord 0x92C0CA2C01400000 0; [i.op, i.fmt, i.dst, i.sa, i.sb, i.fn, i.ord] = [0x92, 12, 3, 10, 11, 0, 2] ∧ i.trap = true := by decide +kernel
/-- One element of an mma.mxf4, worked after R237: 2^24 + 9 rounds to 16,777,224. -/
theorem test_mma_element : mmaElem 6 ([byt 0xD3, byt 0x07] ++ List.replicate (64 * blockBytes 6 - 2) 0 ++ [byt 0x7F]) ([byt 0x25, byt 0x01] ++ List.replicate (96 * blockBytes 6 - 2) 0 ++ [byt 0x80]) 0 0 (fp32.dec 0x4B800000) = 0x4B800004 := by decide +kernel
/-- A block whose largest magnitude is 5 quantized to E2M1, worked after R239: X = 0, and 5 rounds to 4. -/
theorem test_mx_quant : (mxQuant 6 0 false (fp32.dec 0x40A00000 :: List.replicate 31 (fp32.dec 0))).1 = 127 ∧ (mxQuant 6 0 false (fp32.dec 0x40A00000 :: List.replicate 31 (fp32.dec 0))).2.head? = some 6 := by decide +kernel
/-- The codes of four variant bytes against their base, worked after R389. -/
theorem test_delta_codes : codeStream 8 [byt 0x3B, byt 0x41, byt 0xB6, byt 0x3F] [byt 0x3A, byt 0x41, byt 0xB8, byt 0x40] = [byt 2, byt 0, byt 3, byt 1] := by decide +kernel
/-- The code lengths of the block worked after R394: 1, 3, 2, 3 for symbols 0 to 3, and their codes. -/
theorem test_code_lengths : (codeLengths ([61440, 1536, 2048, 512] ++ List.replicate 252 0)).take 4 = [1, 3, 2, 3] ∧ canonCodes [1, 3, 2, 3] = [(1, 0, 0), (2, 2, 2), (3, 6, 1), (3, 7, 3)] := by decide +kernel
/-- A frame of 1,514 bytes takes seven cells, worked after R413. -/
theorem test_frame_cells : frameCells 1514 = 7 := by decide +kernel
/-- The policer worked after R424: ten frames of 4,000 bytes, 100 ns apart. -/
theorem test_policer_colours : ((List.range 10).foldl (fun (a : List Nat × Pol) k =>
    let x : Pol := if k = 0 then a.2 else { a.2 with tc := min (16384 * 80000) (a.2.tc + 1250 * 80000), tp := min (16384 * 80000) (a.2.tp + 2500 * 80000) }
    let r := polColour false 0 (4000 * 80000) x
    (a.1 ++ [r.1], r.2)) ([], { tc := 16384 * 80000, tp := 16384 * 80000, t := 0 })).1 = [0, 0, 0, 0, 0, 1, 1, 0, 1, 2] := by decide +kernel
/-- Three FAST additions in the order of ranks 0, 1, 2, worked after R311: 1 + 2^-30 - 1 is 0. -/
theorem test_fast_sum : f32Add 0 (f32Add 0 0x3F800000 0x30800000) 0xBF800000 = 0 := by decide +kernel
/-- Bytes of a number, most significant first. -/
def hexBytes (n v : Nat) : List Nat := nats (beBytes n v)
/-- The example of AES-256 in FIPS 197, appendix C.3. -/
theorem test_aes : let k := hexBytes 32 0x000102030405060708090a0b0c0d0e0f101112131415161718191a1b1c1d1e1f; aesEnc k (hexBytes 16 0x00112233445566778899aabbccddeeff) = hexBytes 16 0x8ea2b7ca516745bfeafc49904b496089 ∧
    aesDec k (hexBytes 16 0x8ea2b7ca516745bfeafc49904b496089) = hexBytes 16 0x00112233445566778899aabbccddeeff := by decide +kernel
/-- The first two blocks of vector 10 of IEEE 1619. -/
theorem test_xts : let k1 := hexBytes 32 0x2718281828459045235360287471352662497757247093699959574966967627; let k2 := hexBytes 32 0x3141592653589793238462643383279502884197169399375105820974944592;
    (xtsEnc k1 k2 0xff ((List.range 256).map byt)).take 32 = beBytes 32 0x1c3b3a102f770386e4836c99e370cf9bea00803f5e482357a4ae12d414a3e63b := by decide +kernel

end Sys2Proof.Tests
end

section
namespace Sys2Proof.Machine
open Sys2Proof

/-! ### What the end of a request cannot undo

Ending a request runs through most of the model: its answer, the lines it holds, the extents, partitions, knots and operations that waited for it. The proofs here need only a few facts about all that,
and they are facts that every step of it keeps: `State.steady`. They are proved once for each program on the way (`Prog.Steady`), so that no later proof walks through those programs. -/

/-- From s to t time stands, records are only added, no request comes back, no packet leaves a response queue, and each connection that is not CLOSING keeps its state and its count of failed opens. Where
`far` is false fabric memory, the contexts and the knots stay as well: an answer leaves them, and only what an error of a connection or a time-out sets off reaches them. -/
structure State.steady (far : Bool) (s t : State) : Prop where
  time : t.time = s.time
  wire : s.log.wire <+: t.log.wire
  gone : ∀ r, s.req r = none → t.req r = none
  queued : ∀ p, ∀ m ∈ s.respQ p, m ∈ t.respQ p
  conn : ∀ c, (s.conn c).st = .closing ∨ ((t.conn c).st = (s.conn c).st ∧ (t.conn c).badOpens = (s.conn c).badOpens)
  near : far = false → t.pool.mem = s.pool.mem ∧ t.eng.ctxs = s.eng.ctxs ∧ t.knots = s.knots

theorem State.steady.refl (far : Bool) (s : State) : s.steady far s :=
  ⟨rfl, List.prefix_rfl, fun _ h => h, fun _ _ h => h, fun _ => .inr ⟨rfl, rfl⟩, fun _ => ⟨rfl, rfl, rfl⟩⟩

theorem State.steady.trans {far : Bool} {s t u : State} (h : s.steady far t) (k : t.steady far u) : s.steady far u where
  time := k.time.trans h.time
  wire := h.wire.trans k.wire
  gone r hr := k.gone r (h.gone r hr)
  queued p m hm := k.queued p m (h.queued p m hm)
  conn c := by
    rcases h.conn c with hc | ⟨h1, h2⟩
    · exact .inl hc
    · rcases k.conn c with kc | ⟨k1, k2⟩
      · exact .inl (h1.symm.trans kc)
      · exact .inr ⟨k1.trans h1, k2.trans h2⟩
  near hf := by
    obtain ⟨a1, a2, a3⟩ := h.near hf
    obtain ⟨b1, b2, b3⟩ := k.near hf
    exact ⟨b1.trans a1, b2.trans a2, b3.trans a3⟩

/-- The updates that keep `State.steady` in whatever state. -/
@[simp] def Eff.calm (far : Bool) : Eff → Bool
  | .time _ | .wire _ | .logReset | .conn _ _ | .respQ _ _ | .dropUnits => false
  | .req _ x => x.isNone
  | .mem _ _ | .memR _ _ | .memZero _ _ | .ctx _ _ | .knot _ _ | .sig _ _ | .launches _ | .domain _ => far
  | _ => true

/-- A program that reads the state leaves every sound state steady: the form for programs that write back what they read, and so are steady only as a whole. -/
def Prog.Meets (far : Bool) (f : State → Prog) : Prop := ∀ s : State, s.wf = true → s.steady far ((f s).run s)

/-- A program of calm updates, and of reads that are such programs or steady as a whole. -/
def Prog.Steady (far : Bool) : Prog → Prop
  | .skip => True
  | .eff e => e.calm far = true
  | .seq p q => p.Steady far ∧ q.Steady far
  | .get f => (∀ s, (f s).Steady far) ∨ Prog.Meets far f

/-- A calm update leaves the state steady. -/
theorem Eff.calm.steady {far : Bool} {e : Eff} (h : e.calm far = true) {s : State} (hs : s.wf = true) : s.steady far (e.apply s) := by
  cases e
  case req r x =>
    obtain rfl : x = none := by simpa [Eff.calm] using h
    refine ⟨rfl, List.prefix_rfl, fun k hk => ?_, fun _ _ hm => hm, fun _ => .inr ⟨rfl, rfl⟩, fun _ => ⟨rfl, rfl, rfl⟩⟩
    by_cases e : k = r
    · subst e; exact State.req_same hs k none
    · exact (State.req_other hs e none).trans hk
  case time | wire | logReset | conn | respQ | dropUnits => cases h
  case mem | memR | memZero | ctx | knot | sig | launches | domain =>
    obtain rfl : far = true := h
    exact ⟨rfl, List.prefix_rfl, fun _ hk => hk, fun _ _ hm => hm, fun _ => .inr ⟨rfl, rfl⟩, fun hf => by cases hf⟩
  all_goals exact ⟨rfl, List.prefix_rfl, fun _ hk => hk, fun _ _ hm => hm, fun _ => .inr ⟨rfl, rfl⟩, fun _ => ⟨rfl, rfl, rfl⟩⟩

/-- A steady program leaves the state steady. -/
theorem Prog.Steady.run {far : Bool} : ∀ {p : Prog}, p.Steady far → ∀ {s : State}, s.wf = true → s.steady far (p.run s)
  | .skip, _, s, _ => .refl far s
  | .eff _, h, _, hs => Eff.calm.steady h hs
  | .seq p _, h, s, hs => (Prog.Steady.run h.1 hs).trans (Prog.Steady.run h.2 (p.run_wf s hs))
  | .get _, .inl h, s, hs => Prog.Steady.run (h s) hs
  | .get _, .inr h, s, hs => h s hs

@[simp] theorem Prog.steady_skip {far : Bool} : Prog.skip.Steady far := trivial
@[simp] theorem Prog.steady_eff {far : Bool} {e : Eff} : (Prog.eff e).Steady far ↔ e.calm far = true := .rfl
@[simp] theorem Prog.steady_seq {far : Bool} {p q : Prog} : (Prog.seq p q).Steady far ↔ p.Steady far ∧ q.Steady far := .rfl
@[simp] theorem Prog.steady_rd {far : Bool} {f : State → Prog} : (rd f).Steady far ↔ (∀ s, (f s).Steady far) ∨ Prog.Meets far f := .rfl

/-- A program that reads the state is steady where it is for every reading. -/
theorem Prog.steady_of_reads {far : Bool} {f : State → Prog} (h : ∀ s, (f s).Steady far) : (rd f).Steady far := .inl h

/-- A program that reads the state is steady where its run is from every sound state. -/
theorem Prog.steady_of_runs {far : Bool} {f : State → Prog} (h : ∀ s : State, s.wf = true → s.steady far ((f s).run s)) : (rd f).Steady far := .inr h

@[simp] theorem Prog.steady_all_nil {far : Bool} : (Prog.all []).Steady far := trivial

@[simp] theorem Prog.steady_all_cons {far : Bool} {p : Prog} {ps : List Prog} :
    (Prog.all (p :: ps)).Steady far ↔ p.Steady far ∧ (Prog.all ps).Steady far := by
  cases ps
  · exact (and_iff_left trivial).symm
  · exact .rfl

@[simp] theorem Prog.steady_when {far c : Bool} {p : Prog} : (Prog.when c p).Steady far ↔ (c = true → p.Steady far) := by
  cases c <;> simp [Prog.when]

@[simp] theorem Prog.steady_ite {far : Bool} {c : Prop} [Decidable c] {p q : Prog} :
    (if c then p else q).Steady far ↔ (c → p.Steady far) ∧ (¬ c → q.Steady far) := by
  by_cases h : c <;> simp [h]

@[simp] theorem Prog.steady_each {α : Type} {far : Bool} {f : α → Prog} {xs : List α} : (Prog.each xs f).Steady far ↔ ∀ x ∈ xs, (f x).Steady far := by
  induction xs with
  | nil => simp [Prog.each]
  | cons x xs ih => simp [Prog.each, ih]

@[simp] theorem Prog.steady_opt {α : Type} {far : Bool} {o : Option α} {f : α → Prog} : (Prog.opt o f).Steady far ↔ ∀ x, o = some x → (f x).Steady far := by
  cases o <;> simp [Prog.opt]


/-! ### The programs by which a request ends are steady -/

@[simp] theorem steady_wr {far : Bool} (f : Fld) (ix : List Nat) (v : Nat) : (wr f ix v).Steady far := rfl
@[simp] theorem steady_count {far : Bool} (f : Fld) (ix : List Nat) (n : Nat) : (count f ix n).Steady far := .inl fun _ => steady_wr ..
@[simp] theorem steady_send {far : Bool} (m : Msg) : (send m).Steady far := rfl
@[simp] theorem steady_msix {far : Bool} (v : Nat) : (msix v).Steady far := by simp [msix]

/-- A record writes only the log, and adds to its wire. -/
theorem steady_of_log (far : Bool) (r : LogRec) (s : State) : s.steady far ((log r).run s) := by
  have hk : s.keeps ((log r).run s) [.log] := Prog.within_keeps (within_log r) s
  have hb : ((log r).run s).btp = s.btp := hk .btp (by simp)
  have he : ((log r).run s).eng = s.eng := hk .eng (by simp)
  have hp : ((log r).run s).pool = s.pool := hk .pool (by simp)
  exact {
    time := hk .time (by simp)
    wire := by rw [log_wire]; exact List.prefix_append ..
    gone := fun k h => by rw [State.req, hb]; exact h
    queued := fun p m h => by rw [State.respQ, hb]; exact h
    conn := fun c => .inr (by rw [State.conn, hb]; exact ⟨rfl, rfl⟩)
    near := fun _ => ⟨by rw [hp], by rw [he], hk .knots (by simp)⟩ }

@[simp] theorem steady_log {far : Bool} (r : LogRec) : (log r).Steady far := .inr fun s _ => steady_of_log far r s

@[simp] theorem steady_domainChange {far : Bool} (what : State → DomUpd) : (domainChange what).Steady far := by
  simp [domainChange]

@[simp] theorem steady_setPart {far : Bool} (p st : Nat) : (setPart p st).Steady far := by
  simp [setPart, regChange]

@[simp] theorem steady_extDone {far : Bool} (e : Option Nat) : (extDone e).Steady far := by
  simp [extDone, extChange]

@[simp] theorem steady_partCheck {far : Bool} (p : Nat) : (partCheck p).Steady far := by
  simp [partCheck, partFenced]

/-- A connection rewritten with its state and count, or while it is CLOSING. -/
theorem State.steady_conn {far : Bool} {s : State} (hs : s.wf = true) {c : Nat} {x : Conn}
    (h : (s.conn c).st = .closing ∨ (x.st = (s.conn c).st ∧ x.badOpens = (s.conn c).badOpens)) : s.steady far ((Eff.conn c x).apply s) where
  time := rfl
  wire := List.prefix_rfl
  gone _ h := h
  queued _ _ h := h
  near _ := ⟨rfl, rfl, rfl⟩
  conn d := by
    by_cases hd : d = c
    · subst hd; simpa [hs] using h
    · exact .inr (by rw [State.conn_other hs hd]; exact ⟨rfl, rfl⟩)

@[simp] theorem steady_closeCheck {far : Bool} (c : Nat) : (closeCheck c).Steady far := by
  refine Prog.steady_of_runs fun s hs => ?_
  by_cases h : (s.conn c).st = .closing ∧ (s.conn c).out.isEmpty ∧ (s.openOn c).isEmpty
  · simp only [if_pos h, Prog.run_eff]
    exact State.steady_conn hs (.inl h.1)
  · simp only [if_neg h, Prog.run_skip]
    exact .refl far s

@[simp] theorem steady_reqGone {far : Bool} (q : Req) : (reqGone q).Steady far := by
  have hn (c : Nat) : Prog.Meets far (fun s => if (s.conn c).st = .free then .skip else .eff (.conn c { s.conn c with ended := q.tid :: (s.conn c).ended })) := by
    intro s hs
    by_cases h : (s.conn c).st = .free
    · simp only [if_pos h]; exact .refl far s
    · simp only [if_neg h]; exact State.steady_conn hs (.inr ⟨rfl, rfl⟩)
  cases h : q.src <;> simp [reqGone, h, hn]

theorem State.respQ_wf {s : State} (h : s.wf = true) : SMap.wf [] s.btp.respQs = true := by
  obtain ⟨_, _, _, hf, _, _⟩ := State.wf_parts h
  simp only [State.fabricWf, Bool.and_eq_true] at hf
  simp only [hf]

@[simp] theorem State.respQ_same {s : State} (h : s.wf = true) (p : Nat) (l : List Msg) : ((Eff.respQ p l).apply s).respQ p = l :=
  SMap.get_set_same _ (SMap.rising_of_wf (State.respQ_wf h)) p l

theorem State.respQ_other {s : State} (h : s.wf = true) {p k : Nat} (hk : k ≠ p) (l : List Msg) : ((Eff.respQ p l).apply s).respQ k = s.respQ k :=
  SMap.get_set_other _ (SMap.rising_of_wf (State.respQ_wf h)) hk l

theorem State.steady_queued {far : Bool} {s : State} (hs : s.wf = true) (p : Nat) (m : Msg) :
    s.steady far ((Eff.respQ p (s.respQ p ++ [m])).apply s) where
  time := rfl
  wire := List.prefix_rfl
  gone _ h := h
  conn _ := .inr ⟨rfl, rfl⟩
  near _ := ⟨rfl, rfl, rfl⟩
  queued k x hx := by
    by_cases hk : k = p
    · subst hk; rw [State.respQ_same hs]; exact List.mem_append_left _ hx
    · rwa [State.respQ_other hs hk]

@[simp] theorem steady_queuePkt {far : Bool} (c : Nat) (h : BtpHdr) (ext data chk : List Byte) : (queuePkt c h ext data chk).Steady far := by
  refine Prog.steady_of_runs fun s hs => ?_
  cases hm : s.connPort c with
  | none => simp only [Prog.run_opt_none]; exact .refl far s
  | some m =>
    by_cases hl : 72 + ext.length + data.length + chk.length ≤ s.mtu (connDie c) m
    · simp only [Prog.run_opt_some, if_pos hl, Prog.run_eff]
      exact State.steady_queued hs _ _
    · simp only [Prog.run_opt_some, if_neg hl]
      exact (steady_count ..).run hs

@[simp] theorem steady_emit {far : Bool} (c : Nat) (p : OutPkt) : (emit c p).Steady far := by simp [emit]

/-- A connection rewritten with its state and count, and then a steady program: the form of the programs that send a packet. -/
theorem State.steady_conn_then {far : Bool} {s : State} (hs : s.wf = true) {c : Nat} {x : Conn} (hst : x.st = (s.conn c).st)
    (hbad : x.badOpens = (s.conn c).badOpens) {p : Prog} (hp : p.Steady far) : s.steady far (p.run ((Eff.conn c x).apply s)) :=
  (State.steady_conn hs (.inr ⟨hst, hbad⟩)).trans (hp.run (Eff.apply_wf _ s hs))

@[simp] theorem steady_resend {far : Bool} (c psn : Nat) (rto : Option Nat) : (resend c psn rto).Steady far := by
  refine Prog.steady_of_runs fun s hs => ?_
  dsimp only
  split
  · exact .refl far s
  · split
    · exact .refl far s
    · simp only [Prog.run_all_cons, Prog.run_all_nil, Prog.run_eff]
      refine State.steady_conn_then hs ?_ ?_ (steady_emit ..) <;> rfl

@[simp] theorem steady_sendPkt {far : Bool} (c : Nat) (p : OutPkt) (seg : Option Nat) : (sendPkt c p seg).Steady far := by
  refine ⟨by simp, Prog.steady_of_runs fun s hs => ?_⟩
  simp only [Prog.run_all_cons, Prog.run_all_nil, Prog.run_eff]
  refine State.steady_conn_then hs ?_ ?_ (steady_emit ..) <;> rfl

@[simp] theorem steady_setReply {far : Bool} (o status : Nat) (data : List Byte) (fail : Option (Nat × Nat)) : (setReply o status data fail).Steady far := by
  refine Prog.steady_of_reads fun s => ?_
  split <;> simp

@[simp] theorem steady_keepFence {far : Bool} (c tid status : Nat) (data : List Byte) : (keepFence c tid status data).Steady far :=
  .inr fun _ hs => State.steady_conn hs (.inr ⟨rfl, rfl⟩)

@[simp] theorem steady_roceAnswer {far : Bool} (n : Nat) (q : Req) (status : Nat) (data : List Byte) (logged : Bool) :
    (roceAnswer n q status data logged).Steady far := by
  simp [roceAnswer]

@[simp] theorem steady_answer {far : Bool} (q : Req) (status : Nat) (data : List Byte) (logged : Bool) (fail : Option (Nat × Nat)) :
    (answer q status data logged fail).Steady far := by
  refine Prog.steady_of_reads fun s => ?_
  cases q.src <;> simp

@[simp] theorem steady_respond {far : Bool} (r status : Nat) (data : List Byte) : (respond r status data).Steady far := by
  refine Prog.steady_of_reads fun s => ?_
  cases s.req r <;> simp

@[simp] theorem steady_refuse {far : Bool} (r status cause obj0 obj1 : Nat) : (refuse r status cause obj0 obj1).Steady far := by
  refine Prog.steady_of_reads fun s => ?_
  cases s.req r <;> simp

/-! ### What waits on a request ends with it: contexts, operations, pages -/

@[simp] theorem steady_zeroWindows (c : Nat) : (zeroWindows c).Steady true := by simp [zeroWindows]
@[simp] theorem steady_startZero (c : Nat) (st : CtxState) (t : ZeroThen) : (startZero c st t).Steady true := by simp [startZero]
@[simp] theorem steady_haltCheck (c : Nat) : (haltCheck c).Steady true := by simp [haltCheck]
@[simp] theorem steady_faultCtx (c cause status pc link : Nat) : (faultCtx c cause status pc link).Steady true := by simp [faultCtx]
@[simp] theorem steady_putLocal (p : Bool × Nat) (bs : List Byte) : (putLocal p bs).Steady true := by simp [putLocal]
@[simp] theorem steady_postSignal (n status : Nat) : (postSignal n status).Steady true := by simp [postSignal, fresh]

@[simp] theorem steady_asyncEnd (o status bytesDone addr : Nat) (note : Bool) : (asyncEnd o status bytesDone addr note).Steady true := by
  refine Prog.steady_of_reads fun s => ?_
  cases SMap.get none s.eng.ops o <;> simp

@[simp] theorem steady_prefetchEnd (f : Prefetch) (status cause : Nat) : (prefetchEnd f status cause).Steady true := by simp [prefetchEnd]
@[simp] theorem steady_prefetchSweep : prefetchSweep.Steady true := by simp [prefetchSweep]
@[simp] theorem steady_touchPage {far : Bool} (p : Nat) : (touchPage p).Steady far := by simp [touchPage]

@[simp] theorem steady_markRecopy (p a n : Nat) : (markRecopy p a n).Steady true := by
  refine Prog.steady_of_reads fun s => ?_
  cases SMap.get none s.pool.migs p <;> simp

@[simp] theorem steady_storePages (x : Ext) (a n : Nat) : (storePages x a n).Steady true := by
  refine Prog.steady_each.mpr fun p _ => Prog.steady_of_reads fun s => ?_
  cases s.storedPage x p <;> simp [pageChange]

@[simp] theorem steady_clearPoison (a n : Nat) : (clearPoison a n).Steady true := by simp [clearPoison]
@[simp] theorem steady_recordRows (x : Ext) (a n : Nat) : (recordRows x a n).Steady true := by simp [recordRows, rowsChange]

@[simp] theorem steady_closeCombs (a n : Nat) : (closeCombs a n).Steady true := by
  refine Prog.steady_of_reads fun s => Prog.steady_each.mpr fun e _ => ?_
  cases e.2 <;> simp

@[simp] theorem steady_homePut (x : Ext) (a : Nat) (bs : List Byte) : (homePut x a bs).Steady true := by simp [homePut]

/-! ### The coherence lines of a request go on (R169 to R178) -/

@[simp] theorem steady_poisonLine {far : Bool} (l cause agent : Nat) : (poisonLine l cause agent).Steady far := by simp [poisonLine]
@[simp] theorem steady_dirChange {far : Bool} (l : Nat) : (dirChange l).Steady far := steady_domainChange _

@[simp] theorem steady_purgeLine (l : Nat) : (purgeLine l).Steady true := by
  refine Prog.steady_of_reads fun s => ?_
  cases s.dirAt l with
  | none => simp
  | some e => cases h : e.holders.find? (fun n => decide (s.agentSt n = agRecalling)) <;> simp [h]

@[simp] theorem steady_setDir (l p : Nat) (em : Bool) (holders : List Nat) : (setDir l p em holders).Steady true := by simp [setDir, ageSet]
@[simp] theorem steady_dropDir (l : Nat) : (dropDir l).Steady true := by simp [dropDir]

@[simp] theorem steady_agentData (l : Nat) (data : List Byte) (poison : Bool) (n : Nat) (write : Bool) : (agentData l data poison n write).Steady true := by
  refine Prog.steady_of_reads fun s => ?_
  cases s.extAt (l * 64) <;> simp

@[simp] theorem steady_cxlTo (n msg l : Nat) (data : List Byte) : (cxlTo n msg l data).Steady true := by simp [cxlTo]

@[simp] theorem steady_finishCxl (l : Nat) (op : CxlOp) (n : Nat) (data : List Byte) (poison fromEM : Bool) : (finishCxl l op n data poison fromEM).Steady true := by
  refine Prog.steady_of_reads fun s => ?_
  cases op <;> simp

@[simp] theorem steady_finishPoisonClear (l : Nat) : (finishPoisonClear l).Steady true := by simp [finishPoisonClear]

/-- An open request rewritten. -/
theorem State.steady_req {far : Bool} {s : State} (hs : s.wf = true) {r : Nat} {q q' : Req} (h : s.req r = some q) : s.steady far ((Eff.req r (some q')).apply s) where
  time := rfl
  wire := List.prefix_rfl
  queued _ _ h := h
  conn _ := .inr ⟨rfl, rfl⟩
  near _ := ⟨rfl, rfl, rfl⟩
  gone k hk := by
    have hkr : k ≠ r := fun e => by simp [e, h] at hk
    rwa [State.req_other hs hkr]

@[simp] theorem steady_captureLine {far : Bool} (r l : Nat) : (captureLine r l).Steady far := by
  refine Prog.steady_of_runs fun s hs => ?_
  cases h : s.req r with
  | none => exact .refl far s
  | some q => exact State.steady_req hs h

@[simp] theorem steady_snoopAll {far : Bool} (l : Nat) (k : Snoop) (ns : List Nat) : (snoopAll l k ns).Steady far := by simp [snoopAll]
@[simp] theorem steady_cxlRefuse {far : Bool} (port l status cause obj part : Nat) : (cxlRefuse port l status cause obj part).Steady far := by simp [cxlRefuse]

theorem steady_openTxn (l : Nat) (k : TxnKind) (queue : List TxnKind) {go : Prog} (h : go.Steady true) : (openTxn l k queue go).Steady true := by
  simp [openTxn, h]

/-- The lines go on transaction by transaction, whatever the fuel. -/
theorem steady_drive : ∀ (fuel : Nat) (o : Option Nat), (drive fuel o).Steady true
  | 0, _ => Prog.steady_skip
  | fuel + 1, none => by
    have ih := steady_drive fuel
    refine Prog.steady_of_reads fun s => ?_
    split
    · simp [ih]
    · rename_i l k _ _
      cases s.txnAt l <;> simp [ih, steady_openTxn]
    · simp
  | fuel + 1, some l => by
    have ih := steady_drive fuel
    refine Prog.steady_of_reads fun s => ?_
    cases s.txnAt l with
    | none => simp
    | some t =>
      refine Prog.steady_ite.mpr ⟨fun _ => Prog.steady_skip, fun _ => ?_⟩
      cases t.kind with
      | cxl op n data poison =>
        refine Prog.steady_ite.mpr ⟨fun _ => ?_, fun _ => Prog.steady_ite.mpr ⟨fun _ => ?_, fun _ => ?_⟩⟩
        · cases t.queue <;> simp [ih, steady_openTxn]
        · split
          · simp
          · refine Prog.steady_all_cons.mpr ⟨steady_count .., Prog.steady_all_cons.mpr ⟨steady_purgeLine _, Prog.steady_of_reads fun u => ?_⟩⟩
            split <;> simp [ih]
        · cases t.queue <;> simp [ih, steady_openTxn]
      | req r => cases h : s.req r <;> cases t.queue <;> simp [h, ih, steady_openTxn]
      | evict => cases t.queue <;> cases t.next <;> simp [ih, steady_openTxn]
      | poisonClear => cases t.queue <;> simp [ih, steady_openTxn]
      | done => cases t.queue <;> simp [ih, steady_openTxn]

@[simp] theorem steady_driveLine (l : Nat) : (driveLine l).Steady true := Prog.steady_of_reads fun _ => steady_drive ..

@[simp] theorem steady_releaseLines (r : Nat) (ls : List Nat) : (releaseLines r ls).Steady true := by
  refine Prog.steady_each.mpr fun l _ => Prog.steady_of_reads fun s => ?_
  cases s.txnAt l <;> simp

@[simp] theorem steady_cut (r status cause obj : Nat) : (cut r status cause obj).Steady true := by simp [cut]

/-! ### Knots break and outstanding requests end with their connection -/

@[simp] theorem steady_knotChange {far : Bool} (n : Nat) : (knotChange n).Steady far := steady_domainChange _

@[simp] theorem steady_waitEnd (o status : Nat) (ready : Bool) (value : Nat) : (waitEnd o status ready value).Steady true := by
  refine Prog.steady_of_reads fun s => ?_
  cases SMap.get none s.eng.ops o with
  | none => simp
  | some p =>
    refine Prog.steady_all_cons.mpr ⟨?_, by simp⟩
    split <;> simp

@[simp] theorem steady_ackArrival (a : Arriver) (gen : Nat) : (ackArrival a gen).Steady true := by
  refine Prog.steady_of_reads fun s => ?_
  cases a with
  | op o => cases h : SMap.get none s.eng.ops o <;> simp [h]
  | req r => simp
  | none => simp

@[simp] theorem steady_breakKnot (n : Nat) : (breakKnot n).Steady true := by
  refine Prog.steady_of_reads fun s => ?_
  simp only [Prog.steady_all_cons, Prog.steady_each]
  refine ⟨rfl, steady_knotChange n, steady_count .., fun _ _ => steady_waitEnd .., fun a _ => ?_, trivial⟩
  cases a <;> simp

@[simp] theorem steady_breakStage (i : Nat) : (breakStage i).Steady true := by simp [breakStage]

@[simp] theorem steady_outEnd (t status : Nat) (data : List Byte) : (outEnd t status data).Steady true := by
  refine Prog.steady_of_reads fun s => ?_
  cases SMap.get none s.btp.outs t with
  | none => simp
  | some o =>
    simp only [Prog.steady_all_cons, Prog.steady_each, Prog.steady_opt]
    refine ⟨rfl, fun r _ => Prog.steady_of_reads fun u => ?_, fun e _ => Prog.steady_of_reads fun u => ?_, fun n _ => ?_, trivial⟩
    · cases u.req r <;> simp
    · cases SMap.get none u.hitch.combs e <;> simp
    · simp

/-! ### A response goes out on a connection (R50, R62)

The response is kept in the connection until it is acknowledged, and its packet waits at the port of the connection. Packets that were flushed are sent again before it, so the state it is sent in is not the
one the request ended in: `State.alike` says what of it the response depends on. -/

theorem State.rb_of_r {s t : State} {f : Fld} {ix : List Nat} (h : t.r f ix = s.r f ix) : t.rb f ix = s.rb f ix := by
  rw [State.rb, h, State.rb]

/-- What `connPort` and the size of a packet depend on is the same in s and t: the link states and the largest frames of the ports. -/
def State.portsAs (s t : State) : Prop := (∀ p, t.link p = s.link p) ∧ ∀ n m, t.mtu n m = s.mtu n m

theorem State.portsAs.trans {s t u : State} (h : s.portsAs t) (k : t.portsAs u) : s.portsAs u :=
  ⟨fun p => (k.1 p).trans (h.1 p), fun n m => (k.2 n m).trans (h.2 n m)⟩

theorem State.portsAs_of_regs {s t : State} (h : t.regs = s.regs) : s.portsAs t := by
  have hr (f : Fld) (ix : List Nat) : t.r f ix = s.r f ix := by rw [State.r, h, State.r]
  exact ⟨fun p => hr .., fun n m => by simp only [State.mtu, hr, fun f ix => State.rb_of_r (hr f ix)]⟩

theorem State.portsAs_count {s : State} (hs : s.wf = true) (d n : Nat) : s.portsAs ((count F.BRIM_BTP_DROP_COUNT.COUNT [d] n).run s) := by
  have other (f : Fld) (ix : List Nat) (h : f.key ix ≠ F.BRIM_BTP_DROP_COUNT.COUNT.key [d]) :
      ((count F.BRIM_BTP_DROP_COUNT.COUNT [d] n).run s).r f ix = s.r f ix := by
    rw [count_run]; exact State.r_reg_other hs h _
  have lo (f : Fld) (ix : List Nat) (hl : f.lo < 64) (h0 : f.lo ≠ 0) : ((count F.BRIM_BTP_DROP_COUNT.COUNT [d] n).run s).r f ix = s.r f ix :=
    other f ix (Fld.key_ne_lo hl (by decide) h0 ix [d])
  refine ⟨fun p => other _ _ ?_, fun k m => ?_⟩
  · simp only [Fld.key, Fld.off, F.BRIM_PORT.LINK_STATE, F.BRIM_BTP_DROP_COUNT.COUNT, List.zip_cons_cons, List.zip_nil_right, List.map_cons, List.map_nil,
      List.sum_cons, List.sum_nil]
    omega
  · simp only [State.mtu, lo F.BRIM_PORT.MAX_FRAME [k, m] (by decide) (by decide), State.rb_of_r (lo F.TM_INPORT.SHARED [k, m] (by decide) (by decide)),
      State.rb_of_r (lo F.BRIM_PORT.MACSEC_EN [k, m] (by decide) (by decide))]

theorem State.portsAs.connPort {s t : State} (h : s.portsAs t) {c : Nat} (hc : (t.conn c).portSet = (s.conn c).portSet) : t.connPort c = s.connPort c := by
  simp only [State.connPort, hc, h.1]

theorem queuePkt_conn (c : Nat) (h : BtpHdr) (ext data chk : List Byte) (s : State) (d : Nat) : ((queuePkt c h ext data chk).run s).conn d = s.conn d := by
  simp only [queuePkt, run_rd]
  cases s.connPort c with
  | none => rfl
  | some m => rw [Prog.run_opt_some, Prog.run_ite]; split <;> rfl

theorem queuePkt_portsAs {s : State} (hs : s.wf = true) (c : Nat) (h : BtpHdr) (ext data chk : List Byte) : s.portsAs ((queuePkt c h ext data chk).run s) := by
  simp only [queuePkt, run_rd]
  cases s.connPort c with
  | none => exact State.portsAs_of_regs rfl
  | some m =>
    rw [Prog.run_opt_some, Prog.run_ite]
    split
    · exact State.portsAs_of_regs rfl
    · exact State.portsAs_count hs ..

theorem resend_conn {s : State} (hs : s.wf = true) (c psn : Nat) (rto : Option Nat) :
    s.portsAs ((resend c psn rto).run s) ∧ ∃ l, ((resend c psn rto).run s).conn c = { s.conn c with out := l } := by
  have same : s.portsAs s ∧ ∃ l, s.conn c = { s.conn c with out := l } := ⟨State.portsAs_of_regs rfl, (s.conn c).out, rfl⟩
  simp only [resend, run_rd]
  split
  · exact same
  · split
    · exact same
    · simp only [Prog.run_all_cons, Prog.run_all_nil, Prog.run_eff, emit, run_rd]
      exact ⟨(State.portsAs_of_regs rfl).trans (queuePkt_portsAs (Eff.apply_wf _ s hs) ..), _, (queuePkt_conn ..).trans (State.conn_same hs ..)⟩

theorem resends_conn (c : Nat) : ∀ (ps : List OutPkt) {s : State}, s.wf = true →
    s.portsAs ((Prog.each ps fun o => resend c o.psn none).run s) ∧ ∃ l, ((Prog.each ps fun o => resend c o.psn none).run s).conn c = { s.conn c with out := l }
  | [], s, _ => ⟨State.portsAs_of_regs rfl, (s.conn c).out, rfl⟩
  | o :: ps, s, hs => by
    obtain ⟨h1, l, hl⟩ := resend_conn hs c o.psn none
    obtain ⟨k1, l', hl'⟩ := resends_conn c ps (Prog.run_wf (resend c o.psn none) s hs)
    exact ⟨h1.trans k1, l', by rw [Prog.run_each_cons, hl', hl]⟩

/-- A kept packet is the response to a request, with a status and data and no extension. -/
def OutPkt.answers (o : OutPkt) (q : Req) (status : Nat) (data : List Byte) : Prop :=
  o.resp = true ∧ o.op = q.op ∧ o.tid = q.tid ∧ o.status = status ∧ o.ext = [] ∧ o.data = data

/-- The response packet of a request as it is handed to the connection. -/
def respPkt (q : Req) (status : Nat) (data : List Byte) : OutPkt :=
  { psn := 0, op := q.op, tid := q.tid, resp := true, status := status, ext := extBytes [], data := data, epoch := 0, rto := 0 }

/-- Connection c sends in u as it would in s. -/
structure State.alike (c : Nat) (s u : State) : Prop where
  ports : s.portsAs u
  set : (u.conn c).portSet = (s.conn c).portSet
  st : (u.conn c).st = (s.conn c).st
  bad : (u.conn c).badOpens = (s.conn c).badOpens

theorem State.alike.trans {c : Nat} {s t u : State} (h : s.alike c t) (k : t.alike c u) : s.alike c u :=
  ⟨h.ports.trans k.ports, k.set.trans h.set, k.st.trans h.st, k.bad.trans h.bad⟩

theorem State.alike_of_conn {c : Nat} {s u : State} (hp : s.portsAs u) (hc : u.conn c = s.conn c) : s.alike c u :=
  ⟨hp, by rw [hc], by rw [hc], by rw [hc]⟩

/-- From s on, t is where the response to a request of connection c was kept and handed to its port. -/
def State.emits (s t : State) (c : Nat) (q : Req) (status : Nat) (data : List Byte) : Prop :=
  ∃ u o, u.wf = true ∧ s.alike c u ∧ o ∈ (u.conn c).out ∧ o.answers q status data ∧ (data = [] → o.chk = []) ∧ t = (emit c o).run u

theorem sendPkt_emits {s : State} (hs : s.wf = true) (c : Nat) (q : Req) (status : Nat) (data : List Byte) :
    s.emits ((sendPkt c (respPkt q status data)).run s) c q status data := by
  obtain ⟨hp, l, hl⟩ := resends_conn c ((s.conn c).out.filter (·.flushed)) hs
  have hw := Prog.run_wf (Prog.each ((s.conn c).out.filter (·.flushed)) fun o => resend c o.psn none) s hs
  simp only [sendPkt, Prog.run_seq, run_rd, Prog.run_all_cons, Prog.run_all_nil, Prog.run_eff]
  generalize (Prog.each ((s.conn c).out.filter (·.flushed)) fun o => resend c o.psn none).run s = v at hp hl hw
  refine ⟨_, _, Eff.apply_wf _ v hw, ⟨hp.trans (State.portsAs_of_regs rfl), ?_, ?_, ?_⟩, ?_, ⟨rfl, rfl, rfl, rfl, rfl, rfl⟩, ?_, rfl⟩
  · rw [State.conn_same hw, hl]
  · rw [State.conn_same hw, hl]
  · rw [State.conn_same hw, hl]
  · rw [State.conn_same hw]; exact List.mem_append_right _ (List.mem_singleton.mpr rfl)
  · rintro rfl; simp [State.timed, respPkt]

theorem State.alike.emits {c : Nat} {s v t : State} (h : s.alike c v) {q : Req} {status : Nat} {data : List Byte} (k : v.emits t c q status data) :
    s.emits t c q status data := by
  obtain ⟨u, o, hu, ha, rest⟩ := k
  exact ⟨u, o, hu, h.trans ha, rest⟩

theorem answer_emits {s : State} (hs : s.wf = true) {q : Req} {c : Nat} (hq : q.src = .conn c) (hf : (s.conn c).st ≠ .free) (he : (s.conn c).st ≠ .error)
    {data : List Byte} (hp : respPackets q data = [([], data, none)]) (status : Nat) (logged : Bool) (fail : Option (Nat × Nat)) :
    s.emits ((answer q status data logged fail).run s) c q status data := by
  simp only [answer, run_rd, hq, hf, he, or_self, if_false, Prog.run_all_cons, Prog.run_all_nil, hp, Prog.run_each_cons, Prog.run_each_nil]
  refine State.alike.emits ?_ (sendPkt_emits (Prog.run_wf _ s hs) c q status data)
  cases fencedOp q.op && q.executed status with
  | false => exact State.alike_of_conn (State.portsAs_of_regs rfl) rfl
  | true =>
    refine ⟨State.portsAs_of_regs rfl, ?_, ?_, ?_⟩ <;> simp [keepFence, hs]

theorem State.emits.queued {s t : State} {c : Nat} {q : Req} {status : Nat} (h : s.emits t c q status []) {m : Nat} (hm : s.connPort c = some m)
    (hl : 72 ≤ s.mtu (connDie c) m) : ∃ x ∈ t.respQ (64 * connDie c + m), x.responds c q.tid status := by
  obtain ⟨u, o, hu, ha, -, ⟨hr, -, ht, hst, hext, hd⟩, hk, rfl⟩ := h
  have hm' : u.connPort c = some m := (ha.ports.connPort ha.set).trans hm
  have hl' : 72 + o.ext.length + o.data.length + o.chk.length ≤ u.mtu (connDie c) m := by
    rw [ha.ports.2, hext, hd, hk rfl]; exact hl
  refine ⟨u.pktMsg c m (u.hdrOf c o) o.ext o.data o.chk, ?_, _, _, _, _, _, rfl, hr, ht, hst⟩
  simp only [emit, queuePkt, run_rd, hm', Prog.run_opt_some, if_pos hl', Prog.run_eff, State.respQ_same hu]
  exact List.mem_append_right _ (List.mem_singleton.mpr rfl)

/-! ### The rest of a request's end leaves its connection and its operation alone -/

@[simp] theorem Prog.within_skip {l : List Part} : Prog.skip.Within l := trivial
@[simp] theorem Prog.within_eff {l : List Part} {e : Eff} : (Prog.eff e).Within l ↔ ∀ q ∈ e.parts, q ∈ l := .rfl
@[simp] theorem Prog.within_rd {l : List Part} {f : State → Prog} : (rd f).Within l ↔ ∀ s, (f s).Within l := .rfl
@[simp] theorem Prog.within_all_nil {l : List Part} : (Prog.all []).Within l := trivial

@[simp] theorem Prog.within_all_cons {l : List Part} {p : Prog} {ps : List Prog} : (Prog.all (p :: ps)).Within l ↔ p.Within l ∧ (Prog.all ps).Within l := by
  cases ps
  · exact (and_iff_left trivial).symm
  · exact .rfl

@[simp] theorem Prog.within_when {l : List Part} {c : Bool} {p : Prog} : (Prog.when c p).Within l ↔ (c = true → p.Within l) := by
  cases c <;> simp [Prog.when]

@[simp] theorem Prog.within_ite {l : List Part} {c : Prop} [Decidable c] {p q : Prog} :
    (if c then p else q).Within l ↔ (c → p.Within l) ∧ (¬ c → q.Within l) := by
  by_cases h : c <;> simp [h]

/-- The parts that the extents and the partition of a request change when it ends. -/
def endParts : List Part := [.regs, .pool, .mir, .boot, .sent]

@[simp] theorem mem_endParts {p : Part} : p ∈ endParts ↔ p = .regs ∨ p = .pool ∨ p = .mir ∨ p = .boot ∨ p = .sent := by simp [endParts]

@[simp] theorem within_domainChange (what : State → DomUpd) : (domainChange what).Within endParts := by
  simp [domainChange, wr, send]

@[simp] theorem within_extDone (e : Option Nat) : (extDone e).Within endParts := by
  cases e <;> simp [extDone, extChange, Prog.opt]

@[simp] theorem within_partCheck (p : Nat) : (partCheck p).Within endParts := by
  simp [partCheck, partFenced, setPart, regChange, wr, send, msix]

theorem closeCheck_run_of_out {s : State} {c : Nat} (h : (s.conn c).out ≠ []) : (closeCheck c).run s = s := by
  simp [closeCheck, h]

/-- Of a connection that still keeps packets the end of a request changes only the list of ended transfers. -/
theorem reqGone_conn {s : State} (hs : s.wf = true) {q : Req} {c : Nat} (hq : q.src = .conn c) (ho : (s.conn c).out ≠ []) :
    ∃ l, ((reqGone q).run s).conn c = { s.conn c with ended := l } := by
  have hb : ((partCheck q.part).run ((extDone q.ext2).run ((extDone q.ext).run s))).btp = s.btp :=
    ((Prog.within_keeps (within_partCheck _) _ .btp (by simp)).trans (Prog.within_keeps (within_extDone _) _ .btp (by simp))).trans
      (Prog.within_keeps (within_extDone _) _ .btp (by simp))
  have hw : ((partCheck q.part).run ((extDone q.ext2).run ((extDone q.ext).run s))).wf = true := Prog.run_wf _ _ (Prog.run_wf _ _ (Prog.run_wf _ _ hs))
  simp only [reqGone, hq, Prog.run_all_cons, Prog.run_all_nil]
  generalize (partCheck q.part).run ((extDone q.ext2).run ((extDone q.ext).run s)) = u at hb hw
  have hc : u.conn c = s.conn c := by rw [State.conn, hb, State.conn]
  have note : ∃ l, ((Prog.when (decide (q.rcv < q.want)) (rd fun s =>
      if (s.conn c).st = .free then .skip else .eff (.conn c { s.conn c with ended := q.tid :: (s.conn c).ended }))).run u).conn c = { s.conn c with ended := l } := by
    cases decide (q.rcv < q.want) with
    | false => exact ⟨(s.conn c).ended, hc⟩
    | true =>
      by_cases hf : (u.conn c).st = .free
      · exact ⟨(s.conn c).ended, by rw [Prog.run_when_true, run_rd, if_pos hf]; exact hc⟩
      · exact ⟨q.tid :: (s.conn c).ended, by rw [Prog.run_when_true, run_rd, if_neg hf, Prog.run_eff, State.conn_same hw, hc]⟩
  obtain ⟨l, hl⟩ := note
  refine ⟨l, ?_⟩
  rw [closeCheck_run_of_out (by rw [hl]; exact ho), hl]

/-- From s to t connection c has been given the response to a request: it stands as it did, keeps the response, and has a packet with it at its port where the response is empty. -/
structure State.tells (s t : State) (c : Nat) (q : Req) (status : Nat) (data : List Byte) : Prop where
  st : (t.conn c).st = (s.conn c).st
  bad : (t.conn c).badOpens = (s.conn c).badOpens
  kept : ∃ o ∈ (t.conn c).out, o.answers q status data
  queued : data = [] → ∀ m, s.connPort c = some m → 72 ≤ s.mtu (connDie c) m → ∃ x ∈ t.respQ (64 * connDie c + m), x.responds c q.tid status

theorem tells_of_emits {s t : State} (hs : t.wf = true) {c : Nat} {q : Req} (hq : q.src = .conn c) {status : Nat} {data : List Byte}
    (h : s.emits t c q status data) : s.tells ((reqGone q).run t) c q status data := by
  have queued : data = [] → ∀ m, s.connPort c = some m → 72 ≤ s.mtu (connDie c) m → ∃ x ∈ t.respQ (64 * connDie c + m), x.responds c q.tid status := by
    rintro rfl m hm hl
    exact h.queued hm hl
  obtain ⟨u, o, -, ha, ho, hans, -, rfl⟩ := h
  have hc : ((emit c o).run u).conn c = u.conn c := queuePkt_conn ..
  obtain ⟨l, hl⟩ := reqGone_conn hs hq (by rw [hc]; exact List.ne_nil_of_mem ho)
  rw [hc] at hl
  refine ⟨by rw [hl]; exact ha.st, by rw [hl]; exact ha.bad, ⟨o, by rw [hl]; exact ho, hans⟩, fun hd m hm hlen => ?_⟩
  obtain ⟨x, hx, hr⟩ := queued hd m hm hlen
  exact ⟨x, ((steady_reqGone (far := true) q).run hs).queued _ x hx, hr⟩

/-- How `respond` and `refuse` end: the request leaves the tables, is answered, and what it held is given back. -/
def endReq (r : Nat) (q : Req) (status : Nat) (data : List Byte) (logged : Bool) (fail : Option (Nat × Nat)) : Prog :=
  .all [.eff (.req r none), answer q status data logged fail, reqGone q]

theorem respond_run {s : State} {r : Nat} {q : Req} (hr : s.req r = some q) (status : Nat) (data : List Byte) :
    (respond r status data).run s = (endReq r q status data false (if status = stOk then none else s.failOf q 0 0 0)).run s := by
  simp only [respond, run_rd, hr, endReq]

/-- The record that `refuse` writes. -/
def refusalRec (s : State) (q : Req) (status cause obj0 obj1 : Nat) : LogRec :=
  { src := srcFelt, cause := cause, sev := 2, status := status, part := some q.part, obj0 := obj0, obj1 := obj1, ctx := (s.issuer q).1, pc := (s.issuer q).2 }

theorem refuse_run {s : State} {r : Nat} {q : Req} (hr : s.req r = some q) (status cause obj0 obj1 : Nat) :
    (refuse r status cause obj0 obj1).run s = (endReq r q status [] (decide (cause ≠ 0)) (s.failOf q cause obj0 obj1)).run
      ((Prog.when (decide (cause ≠ 0)) (log (refusalRec s q status cause obj0 obj1))).run s) := by
  simp only [refuse, run_rd, hr, endReq, refusalRec, Prog.run_all_cons]

@[simp] theorem steady_endReq {far : Bool} (r : Nat) (q : Req) (status : Nat) (data : List Byte) (logged : Bool) (fail : Option (Nat × Nat)) :
    (endReq r q status data logged fail).Steady far := by simp [endReq]

theorem endReq_gone {s : State} (hs : s.wf = true) (r : Nat) (q : Req) (status : Nat) (data : List Byte) (logged : Bool) (fail : Option (Nat × Nat)) :
    ((endReq r q status data logged fail).run s).req r = none := by
  have rest : (Prog.seq (answer q status data logged fail) (reqGone q)).Steady true := by simp
  exact (rest.run (Eff.apply_wf _ s hs)).gone r (State.req_same hs r none)

theorem endReq_tells {s : State} (hs : s.wf = true) (r : Nat) {q : Req} {c : Nat} (hq : q.src = .conn c) (hf : (s.conn c).st ≠ .free) (he : (s.conn c).st ≠ .error)
    {data : List Byte} (hp : respPackets q data = [([], data, none)]) (status : Nat) (logged : Bool) (fail : Option (Nat × Nat)) :
    s.tells ((endReq r q status data logged fail).run s) c q status data := by
  have hw : ((Eff.req r none).apply s).wf = true := Eff.apply_wf _ s hs
  have left : s.alike c ((Eff.req r none).apply s) := State.alike_of_conn (State.portsAs_of_regs rfl) rfl
  exact tells_of_emits (Prog.run_wf _ _ hw) hq (left.emits (answer_emits hw hq hf he hp status logged fail))

/-- An answered request has left the tables. -/
theorem respond_gone {s : State} (hs : s.wf = true) (r status : Nat) (data : List Byte) : ((respond r status data).run s).req r = none := by
  cases h : s.req r with
  | none => simp only [respond, run_rd, h, Prog.run_skip]
  | some q => rw [respond_run h]; exact endReq_gone hs ..

theorem refuse_gone {s : State} (hs : s.wf = true) (r status cause obj0 obj1 : Nat) : ((refuse r status cause obj0 obj1).run s).req r = none := by
  cases h : s.req r with
  | none => simp only [refuse, run_rd, h, Prog.run_skip]
  | some q => rw [refuse_run h]; exact endReq_gone (Prog.run_wf _ s hs) ..

theorem mem_causes {s t : State} {r : LogRec} {cause : Nat} (hr : r.cause = cause) (h : s.log.wire ++ [r] <+: t.log.wire) : cause ∈ s.causes t := by
  subst hr
  obtain ⟨l, hl⟩ := h
  simp [State.causes, State.records, ← hl]

/-! ### Answers and refusals on a connection -/

theorem respond_tells {s : State} (hs : s.wf = true) {r : Nat} {q : Req} (hr : s.req r = some q) {c : Nat} (hq : q.src = .conn c)
    (hf : (s.conn c).st ≠ .free) (he : (s.conn c).st ≠ .error) {data : List Byte} (hp : respPackets q data = [([], data, none)]) (status : Nat) :
    s.tells ((respond r status data).run s) c q status data := by
  rw [respond_run hr]; exact endReq_tells hs r hq hf he hp ..

theorem refuse_tells {s : State} (hs : s.wf = true) {r : Nat} {q : Req} (hr : s.req r = some q) {c : Nat} (hq : q.src = .conn c)
    (hf : (s.conn c).st ≠ .free) (he : (s.conn c).st ≠ .error) (hp : respPackets q [] = [([], [], none)]) (status : Nat) {cause : Nat} (hc : cause ≠ 0) (obj0 : Nat) :
    s.tells ((refuse r status cause obj0).run s) c q status [] ∧ cause ∈ s.causes ((refuse r status cause obj0).run s) := by
  rw [refuse_run hr, decide_eq_true hc, Prog.run_when_true]
  have hR : (refusalRec s q status cause obj0 0).cause = cause := rfl
  generalize refusalRec s q status cause obj0 0 = R at hR
  have hw := Prog.run_wf (log R) s hs
  have hb : ((log R).run s).btp = s.btp := Prog.within_keeps (within_log R) s .btp (by simp)
  have hg : ((log R).run s).regs = s.regs := Prog.within_keeps (within_log R) s .regs (by simp)
  have hcc : ((log R).run s).conn c = s.conn c := by rw [State.conn, hb, State.conn]
  have ha : s.alike c ((log R).run s) := State.alike_of_conn (State.portsAs_of_regs hg) hcc
  have ht := endReq_tells hw r hq (by rwa [hcc]) (by rwa [hcc]) hp status true (s.failOf q cause obj0 0)
  constructor
  · refine ⟨ht.st.trans ha.st, ht.bad.trans ha.bad, ht.kept, fun hd m hm hl => ht.queued hd m ?_ ?_⟩
    · rw [ha.ports.connPort ha.set, hm]
    · rw [ha.ports.2]; exact hl
  · have hwire := ((steady_endReq (far := true) r q status [] true (s.failOf q cause obj0 0)).run hw).wire
    rw [log_wire] at hwire
    exact mem_causes (r := s.stamp R) hR hwire

/-! ### Connections open and close (R65, R66) -/

theorem causes_mono {s u t : State} (h : u.log.wire <+: t.log.wire) {cause : Nat} (hc : cause ∈ s.causes u) : cause ∈ s.causes t := by
  obtain ⟨l, hl⟩ := h
  rw [State.causes, State.records] at hc ⊢
  rw [← hl, List.drop_append, List.map_append]
  exact List.mem_append_left _ hc

/-- What an error of a connection does after it has put the connection in ERROR. -/
theorem connError_steady {s : State} (hs : s.wf = true) (c status : Nat) :
    ((Eff.conn c { s.conn c with st := .error, held := [], out := [], unacked := 0 }).apply s).steady true ((connError c status).run s) := by
  simp only [connError, run_rd, Prog.run_all_cons, Prog.run_all_nil, Prog.run_eff]
  have rest : (Prog.all [Prog.each (s.openOn c) (fun e => cut e.1 (if status = stOk then stTimeout else status) 0 c),
      Prog.each (s.outsOn c) (fun t => outEnd t status []), Prog.opt (s.peerIdx c) breakStage]).Steady true := by simp
  simpa only [Prog.run_all_cons, Prog.run_all_nil] using rest.run (Eff.apply_wf _ s hs)

/-- The response is one packet, but for BULK_READ, SVC_KV_GET, SVC_PS_PULL and opcode 0x28. -/
theorem respPackets_one {q : Req} (h : q.op ≠ 0x14 ∧ q.op ≠ 0x31 ∧ q.op ≠ 0x35 ∧ q.op ≠ 0x28) (data : List Byte) : respPackets q data = [([], data, none)] := by
  obtain ⟨h1, h2, h3, h4⟩ := h
  simp only [respPackets, if_neg h1, if_neg (not_or.mpr ⟨h2, h3⟩), if_neg h4]

section
variable {s : State} (hs : s.wf = true) {r c : Nat} {q : Req} (hr : s.req r = some q) (hq : q.src = .conn c) (hresp : q.resp = false)
include hr hq hresp

theorem exec_connOpen_right (hop : q.op = 0x01) (hst : (s.conn c).st = .created) (hd : q.data.length = 16) (htok : ofLe q.data = (s.conn c).token) :
    exec (.connOpen r) s = .next ((respond r stOk []).run ((Eff.conn c { s.conn c with st := .open }).apply s)) := by
  show execConnOpen r s = _
  simp [execConnOpen, hr, hq, hop, hresp, hst, hd, htok]

theorem exec_connOpen_wrong (hop : q.op = 0x01) (hst : (s.conn c).st = .created) (htok : ofLe q.data ≠ (s.conn c).token) :
    exec (.connOpen r) s = .next ((Prog.when (decide (16 ≤ (s.conn c).badOpens + 1)) (connError c stTimeout)).run
      ((refuse r stDenied 0x830 c).run ((Eff.conn c { s.conn c with badOpens := (s.conn c).badOpens + 1 }).apply s))) := by
  show execConnOpen r s = _
  simp [execConnOpen, hr, hq, hop, hresp, hst, htok]

theorem exec_connClose_open (hop : q.op = 0x02) (hst : (s.conn c).st = .open) :
    exec (.connClose r) s = .next ((closeCheck c).run ((respond r stOk []).run ((Eff.conn c { s.conn c with st := .closing }).apply s))) := by
  show execConnClose r s = _
  simp [execConnClose, hr, hq, hop, hresp, hst]

include hs

/-- The right token (R66). -/
theorem connOpen_right (hop : q.op = 0x01) (hst : (s.conn c).st = .created) (hd : q.data.length = 16) (htok : ofLe q.data = (s.conn c).token) :
    ∃ t, exec (.connOpen r) s = .next t ∧ t.time = s.time ∧ (t.conn c).st = .open ∧ t.req r = none ∧
      ∃ p ∈ (t.conn c).out, p.resp = true ∧ p.tid = q.tid ∧ p.status = stOk := by
  refine ⟨_, exec_connOpen_right hr hq hresp hop hst hd htok, ?_⟩
  have hw : ((Eff.conn c { s.conn c with st := .open }).apply s).wf = true := Eff.apply_wf _ s hs
  have hc : ((Eff.conn c { s.conn c with st := .open }).apply s).conn c = { s.conn c with st := .open } := State.conn_same hs ..
  have ht := respond_tells hw (r := r) hr hq (by simp [hc]) (by simp [hc]) (respPackets_one (by simp [hop]) []) stOk
  obtain ⟨o, ho, hresp, -, htid, hstatus, -⟩ := ht.kept
  exact ⟨((steady_respond (far := true) ..).run hw).time, by rw [ht.st, hc], respond_gone hw .., o, ho, hresp, htid, hstatus⟩

/-- A wrong token is counted and refused before the count is looked at: what the fifteenth and the sixteenth share. -/
theorem connOpen_refused (hop : q.op = 0x01) (hst : (s.conn c).st = .created) (htok : ofLe q.data ≠ (s.conn c).token) :
    ∃ u, exec (.connOpen r) s = .next ((Prog.when (decide (16 ≤ (s.conn c).badOpens + 1)) (connError c stTimeout)).run u) ∧ u.wf = true ∧ u.time = s.time ∧
      u.req r = none ∧ 0x830 ∈ s.causes u ∧
      (u.conn c).st = .created ∧ (u.conn c).badOpens = (s.conn c).badOpens + 1 ∧ (∃ p ∈ (u.conn c).out, p.answers q stDenied []) ∧
      ∀ m, s.connPort c = some m → 72 ≤ s.mtu (connDie c) m → ∃ x ∈ u.respQ (64 * connDie c + m), x.responds c q.tid stDenied := by
  refine ⟨_, exec_connOpen_wrong hr hq hresp hop hst htok, ?_⟩
  have hw : ((Eff.conn c { s.conn c with badOpens := (s.conn c).badOpens + 1 }).apply s).wf = true := Eff.apply_wf _ s hs
  have hc := State.conn_same hs c { s.conn c with badOpens := (s.conn c).badOpens + 1 }
  obtain ⟨ht, hcause⟩ := refuse_tells hw (r := r) hr hq (by rw [hc]; simp [hst]) (by rw [hc]; simp [hst]) (respPackets_one (by simp [hop]) []) stDenied
    (cause := 0x830) (by decide) c
  have ports : s.portsAs ((Eff.conn c { s.conn c with badOpens := (s.conn c).badOpens + 1 }).apply s) := State.portsAs_of_regs rfl
  refine ⟨Prog.run_wf _ _ hw, ((steady_refuse (far := true) ..).run hw).time, refuse_gone hw .., hcause, by rw [ht.st, hc, hst], by rw [ht.bad, hc], ht.kept, fun m hm hl => ?_⟩
  exact ht.queued rfl m ((ports.connPort (by rw [hc])).trans hm) (by rw [ports.2]; exact hl)

/-- A wrong token, up to the fifteenth (R66). -/
theorem connOpen_wrong (hop : q.op = 0x01) (hst : (s.conn c).st = .created) (htok : ofLe q.data ≠ (s.conn c).token) (hbad : (s.conn c).badOpens < 15) :
    ∃ t, exec (.connOpen r) s = .next t ∧ t.time = s.time ∧ (t.conn c).st = .created ∧ (t.conn c).badOpens = (s.conn c).badOpens + 1 ∧ t.req r = none ∧ 0x830 ∈ s.causes t ∧
      ∃ p ∈ (t.conn c).out, p.resp = true ∧ p.tid = q.tid ∧ p.status = stDenied := by
  obtain ⟨u, hexec, -, htime, hgone, hcause, hcreated, hcount, ⟨o, ho, hr, -, htid, hstatus, -⟩, -⟩ := connOpen_refused hs hr hq hresp hop hst htok
  rw [decide_eq_false (by omega), Prog.run_when_false] at hexec
  exact ⟨u, hexec, htime, hcreated, hcount, hgone, hcause, o, ho, hr, htid, hstatus⟩

/-- The sixteenth wrong token (R66). -/
theorem connOpen_sixteenth (hop : q.op = 0x01) (hst : (s.conn c).st = .created) (htok : ofLe q.data ≠ (s.conn c).token) (hbad : (s.conn c).badOpens = 15) :
    ∃ t, exec (.connOpen r) s = .next t ∧ t.time = s.time ∧ (t.conn c).st = .error ∧ t.req r = none ∧ 0x830 ∈ s.causes t ∧
      ∀ m, s.connPort c = some m → 72 ≤ s.mtu (connDie c) m → ∃ x ∈ t.respQ (64 * connDie c + m), x.responds c q.tid stDenied := by
  obtain ⟨u, hexec, hw, htime, hgone, hcause, -, -, -, hqueued⟩ := connOpen_refused hs hr hq hresp hop hst htok
  rw [decide_eq_true (by omega), Prog.run_when_true] at hexec
  have herr := State.conn_same hw c { u.conn c with st := .error, held := [], out := [], unacked := 0 }
  have he := connError_steady hw c stTimeout
  refine ⟨_, hexec, he.time.trans htime, ?_, he.gone r hgone, causes_mono he.wire hcause, fun m hm hl => ?_⟩
  · rcases he.conn c with h | ⟨h, -⟩
    · rw [herr] at h; cases h
    · rw [h, herr]
  · obtain ⟨x, hx, hresponds⟩ := hqueued m hm hl
    exact ⟨x, he.queued _ x hx, hresponds⟩

/-- A CLOSE on an OPEN connection (R65): its response is still kept, so the connection is not FREE yet. -/
theorem connClose_open (hop : q.op = 0x02) (hst : (s.conn c).st = .open) :
    ∃ t, exec (.connClose r) s = .next t ∧ t.time = s.time ∧ (t.conn c).st = .closing ∧ t.req r = none ∧
      ∃ p ∈ (t.conn c).out, p.resp = true ∧ p.tid = q.tid ∧ p.status = stOk := by
  refine ⟨_, exec_connClose_open hr hq hresp hop hst, ?_⟩
  have hw : ((Eff.conn c { s.conn c with st := .closing }).apply s).wf = true := Eff.apply_wf _ s hs
  have hc : ((Eff.conn c { s.conn c with st := .closing }).apply s).conn c = { s.conn c with st := .closing } := State.conn_same hs ..
  have ht := respond_tells hw (r := r) hr hq (by simp [hc]) (by simp [hc]) (respPackets_one (by simp [hop]) []) stOk
  obtain ⟨o, ho, hresp, -, htid, hstatus, -⟩ := ht.kept
  rw [closeCheck_run_of_out (List.ne_nil_of_mem ho)]
  exact ⟨((steady_respond (far := true) ..).run hw).time, by rw [ht.st, hc], respond_gone hw .., o, ho, hresp, htid, hstatus⟩

end

/-- Each request that is cut has left the tables: at its turn it is refused, and the turns after it bring none back. -/
theorem cuts_gone (c status : Nat) : ∀ (es : List (Nat × Req)) {s : State}, s.wf = true →
    ∀ e ∈ es, ((Prog.each es fun e => cut e.1 status 0 c).run s).req e.1 = none
  | [], _, _, _, h => by cases h
  | x :: xs, s, hs, e, h => by
    have hw := Prog.run_wf (cut x.1 status 0 c) s hs
    rw [Prog.run_each_cons]
    rcases List.mem_cons.mp h with rfl | h
    · have rest : (Prog.each xs fun e => cut e.1 status 0 c).Steady true := by simp
      refine (rest.run hw).gone _ ?_
      have lines : (rd fun s => releaseLines e.1 (s.linesHeld e.1)).Steady true := by simp
      exact (lines.run (Prog.run_wf _ s hs)).gone _ (refuse_gone hs ..)
    · exact cuts_gone c status xs hw e h

theorem connClosingTimeout_closing {s : State} (hs : s.wf = true) {c : Nat} (hst : (s.conn c).st = .closing) :
    ∃ t, exec (.connClosingTimeout c) s = .next t ∧ t.time = s.time ∧ t.conn c = {} ∧ ∀ e ∈ s.openOn c, t.req e.1 = none := by
  refine ⟨(Eff.conn c {}).apply ((Prog.each (s.outsOn c) fun t => outEnd t stTimeout []).run ((Prog.each (s.openOn c) fun e => cut e.1 stTimeout 0 c).run s)), ?_, ?_⟩
  · show execConnClosingTimeout c s = _
    simp [execConnClosingTimeout, hst]
  have cuts : (Prog.each (s.openOn c) fun e => cut e.1 stTimeout 0 c).Steady true := by simp
  have outs : (Prog.each (s.outsOn c) fun t => outEnd t stTimeout []).Steady true := by simp
  have hw := Prog.run_wf (Prog.each (s.openOn c) fun e => cut e.1 stTimeout 0 c) s hs
  exact ⟨(outs.run hw).time.trans (cuts.run hs).time, State.conn_same (Prog.run_wf _ _ hw) .., fun e he => (outs.run hw).gone e.1 (cuts_gone c stTimeout _ hs e he)⟩

/-- Settles O26: each clause is the run of its command. An answer or refusal keeps the connection as the command left it (`State.tells`), and what an error or a time-out sets off is steady. -/
theorem connectionsOpenAndClose : Obligations.ConnectionsOpenAndClose := by
  intro c s hs
  refine ⟨fun r q hr hq hresp hop hst hd => ⟨connOpen_right hs hr hq hresp hop hst hd, fun htok => ⟨connOpen_wrong hs hr hq hresp hop hst htok, connOpen_sixteenth hs hr hq hresp hop hst htok⟩⟩,
    fun r q hr hq hresp hop hst => connClose_open hs hr hq hresp hop hst, connClosingTimeout_closing hs⟩

/-! ### A request is answered at its source, whatever that is (R62) -/

theorem within_reqGone {q : Req} (h : ∀ c, q.src ≠ .conn c) : (reqGone q).Within endParts := by
  cases hq : q.src with
  | conn c => exact absurd hq (h c)
  | _ => simp [reqGone, hq]

theorem sent_suffix (p : Prog) (s : State) : s.sent <:+ (p.run s).sent :=
  Prog.run_keeps (I := fun t => s.sent <:+ t.sent) (fun e t ht => by
    cases e
    case send m => exact ht.trans (List.suffix_cons m t.sent)
    all_goals exact ht) p s List.suffix_rfl

theorem mem_newMsgs {s t : State} {l : List Msg} {m : Msg} (h : l ++ s.sent <:+ t.sent) (hm : m ∈ l) : m ∈ s.newMsgs t := by
  obtain ⟨k, hk⟩ := h
  have hl : t.sent.length - s.sent.length = (k ++ l).length := by
    rw [← hk]; simp only [List.length_append]; omega
  rw [State.newMsgs, hl, ← hk, ← List.append_assoc, List.take_left]
  exact List.mem_append_right k hm

theorem sends_sent {α : Type} (f : α → Msg) : ∀ (xs : List α) (s : State), ((Prog.each xs fun x => send (f x)).run s).sent = (xs.map f).reverse ++ s.sent
  | [], _ => rfl
  | x :: xs, s => by rw [Prog.run_each_cons, sends_sent f xs]; simp

theorem mem_newMsgs_sends {α : Type} (f : α → Msg) {xs : List α} {s t : State} (h : ((Prog.each xs fun x => send (f x)).run s).sent <:+ t.sent) {x : α}
    (hx : x ∈ xs) : f x ∈ s.newMsgs t :=
  mem_newMsgs (l := (xs.map f).reverse) (sends_sent f xs s ▸ h) (List.mem_reverse.mpr (List.mem_map_of_mem hx))

theorem answered_op {s : State} (hs : s.wf = true) {o : Nat} {a : AOp} (ha : s.aop o = some a) (hn : a.reply = none) (status : Nat) (data : List Byte)
    (fail : Option (Nat × Nat)) : ((setReply o status data fail).run s).aop o = some { a with reply := some (status, data), fail := fail } := by
  rw [State.aop] at ha
  simp [setReply, ha, hn, hs]

/-- A request that `respond` ends with OK has ended: the reply is written, the packet kept or the message sent before the rest of its end, which takes none of them back. -/
theorem respond_ended {s : State} (hs : s.wf = true) {r : Nat} {q : Req} (hr : s.req r = some q) {data : List Byte}
    (hop : q.op ≠ 0x14 ∧ q.op ≠ 0x31 ∧ q.op ≠ 0x35 ∧ q.op ≠ 0x28) : s.ended ((respond r stOk data).run s) r q stOk data := by
  refine ⟨respond_gone hs .., ?_⟩
  have hw : ((Eff.req r none).apply s).wf = true := Eff.apply_wf _ s hs
  have hrun : (respond r stOk data).run s = (reqGone q).run ((answer q stOk data false none).run ((Eff.req r none).apply s)) := by
    rw [respond_run hr]; rfl
  have hsuf := sent_suffix (reqGone q) ((answer q stOk data false none).run ((Eff.req r none).apply s))
  have op (o : Nat) (hc : ∀ c, q.src ≠ .conn c) (ha : (answer q stOk data false none).run ((Eff.req r none).apply s) = (setReply o stOk data none).run ((Eff.req r none).apply s)) :
      ∀ a, s.aop o = some a → a.reply = none → ∃ f, ((respond r stOk data).run s).aop o = some { a with reply := some (stOk, data), fail := f } := by
    intro a h hn
    have he := Prog.within_keeps (within_reqGone hc) ((answer q stOk data false none).run ((Eff.req r none).apply s)) .eng (by simp)
    refine ⟨none, ?_⟩
    rw [hrun, State.aop, he, ha]
    exact answered_op (s := (Eff.req r none).apply s) hw h hn ..
  rw [← hrun] at hsuf
  unfold State.answered
  cases hq : q.src with
  | conn c =>
    intro hf he w hmem
    rw [respPackets_one hop, List.mem_singleton] at hmem
    subst hmem
    obtain ⟨o, ho, h1, h2, h3, h4, h5, h6⟩ := (respond_tells hs hr hq hf he (respPackets_one hop data) stOk).kept
    exact ⟨o, ho, h1, h2, h3, h4, h5, h6⟩
  | ctx c o => exact op o (by simp [hq]) (by simp [answer, hq])
  | unit o => exact op o (by simp [hq]) (by simp [answer, hq])
  | qp n =>
    intro p hp
    obtain rfl : p = .ack q.psn := by simpa [roceResult, hop.1] using hp
    refine mem_newMsgs (s := s) (l := [roceMsg n (.ack q.psn)]) ?_ (List.mem_singleton_self _)
    have he : (answer q stOk data false none).run ((Eff.req r none).apply s) = (Eff.send (roceMsg n (.ack q.psn))).apply ((Eff.req r none).apply s) := by
      simp [answer, hq, roceAnswer, hop.1]
    rwa [he] at hsuf
  | agent n =>
    intro m hm
    have he : (answer q stOk data false none).run ((Eff.req r none).apply s) =
        (Prog.each (cxlAnswer q stOk) fun m => send (.cxl (s.agentPort n) m (q.addr % 2 ^ 52 / 64) data)).run ((Eff.req r none).apply s) := by
      simp only [answer, hq, run_rd]; rfl
    exact mem_newMsgs_sends (s := (Eff.req r none).apply s) (fun m => .cxl (s.agentPort n) m (q.addr % 2 ^ 52 / 64) data) (he ▸ hsuf) hm
  | cxlPort p =>
    intro m hm
    have he : (answer q stOk data false none).run ((Eff.req r none).apply s) =
        (Prog.each (cxlAnswer q stOk) fun m => send (.cxl p m (q.addr % 2 ^ 52 / 64) data)).run ((Eff.req r none).apply s) := by
      simp only [answer, hq, run_rd]
    exact mem_newMsgs_sends (s := (Eff.req r none).apply s) (fun m => .cxl p m (q.addr % 2 ^ 52 / 64) data) (he ▸ hsuf) hm
  | coll n k => trivial
  | tier => trivial

/-! ### A request at its turn is performed (R76, R91) -/

/-- On a clear path neither a store gathering nor a first attempt comes before the request. -/
theorem performReq_run {s : State} {r op : Nat} {q : Req} (go : Req → Prog) (hr : s.req r = some q) (hop : q.op = op) (hresp : q.resp = false) (hw : q.wait = .none)
    (ht : q.retryOf = none) (ho : s.inOrder r q = true) (hp : s.clearPath q) : (performReq r op go).run s = (go q).run s := by
  obtain ⟨hl, hg⟩ := hp
  have hflush : (flushStores q.src).run s = s := by
    have hnil : s.btp.gathers.filter (fun g => g.store && decide (g.src.stream = q.src.stream)) = [] :=
      List.filter_eq_nil_iff.mpr fun g hm h => by
        simp only [Bool.and_eq_true, decide_eq_true_eq] at h
        exact hg g hm h.1 h.2
    rw [flushStores, run_rd, hnil, Prog.run_each_nil]
  have hwhen (c : Bool) : (Prog.when c (flushStores q.src)).run s = s := by cases c <;> simp [hflush]
  have hgo (u : State) : (afterRetry r q (go q)).run u = (go q).run u := by
    rw [afterRetry, run_rd, ht]
    split
    · contradiction
    · rfl
  simp [performReq, hr, hop, hresp, hw, ho, hl, hwhen, hgo]

/-! ### A near-pool operation reads (R130, R131) -/

/-- A range of an extent without coherence lines can be read at once: no link in Recovery, no poison, and no page that is held or lost. -/
structure State.readsFreely (s : State) (x : Ext) (a n : Nat) : Prop where
  coherent : x.coherent = false
  links : s.rangeWaits x a n false = false
  lines : s.poisoned a n = []
  pages : ∀ p ∈ pagesOf a n, (s.page p).st ≠ .poisoned ∧ s.readHeld p = false ∧ s.pageHeld p = false

theorem State.readsFreely.readAcc {s : State} {x : Ext} {a n : Nat} (h : s.readsFreely x a n) : s.readAcc x a n .ok = .ok := by
  have hheld : (pagesOf a n).any s.readHeld = false := List.any_eq_false.mpr fun p hp => by simp [(h.pages p hp).2.1]
  have hfind : (pagesOf a n).find? (fun p => decide ((s.page p).st = .poisoned)) = none :=
    List.find?_eq_none.mpr fun p hp => by simp [(h.pages p hp).1]
  simp [State.readAcc, hheld, h.links, hfind, h.lines]

theorem State.readsFreely.unheld {s : State} {x : Ext} {a n : Nat} (h : s.readsFreely x a n) : (pagesOf a n).any s.pageHeld = false :=
  List.any_eq_false.mpr fun p hp => by simp [(h.pages p hp).2.2]

/-- From s to t pages and map pages were noted as used, and no page changed its state or its place. -/
def State.touches (s t : State) : Prop :=
  (∃ P U C D, t = { s with pool := { s.pool with pages := P, uses := U, mapCache := C, mapDirty := D } }) ∧
    ∀ p, (t.page p).st = (s.page p).st ∧ (t.page p).place = (s.page p).place

theorem State.touches.refl (s : State) : s.touches s := ⟨⟨_, _, _, _, rfl⟩, fun _ => ⟨rfl, rfl⟩⟩

theorem State.touches.trans {s t u : State} (h : s.touches t) (k : t.touches u) : s.touches u := by
  obtain ⟨⟨_, _, _, _, rfl⟩, hp⟩ := h
  obtain ⟨⟨_, _, _, _, rfl⟩, kp⟩ := k
  exact ⟨⟨_, _, _, _, rfl⟩, fun p => ⟨(kp p).1.trans (hp p).1, (kp p).2.trans (hp p).2⟩⟩

theorem State.touches.rangeWaits {s t : State} (h : s.touches t) (x : Ext) (a n : Nat) : t.rangeWaits x a n false = s.rangeWaits x a n false := by
  obtain ⟨⟨_, _, _, _, rfl⟩, hp⟩ := h
  refine congrArg (List.any (Machine.linesOf a n)) (funext fun l => ?_)
  simp only [State.tierWaits, (hp _).2]
  rfl

theorem State.touches.readsFreely {s t : State} (h : s.touches t) {x : Ext} {a n : Nat} (k : s.readsFreely x a n) : t.readsFreely x a n := by
  refine ⟨k.coherent, (h.rangeWaits ..).trans k.links, ?_, fun p hm => ?_⟩ <;> obtain ⟨⟨_, _, _, _, rfl⟩, hp⟩ := h
  · exact k.lines
  · exact ⟨by rw [(hp p).1]; exact (k.pages p hm).1, (k.pages p hm).2⟩

/-- A program that only notes pages and map pages as used. -/
def Prog.Touches (p : Prog) : Prop := ∀ s : State, s.wf = true → s.touches (p.run s)

theorem Prog.Touches.seq {p q : Prog} (h : p.Touches) (k : q.Touches) : (Prog.seq p q).Touches := fun s hs => (h s hs).trans (k _ (p.run_wf s hs))

theorem touches_each {α : Type} {f : α → Prog} (h : ∀ x, (f x).Touches) : ∀ xs : List α, (Prog.each xs f).Touches
  | [], s, _ => .refl s
  | x :: xs, s, hs => (h x).seq (touches_each h xs) s hs

theorem touches_mapTouch (t m : Nat) (dirty : Bool) : (mapTouch t m dirty).Touches := fun _ _ => ⟨⟨_, _, _, _, rfl⟩, fun _ => ⟨rfl, rfl⟩⟩

theorem touches_mapUse (rs : List (Ext × Nat × Nat)) : (mapUse rs).Touches := fun s hs => touches_each (f := fun m : Nat × Nat => mapTouch m.1 m.2 false) (fun m => touches_mapTouch m.1 m.2 false) _ s hs

theorem touches_touchPage (p : Nat) : (touchPage p).Touches := fun s hs => by
  simp only [touchPage, run_rd]
  split
  · exact .refl s
  · refine ⟨⟨_, _, _, _, rfl⟩, fun k => ?_⟩
    by_cases h : k = p
    · subst h
      have hpage := State.page_same hs k { s.page k with cnt := (s.page k).cnt + 1, used := s.pool.uses + 1 }
      exact ⟨(congrArg Page.st hpage :), (congrArg Page.place hpage :)⟩
    · have hpage := State.page_other hs h { s.page p with cnt := (s.page p).cnt + 1, used := s.pool.uses + 1 }
      exact ⟨(congrArg Page.st hpage :), (congrArg Page.place hpage :)⟩

theorem overlay_nil (a : Nat) (bs : List Byte) : overlay [] a bs = bs := by
  simp [overlay, List.zipIdx_map_fst]

/-- What a COMPARE or REDUCE answers, `far` being the bytes of a source at another switch. -/
def State.nearFinds (s : State) (q : Req) (far : List Byte) : List Byte :=
  if q.nearFn = 3 then leBytes 8 (firstDiff (s.memBytes (q.addr % 2 ^ 52) q.len) (s.nearSrc q 0 q.len far))
  else leBytes q.asize (q.reduce (s.memBytes (q.addr % 2 ^ 52) q.len))

@[simp] theorem tierNote_ok (x : Ext) (a n : Nat) (s : State) : (tierNote x a n .ok).run s = s := by
  rw [tierNote, run_rd]
  cases s.tierPage a n <;> rfl

@[simp] theorem nearSrcNote_ok (e : Nat) (q : Req) (o n : Nat) (s : State) : (nearSrcNote e q o n .ok).run s = s := by
  rw [nearSrcNote, run_rd]
  cases s.nearFrom e q with
  | none => rfl
  | some y => exact tierNote_ok ..

theorem State.nearReads_reading {s : State} {e : Nat} {q : Req} (h : 3 ≤ q.nearFn) :
    s.nearReads e q = (s.ext e, q.addr % 2 ^ 52, q.len) :: (s.nearFrom e q).toList.map fun y => (y, q.opA % 2 ^ 52, q.len) := by
  rw [State.nearReads, if_pos h]
  cases s.nearFrom e q <;> rfl

theorem nearRead_run {s : State} {e : Nat} {q : Req} (r : Nat) (src : Bool) (far : List Byte) (hgot : q.got = []) (hdst : s.readsFreely (s.ext e) (q.addr % 2 ^ 52) q.len)
    (hsrc : ∀ y ∈ s.nearFrom e q, s.readsFreely y (q.opA % 2 ^ 52) q.len) :
    (nearRead r e q .ok src far).run s = (respond r stOk (s.nearFinds q far)).run s := by
  have hacc : s.nearSrcAcc e q 0 q.len .ok = .ok := by
    rw [State.nearSrcAcc]
    cases h : s.nearFrom e q with
    | none => rfl
    | some y => exact (hsrc y h).readAcc
  cases src <;> simp [-Nat.reducePow, nearRead, hacc, hdst.readAcc, hgot, overlay_nil, State.nearFinds]

/-- The use of the pages that a near-pool operation reads is noted. -/
def nearTouch (rs : List (Ext × Nat × Nat)) : Prog := .seq (mapUse rs) (Prog.each (rs.flatMap (fun y => pagesOf y.2.1 y.2.2)).eraseDups touchPage)

theorem touches_nearTouch (rs : List (Ext × Nat × Nat)) : (nearTouch rs).Touches := (touches_mapUse rs).seq (touches_each touches_touchPage _)

/-- COMPARE or REDUCE can read all it reads here, at once; the source of a COMPARE is here. -/
structure State.nearReady (s : State) (e : Nat) (q : Req) : Prop where
  mapped : s.mapMisses (s.nearReads e q) = []
  reads : q.nearFn = 3 ∨ q.nearFn = 4
  dst : s.readsFreely (s.ext e) (q.addr % 2 ^ 52) q.len
  src : ∀ y, s.nearFrom e q = some y → s.readsFreely y (q.opA % 2 ^ 52) q.len
  here : q.nearFn = 3 → (s.nearFrom e q).isSome = true

@[simp] theorem loadLines_nil (r : Nat) (q : Req) (go : Prog) (s : State) : (loadLines r q [] go).run s = go.run s := rfl

theorem exec_nearOp {s : State} {r e : Nat} {q : Req} (ht : s.turn r 0x16 q e) (h : s.nearReady e q) (tl : Nat) (src : Bool) (far : FarSource) :
    exec (.nearOp r .ok tl src far) s = .next ((nearRead r e q .ok src (farBytes far)).run ((nearTouch (s.nearReads e q)).run s)) := by
  obtain ⟨hr, hop, hresp, hw, hret, hgot, hd, he, hord, -, hpath, -, -⟩ := ht
  have hfar : s.nearFrom e q = none → q.nearSource = false := fun hn => by
    rcases h.reads with h3 | h4
    · cases hn ▸ h.here h3
    · simp [Req.nearSource, h4]
  have hwrites : q.nearWrites = false := by rcases h.reads with h | h <;> simp [Req.nearWrites, h]
  show Host.Outcome.next _ = _
  rw [performReq_run _ hr hop hresp hw hret hord hpath]
  cases hy : s.nearFrom e q with
  | none =>
    simp [-Nat.reducePow, -List.any_eq_true, atDest, hd, he, hy, hfar hy, h.dst.coherent, h.dst.unheld, hwrites, hr, h.mapped, nearTouch]
  | some y =>
    have k := h.src y hy
    simp [-Nat.reducePow, -List.any_eq_true, atDest, hd, he, hy, h.dst.coherent, h.dst.unheld, k.coherent, k.unheld, hwrites, hr, h.mapped, nearTouch]

theorem State.turn.req {s : State} {r op e : Nat} {q : Req} (h : s.turn r op q e) : s.req r = some q := by
  obtain ⟨hr, -⟩ := h
  exact hr

theorem State.turn.op {s : State} {r op e : Nat} {q : Req} (h : s.turn r op q e) : q.op = op := by
  obtain ⟨-, hop, -⟩ := h
  exact hop

theorem State.turn.got {s : State} {r op e : Nat} {q : Req} (h : s.turn r op q e) : q.got = [] := by
  obtain ⟨-, -, -, -, -, hgot, -⟩ := h
  exact hgot

theorem State.turn.coherent {s : State} {r op e : Nat} {q : Req} (h : s.turn r op q e) : (s.ext e).coherent = false := by
  obtain ⟨-, -, -, -, -, -, -, -, -, -, -, hcoh, -⟩ := h
  exact hcoh

/-- A COMPARE or REDUCE notes the use of its pages, which changes nothing that it reads, and is answered. -/
theorem nearOp_ends {s : State} (hs : s.wf = true) {r e : Nat} {q : Req} (ht : s.turn r 0x16 q e) (h : s.nearReady e q) (tl : Nat) (src : Bool) (far : FarSource) :
    ∃ t, exec (.nearOp r .ok tl src far) s = .next t ∧ t.time = s.time ∧ t.pool.mem = s.pool.mem ∧ s.ended t r q stOk (s.nearFinds q (farBytes far)) := by
  refine ⟨_, exec_nearOp ht h tl src far, ?_⟩
  have hw := Prog.run_wf (nearTouch (s.nearReads e q)) s hs
  have htou := touches_nearTouch (s.nearReads e q) s hs
  generalize (nearTouch (s.nearReads e q)).run s = u at hw htou
  have hdst := htou.readsFreely h.dst
  have hsrc := fun y hy => htou.readsFreely (h.src y hy)
  obtain ⟨⟨_, _, _, _, rfl⟩, -⟩ := htou
  rw [nearRead_run r src (farBytes far) ht.got hdst hsrc]
  have hst := (steady_respond (far := false) r stOk (s.nearFinds q (farBytes far))).run hw
  exact ⟨hst.time, (hst.near rfl).1, respond_ended hw ht.req (by simp [ht.op])⟩

theorem State.nearFrom_eq {s : State} (e : Nat) {q : Req} (hs : q.nearSource = true) (h : (s.extAt (q.opA % 2 ^ 52)).isSome = true) :
    s.nearFrom e q = some (s.ext (q.ext2.getD e)) := by
  rw [State.nearFrom, if_neg (by simp [hs])]
  cases q.ext2 <;> simp [-Nat.reducePow, h]

theorem State.mem_nearReads_dst {s : State} (e : Nat) {q : Req} (h : 3 ≤ q.nearFn) : (s.ext e, q.addr % 2 ^ 52, q.len) ∈ s.nearReads e q := by
  rw [State.nearReads_reading h]
  exact List.mem_cons_self

theorem State.mem_nearReads_src {s : State} {e : Nat} {q : Req} {y : Ext} (h : 3 ≤ q.nearFn) (hy : s.nearFrom e q = some y) : (y, q.opA % 2 ^ 52, q.len) ∈ s.nearReads e q := by
  rw [State.nearReads_reading h, hy]
  exact List.mem_cons_of_mem _ List.mem_cons_self

theorem State.nearFinds_compare {s : State} {q : Req} (hfn : q.nearFn = 3) (hgot : q.got = []) (h : (s.extAt (q.opA % 2 ^ 52)).isSome = true) (far : List Byte) :
    s.nearFinds q far = leBytes 8 (firstDiff (s.memBytes (q.addr % 2 ^ 52) q.len) (s.memBytes (q.opA % 2 ^ 52) q.len)) := by
  have hsrc : s.nearSrc q 0 q.len far = s.memBytes (q.opA % 2 ^ 52) q.len := by
    rw [State.nearSrc]
    split
    · next hn => cases hn ▸ h
    · rw [hgot, overlay_nil, Nat.add_zero]
  rw [State.nearFinds, if_pos hfn, hsrc]

theorem State.nearFinds_reduce {s : State} {q : Req} (hfn : q.nearFn = 4) (far : List Byte) :
    s.nearFinds q far = leBytes q.asize (q.reduce (s.memBytes (q.addr % 2 ^ 52) q.len)) := by
  rw [State.nearFinds, if_neg (by simp [hfn])]

/-! ### The registers of a launched context (R356) -/

/-- The entries that a range of values writes: those other than the default. -/
def SMap.listed {α : Type} [DecidableEq α] (d : α) (lo : Nat) (vs : List α) : SMap α := ((vs.zipIdx lo).filter (fun p => decide (p.1 ≠ d))).map (fun p => (p.2, p.1))

theorem SMap.setRange_nil {α : Type} [DecidableEq α] (d : α) (lo : Nat) (vs : List α) : SMap.setRange d [] lo vs = SMap.listed d lo vs := by
  simp [SMap.setRange, SMap.listed]

theorem SMap.listed_cons_default {α : Type} [DecidableEq α] (d : α) (lo : Nat) (vs : List α) : SMap.listed d lo (d :: vs) = SMap.listed d (lo + 1) vs := by
  simp [SMap.listed, List.zipIdx_cons]

theorem SMap.listed_cons_ne {α : Type} [DecidableEq α] {d v : α} (h : v ≠ d) (lo : Nat) (vs : List α) :
    SMap.listed d lo (v :: vs) = (lo, v) :: SMap.listed d (lo + 1) vs := by
  simp [SMap.listed, List.zipIdx_cons, h]

theorem SMap.get_listed {α : Type} [DecidableEq α] (d : α) : ∀ (vs : List α) (lo i : Nat), SMap.get d (SMap.listed d lo vs) (lo + i) = vs.getD i d
  | [], _, _ => rfl
  | v :: vs, lo, 0 => by
    by_cases h : v = d
    · subst h
      have hb : SMap.find (SMap.listed v (lo + 1) vs) lo = none := SMap.find_below (Nat.lt_succ_self lo) (SMap.risingFrom_zip _ vs (lo + 1))
      simp [SMap.get, SMap.listed_cons_default, hb]
    · simp [SMap.get, SMap.listed_cons_ne h, SMap.find]
  | v :: vs, lo, i + 1 => by
    have ih := SMap.get_listed d vs (lo + 1) i
    rw [show lo + 1 + i = lo + (i + 1) by omega] at ih
    by_cases h : v = d
    · subst h
      simpa [SMap.listed_cons_default] using ih
    · rw [SMap.get, SMap.listed_cons_ne h, SMap.find, if_neg (by omega), if_neg (by omega), List.getD_cons_succ]
      exact ih

theorem SMap.listed_keys {α : Type} [DecidableEq α] {d : α} {lo : Nat} {vs : List α} {e : Nat × α} (h : e ∈ SMap.listed d lo vs) : lo ≤ e.1 ∧ e.1 < lo + vs.length := by
  simp only [SMap.listed, List.mem_map, List.mem_filter] at h
  obtain ⟨p, ⟨hp, -⟩, rfl⟩ := h
  exact ⟨List.le_snd_of_mem_zipIdx hp, by have := List.snd_lt_add_of_mem_zipIdx hp; omega⟩

theorem SMap.slice_setRange_nil {α : Type} [DecidableEq α] (d : α) (lo : Nat) (vs : List α) : SMap.slice d (SMap.setRange d [] lo vs) lo vs.length = vs := by
  have hf : (SMap.listed d lo vs).filter (fun e => decide (lo ≤ e.1) && decide (e.1 < lo + vs.length)) = SMap.listed d lo vs :=
    List.filter_eq_self.mpr fun e he => by simpa using SMap.listed_keys he
  rw [SMap.setRange_nil, SMap.slice, hf]
  refine List.ext_getElem (by simp) fun i h1 h2 => ?_
  simp [SMap.get_listed, h2]

/-- The context that a launch leaves in place of context c. -/
def State.ctxLaunched (s : State) (c n src : Nat) (args : List Byte) : Ctx :=
  { (((((s.ctx c).fresh (s.entryOf (s.ctx c))).setS 5 n).setS 6 src).setS 7 args.length).setV 0 (argLanes args) with st := .ready, issuedAt := s.eng.order + 1, monAt := s.time.now }

theorem launchCtx_run (c n src : Nat) (args : List Byte) (s : State) :
    (launchCtx c n src args).run s = (Eff.ctx c (s.ctxLaunched c n src args)).apply ((Eff.order (s.eng.order + 1)).apply s) := rfl

theorem Ctx.vr_setV {x : Ctx} (h : x.v = []) {ls : List Nat} (hl : ls.length = 64) : (x.setV 0 ls).vr 0 = ls.map (fun w => w % 2 ^ 32) := by
  have hs := SMap.slice_setRange_nil (0 : Lane) 0 (ls.map (BitVec.ofNat 32))
  rw [List.length_map, hl] at hs
  simp only [Ctx.vr, Ctx.setV, h, Nat.mul_zero, ← hl, List.take_length] at hs ⊢
  rw [hs]
  simp

theorem Ctx.sr_setS_same {x : Ctx} (h : SMap.rising x.s = true) (r v : Nat) : (x.setS r v).sr r = v % 2 ^ 64 := by
  simp [Ctx.sr, Ctx.setS, SMap.get_set_same _ h]

theorem Ctx.sr_setS_other {x : Ctx} (h : SMap.rising x.s = true) {k r : Nat} (hk : k ≠ r) (v : Nat) : (x.setS r v).sr k = x.sr k := by
  simp [Ctx.sr, Ctx.setS, SMap.get_set_other _ h hk]

theorem Ctx.rising_setS {x : Ctx} (h : SMap.rising x.s = true) (r v : Nat) : SMap.rising (x.setS r v).s = true := SMap.rising_set _ h r _

theorem Ctx.rising_fresh (x : Ctx) (pc : Nat) : SMap.rising (x.fresh pc).s = true := by
  simp only [Ctx.fresh]
  iterate 5 refine Ctx.rising_setS ?_ _ _
  rfl

theorem State.ctxLaunched_regs (s : State) (c n src : Nat) (args : List Byte) :
    (s.ctxLaunched c n src args).sr 5 = n % 2 ^ 64 ∧ (s.ctxLaunched c n src args).sr 6 = src % 2 ^ 64 ∧ (s.ctxLaunched c n src args).sr 7 = args.length % 2 ^ 64 ∧
    (s.ctxLaunched c n src args).vr 0 = (argLanes args).map (fun w => w % 2 ^ 32) := by
  have h5 := Ctx.rising_fresh (s.ctx c) (s.entryOf (s.ctx c))
  have h6 := Ctx.rising_setS h5 5 n
  have h7 := Ctx.rising_setS h6 6 src
  refine ⟨?_, ?_, Ctx.sr_setS_same h7 7 _, Ctx.vr_setV rfl (by simp [argLanes])⟩
  · exact ((Ctx.sr_setS_other h7 (by decide) _).trans (Ctx.sr_setS_other h6 (by decide) _)).trans (Ctx.sr_setS_same h5 5 n)
  · exact (Ctx.sr_setS_other h7 (by decide) _).trans (Ctx.sr_setS_same h6 6 src)

/-! ### A trigger launches or queues (R355, R356) -/

/-- The source of a trigger as a launch names it: whether it is a connection, and its number. -/
def Src.knotId : Src → Bool × Nat
  | .conn c => (true, c)
  | .ctx c _ => (false, c)
  | _ => (true, 0)

/-- How a trigger is answered. -/
def knotAnswer (r n status cause : Nat) : Prog := if status = stOk then respond r status [] else refuse r status cause n

/-- A TRIGGER is at its turn at the launch slot of an ACTIVE knot of its partition, whose program has a placed context. -/
structure State.triggers (s : State) (r : Nat) (q : Req) (n : Nat) : Prop where
  req : s.req r = some q
  op : q.op = 0x13
  resp : q.resp = false
  wait : q.wait = .none
  retry : q.retryOf = none
  order : s.inOrder r q = true
  path : s.clearPath q
  dest : q.dest = .knotWin
  slot : s.slotOf (q.addr % 2 ^ 52) = some (n, 0x40)
  free : (s.knot n).held.contains (.req r) = false
  part : s.knotPart n = some q.part
  args : q.data.length ≤ 64
  active : (s.knot n).st = .active
  enabled : s.r F.KNOT.TRIG_EN [n] = 1
  placed : s.hasInstance q.part (s.r F.KNOT.TRIG_PROG [n]) = true

theorem State.triggers.enables {s : State} {r n : Nat} {q : Req} (h : s.triggers r q n) : s.rb F.KNOT.TRIG_EN [n] = true := by
  simp [State.rb, h.enabled]

theorem slotAccess_run {s : State} {r n : Nat} {q : Req} (h : s.triggers r q n) :
    (slotAccess r n 0x40).run s = (triggerKnot n q.src.knotId.1 q.src.knotId.2 q.data (knotAnswer r n)).run s := by
  have ha := h.args
  cases hq : q.src <;> simp [slotAccess, h.req, hq, h.part, h.op, ha, List.take_of_length_le ha, Src.knotId] <;> rfl

theorem exec_trigger {s : State} {r n : Nat} {q : Req} (h : s.triggers r q n) :
    exec (.trigger r) s = .next ((triggerKnot n q.src.knotId.1 q.src.knotId.2 q.data (knotAnswer r n)).run s) := by
  show Host.Outcome.next _ = _
  rw [performReq_run _ h.req h.op h.resp h.wait h.retry h.order h.path, atDest, run_rd, h.dest, h.slot, ← slotAccess_run h]
  simp [-List.contains_eq_mem, h.free]

theorem trigger_launches {s : State} {r n c : Nat} {q : Req} (h : s.triggers r q n) (hc : s.parked q.part (s.r F.KNOT.TRIG_PROG [n]) = some c) :
    exec (.trigger r) s = .next ((respond r stOk []).run ((launchCtx c n (launchSrc q.src.knotId.1 q.src.knotId.2) q.data).run s)) := by
  rw [exec_trigger h]
  simp [triggerKnot, h.active, h.part, h.enables, h.placed, hc, knotAnswer]

/-- The launch that a trigger queues. -/
def State.queuedLaunch (s : State) (n : Nat) (q : Req) : Launch :=
  { knot := n, part := q.part, prog := s.r F.KNOT.TRIG_PROG [n], srcConn := q.src.knotId.1, srcId := q.src.knotId.2, args := q.data }

theorem trigger_queues {s : State} {r n : Nat} {q : Req} (h : s.triggers r q n) (hc : s.parked q.part (s.r F.KNOT.TRIG_PROG [n]) = none)
    (hall : s.knots.launches.length < 4096) (hpart : s.knots.launches.countP (fun l => l.part = q.part) < s.r F.KNOT_LAUNCH.MAX_QUEUED [q.part]) :
    exec (.trigger r) s = .next ((respond r stOk []).run ((Eff.launches (s.knots.launches ++ [s.queuedLaunch n q])).apply s)) := by
  rw [exec_trigger h]
  simp [triggerKnot, h.active, h.part, h.enables, h.placed, hc, knotAnswer, hall, hpart, State.queuedLaunch]

theorem launchSrc_knotId (x : Src) : launchSrc x.knotId.1 x.knotId.2 % 2 ^ 64 = (match x with | .conn k => k % 65536 | .ctx k _ => 65536 + k % 65536 | _ => 0) := by
  cases x <;> simp [launchSrc, Src.knotId] <;> omega

/-- A trigger that is answered OK has ended, and memory, contexts and knots are as before the answer. -/
theorem respond_ok {s : State} (hs : s.wf = true) {r : Nat} {q : Req} (hr : s.req r = some q) (hop : q.op = 0x13) :
    ∃ t, (respond r stOk []).run s = t ∧ t.time = s.time ∧ t.pool.mem = s.pool.mem ∧ s.ended t r q stOk [] ∧ t.eng.ctxs = s.eng.ctxs ∧ t.knots = s.knots := by
  have hst := (steady_respond (far := false) r stOk []).run hs
  obtain ⟨hmem, hctx, hknots⟩ := hst.near rfl
  exact ⟨_, rfl, hst.time, hmem, respond_ended hs hr (by simp [hop]), hctx, hknots⟩

theorem trigger_launches_ends {s : State} (hs : s.wf = true) {r n c : Nat} {q : Req} (h : s.triggers r q n) (hc : s.parked q.part (s.r F.KNOT.TRIG_PROG [n]) = some c) :
    ∃ t, exec (.trigger r) s = .next t ∧ t.time = s.time ∧ t.pool.mem = s.pool.mem ∧ s.ended t r q stOk [] ∧
      t.ctx c = s.ctxLaunched c n (launchSrc q.src.knotId.1 q.src.knotId.2) q.data := by
  have hw := Prog.run_wf (launchCtx c n (launchSrc q.src.knotId.1 q.src.knotId.2) q.data) s hs
  obtain ⟨t, rfl, ht, hm, he, hctx, -⟩ := respond_ok (r := r) hw h.req h.op
  refine ⟨_, trigger_launches h hc, ht, hm, he, ?_⟩
  rw [State.ctx, hctx, launchCtx_run]
  exact State.ctx_same (Eff.apply_wf _ s hs) c _

theorem trigger_queues_ends {s : State} (hs : s.wf = true) {r n : Nat} {q : Req} (h : s.triggers r q n) (hc : s.parked q.part (s.r F.KNOT.TRIG_PROG [n]) = none)
    (hall : s.knots.launches.length < 4096) (hpart : s.knots.launches.countP (fun l => l.part = q.part) < s.r F.KNOT_LAUNCH.MAX_QUEUED [q.part]) :
    ∃ t l, exec (.trigger r) s = .next t ∧ t.time = s.time ∧ t.pool.mem = s.pool.mem ∧ s.ended t r q stOk [] ∧ t.knots.launches = s.knots.launches ++ [l] ∧
      l.knot = n ∧ l.part = q.part ∧ l.prog = s.r F.KNOT.TRIG_PROG [n] ∧ l.args = q.data := by
  have hw := Eff.apply_wf (.launches (s.knots.launches ++ [s.queuedLaunch n q])) s hs
  obtain ⟨t, rfl, ht, hm, he, -, hk⟩ := respond_ok (r := r) hw h.req h.op
  exact ⟨_, s.queuedLaunch n q, trigger_queues h hc hall hpart, ht, hm, he, congrArg KnotSt.launches hk, rfl, rfl, rfl, rfl⟩

/-- Settles O33: COMPARE and REDUCE by `nearOp_ends`, whose ranges the hypotheses make readable at once; a trigger by its launch or its queue entry, which come before the answer and which the answer leaves. -/
theorem nearReadsAndTriggers : Obligations.NearReadsAndTriggers := by
  unfold Obligations.NearReadsAndTriggers
  intro s r q hs
  refine ⟨fun e tl src far ht hmap hlinks _ hlines hcoh hpages => ?_, fun n hr hop hresp hw hret hord hpath hd hslot hheld hpart hlen hact hen hinst => ?_⟩
  · have dst (hfn : 3 ≤ q.nearFn) : s.readsFreely (s.ext e) (q.addr % 2 ^ 52) q.len :=
      ⟨ht.coherent, hlinks _ (State.mem_nearReads_dst e hfn), hlines, hpages⟩
    refine ⟨fun h3 hin hsl hsp => ?_, fun h4 => ?_⟩
    · have hfrom := State.nearFrom_eq e (by simp [Req.nearSource, h3, ht.op]) hin
      have hsrc : s.readsFreely (s.ext (q.ext2.getD e)) (q.opA % 2 ^ 52) q.len := ⟨hcoh, hlinks _ (State.mem_nearReads_src (Nat.le_of_eq h3.symm) hfrom), hsl, hsp⟩
      rw [← State.nearFinds_compare h3 ht.got hin (farBytes far)]
      exact nearOp_ends hs ht ⟨hmap, .inl h3, dst (Nat.le_of_eq h3.symm), fun y hy => Option.some.inj (hfrom.symm.trans hy) ▸ hsrc, fun _ => Option.isSome_of_eq_some hfrom⟩ tl src far
    · have hfrom : s.nearFrom e q = none := by simp [State.nearFrom, Req.nearSource, h4]
      rw [← State.nearFinds_reduce h4 (farBytes far)]
      exact nearOp_ends hs ht ⟨hmap, .inr h4, dst (by omega), fun y hy => by simp [hfrom] at hy, fun h3 => by omega⟩ tl src far
  · have h : s.triggers r q n := ⟨hr, hop, hresp, hw, hret, hord, hpath, hd, hslot, hheld, hpart, hlen, hact, hen, hinst⟩
    refine ⟨fun c hc => ?_, fun hc hall hmax => trigger_queues_ends hs h hc hall hmax⟩
    obtain ⟨t, hx, ht, hm, he, hctx⟩ := trigger_launches_ends hs h hc
    obtain ⟨h5, h6, h7, hv⟩ := s.ctxLaunched_regs c n (launchSrc q.src.knotId.1 q.src.knotId.2) q.data
    refine ⟨t, hx, ht, hm, he, ?_⟩
    rw [hctx]
    exact ⟨rfl, rfl, h5, h6.trans (launchSrc_knotId _), h7.trans (Nat.mod_eq_of_lt (by omega)), hv⟩

end Sys2Proof.Machine
end

section
namespace Sys2Proof.Machine
open Sys2Proof

/-! ### Numbers of the model as words (R13, R232)

The model counts in `Nat` and reads signed values with `sext`; the statements about scalar instructions speak of 64-bit words. Each function of the model is tied to the word operation once, here. -/

/-- The two's complement reading of a number is that of the word it makes. -/
theorem sext_eq_toInt {w : Nat} (hw : 0 < w) (v : Nat) : sext w v = (BitVec.ofNat w v).toInt := by
  have hp : 2 ^ (w - 1) + 2 ^ (w - 1) = 2 ^ w := Nat.two_pow_pred_add_two_pow_pred hw
  simp only [sext, BitVec.toInt_eq_toNat_cond, BitVec.toNat_ofNat]
  congr 1
  exact propext (by omega)

theorem sext_toNat {w : Nat} (hw : 0 < w) (A : BitVec w) : sext w A.toNat = A.toInt := by
  rw [sext_eq_toInt hw, BitVec.ofNat_toNat, BitVec.setWidth_eq]

/-- The signed reading of a register. -/
@[simp] theorem sext_word (A : Word) : sext 64 A.toNat = A.toInt := sext_toNat (by decide) A

theorem wrap_eq_toNat (w : Nat) (n : Int) : wrap w n = (BitVec.ofInt w n).toNat := (BitVec.toNat_ofInt n).symm

/-- A wrapped integer as a word. -/
@[simp] theorem ofNat_wrap (w : Nat) (n : Int) : BitVec.ofNat w (wrap w n) = BitVec.ofInt w n := by
  rw [wrap_eq_toNat, BitVec.ofNat_toNat, BitVec.setWidth_eq]

@[simp] theorem ofNat_toNat_word (A : Word) : BitVec.ofNat 64 A.toNat = A := by rw [BitVec.ofNat_toNat, BitVec.setWidth_eq]

theorem toNat_eq_zero_word {A : Word} : A.toNat = 0 ↔ A = 0 := by
  rw [← BitVec.toNat_inj]; rfl

theorem toInt_eq_zero_word {A : Word} : A.toInt = 0 ↔ A = 0 := by
  rw [← BitVec.toInt_inj]; rfl

/-- Signed division truncates, and by zero gives all ones (R232). -/
theorem ofNat_divS (A B : Word) : BitVec.ofNat 64 (divS 64 A.toNat B.toNat) = if B = 0 then -1 else A.sdiv B := by
  simp only [divS, sext_word, toInt_eq_zero_word]
  split
  · rfl
  · rw [ofNat_wrap]
    apply BitVec.eq_of_toInt_eq
    rw [BitVec.toInt_ofInt, BitVec.toInt_sdiv]

/-- Signed remainder has the sign of the dividend, and by zero gives the dividend (R232). -/
theorem ofNat_remS (A B : Word) : BitVec.ofNat 64 (remS 64 A.toNat B.toNat) = if B = 0 then A else A.srem B := by
  simp only [remS, sext_word, toInt_eq_zero_word]
  split
  · exact ofNat_toNat_word A
  · rw [ofNat_wrap, ← BitVec.toInt_srem, BitVec.ofInt_toInt]

/-- An arithmetic shift divides by a power of two and rounds down. -/
theorem ofInt_div_pow (A : Word) (n : Nat) : BitVec.ofInt 64 (A.toInt / (2 ^ n : Nat)) = A.sshiftRight n := by
  rw [BitVec.sshiftRight, Int.shiftRight_eq_div_pow]

/-- Unsigned division, by zero all ones (R232). -/
theorem ofNat_divU (A B : Word) : BitVec.ofNat 64 (if B.toNat = 0 then 2 ^ 64 - 1 else A.toNat / B.toNat) = BitVec.smtUDiv A B := by
  by_cases h : B = 0
  · rw [h]; rfl
  · rw [if_neg (mt toNat_eq_zero_word.mp h), BitVec.smtUDiv, if_neg h]; exact ofNat_toNat_word (A / B)

/-- Unsigned remainder, by zero the dividend (R232). -/
theorem ofNat_remU (A B : Word) : BitVec.ofNat 64 (if B.toNat = 0 then A.toNat else A.toNat % B.toNat) = A % B := by
  rw [← ofNat_toNat_word (A % B), BitVec.toNat_umod]
  split
  case isTrue h => rw [h, Nat.mod_zero]
  case isFalse => rfl

theorem ofNat_shl (A : Word) (n : Nat) : BitVec.ofNat 64 (if 64 ≤ n then 0 else A.toNat * 2 ^ n % 2 ^ 64) = if 64 ≤ n then 0 else A <<< n := by
  split
  · rfl
  · rw [← Nat.shiftLeft_eq, ← BitVec.toNat_shiftLeft]; exact ofNat_toNat_word _

theorem ofNat_shr (A : Word) (n : Nat) : BitVec.ofNat 64 (if 64 ≤ n then 0 else A.toNat / 2 ^ n) = if 64 ≤ n then 0 else A >>> n := by
  split
  · rfl
  · rw [← Nat.shiftRight_eq_div_pow, ← BitVec.toNat_ushiftRight]; exact ofNat_toNat_word _

theorem ofNat_sub_word (A B : Word) : BitVec.ofNat 64 ((A.toNat + 2 ^ 64 - B.toNat) % 2 ^ 64) = A - B := by
  rw [← ofNat_toNat_word (A - B), BitVec.toNat_sub]
  congr 2
  omega

/-- The results of s.alu by FN, as words (R270). -/
def aluWords (A B : Word) : List Word :=
  [A + B, A - B, A * B, BitVec.ofNat 64 (A.toNat * B.toNat / 2 ^ 64), BitVec.ofInt 64 (A.toInt * B.toInt / 2 ^ 64), BitVec.smtUDiv A B,
    (if B = 0 then -1 else A.sdiv B), A % B, (if B = 0 then A else A.srem B), A &&& B, A ||| B, A ^^^ B, (if 64 ≤ B.toNat then 0 else A <<< B.toNat),
    (if 64 ≤ B.toNat then 0 else A >>> B.toNat), A.sshiftRight (min B.toNat 63), B]

/-- The model's s.alu gives the word operation of each FN: one goal for each branch of `sAlu`, in the order of FN. -/
theorem aluWords_get (A B : Word) (fn : Nat) (hfn : fn < 16) : (aluWords A B)[fn]? = some (BitVec.ofNat 64 (sAlu fn A.toNat B.toNat)) := by
  unfold sAlu
  split
  · exact congrArg some (by rw [← BitVec.toNat_add, ofNat_toNat_word])
  · exact congrArg some (by rw [ofNat_sub_word])
  · exact congrArg some (by rw [← BitVec.toNat_mul, ofNat_toNat_word])
  · rfl
  · exact congrArg some (by rw [sext_word, sext_word, ofNat_wrap, Int.natCast_pow, Int.cast_ofNat_Int])
  · exact congrArg some (by rw [ofNat_divU])
  · exact congrArg some (by rw [ofNat_divS])
  · exact congrArg some (by rw [ofNat_remU])
  · exact congrArg some (by rw [ofNat_remS])
  · exact congrArg some (by rw [← BitVec.toNat_and, ofNat_toNat_word])
  · exact congrArg some (by rw [← BitVec.toNat_or, ofNat_toNat_word])
  · exact congrArg some (by rw [← BitVec.toNat_xor, ofNat_toNat_word])
  · exact congrArg some (by rw [ofNat_shl])
  · exact congrArg some (by rw [ofNat_shr])
  · exact congrArg some (by rw [sext_word, ofNat_wrap, ofInt_div_pow])
  · have h15 : fn = 15 := by grind
    subst h15
    exact congrArg some (by rw [ofNat_toNat_word])

/-- The results of s.cmp by FN, as words (R270). -/
def cmpWords (A B : Word) : List Word :=
  [(if A = B then 1 else 0), (if A = B then 0 else 1), (if A.toNat < B.toNat then 1 else 0), (if A.toInt < B.toInt then 1 else 0),
    (if A.toNat ≤ B.toNat then 1 else 0), (if A.toInt ≤ B.toInt then 1 else 0), (if A.toNat ≤ B.toNat then A else B),
    (if A.toInt ≤ B.toInt then A else B), (if A.toNat ≤ B.toNat then B else A), (if A.toInt ≤ B.toInt then B else A)]

/-- A relation's result as a word. -/
theorem ofNat_b2n (p : Prop) [Decidable p] : BitVec.ofNat 64 (b2n (decide p)) = if p then 1 else 0 := by
  by_cases h : p <;> simp [b2n, h]

/-- A choice between two registers as a word. -/
theorem ofNat_ite_word (p : Prop) [Decidable p] (A B : Word) : BitVec.ofNat 64 (if p then A.toNat else B.toNat) = if p then A else B := by
  split <;> exact ofNat_toNat_word _

/-- The model's s.cmp gives the relation or the choice of each FN. -/
theorem cmpWords_get (A B : Word) : ∀ fn, fn < 10 → (cmpWords A B)[fn]? = some (BitVec.ofNat 64 (sCmp fn A.toNat B.toNat))
  | 0, _ => congrArg some (by simp only [sCmp, ofNat_b2n, BitVec.toNat_inj])
  | 1, _ => congrArg some (by simp only [sCmp, ofNat_b2n, ne_eq, BitVec.toNat_inj, ite_not])
  | 2, _ => congrArg some (by rw [sCmp, ofNat_b2n])
  | 3, _ => congrArg some (by simp only [sCmp, ofNat_b2n, sext_word])
  | 4, _ => congrArg some (by rw [sCmp, ofNat_b2n])
  | 5, _ => congrArg some (by simp only [sCmp, ofNat_b2n, sext_word])
  | 6, _ => congrArg some (by rw [sCmp, Nat.min_def, ofNat_ite_word])
  | 7, _ => congrArg some (by simp only [sCmp, sext_word, ofNat_ite_word])
  | 8, _ => congrArg some (by rw [sCmp, Nat.max_def, ofNat_ite_word])
  | 9, _ => congrArg some (by simp only [sCmp, sext_word, ofNat_ite_word])
  | _ + 10, h => absurd h (by omega)

/-! ### Operands of a scalar instruction -/

/-- The second operand is the word that the statement names (R270). -/
theorem Ins.b_eq_bw (i : Ins) (x : Ctx) : i.b x = (i.bw x).toNat := by
  unfold Ins.b Ins.bw
  split
  · rw [wrap_eq_toNat, sext_eq_toInt (by decide), BitVec.signExtend]
  · rfl

/-- A scalar register takes a number to 64 bits. -/
theorem Ctx.setS_ofNat (x : Ctx) (r v : Nat) : x.setS r (BitVec.ofNat 64 v).toNat = x.setS r v := by
  rw [Ctx.setS, ofNat_toNat_word, Ctx.setS]

theorem Ctx.vr_length (x : Ctx) (r : Nat) : (x.vr r).length = 64 := by simp [Ctx.vr, SMap.slice]

/-- One lane replaced, said lane by lane (R271). -/
theorem Ctx.vr_set (x : Ctx) (r k v : Nat) : (x.vr r).set k v = (List.range 64).map (fun l => if l = k then v else x.lane r l) := by
  apply List.ext_getElem
  · simp [Ctx.vr_length]
  · intro l h1 h2
    have hl : l < (x.vr r).length := by simpa using h1
    simp [List.getElem_set, Ctx.lane, hl, eq_comm]

/-- A condition of bc that the statement calls taken (R272). -/
theorem bcTaken_true {fn : Nat} {A : Word} (h : fn = 0 ∧ A = 0 ∨ fn = 1 ∧ A ≠ 0 ∨ fn = 2 ∧ A.toInt < 0 ∨ fn = 3 ∧ 0 ≤ A.toInt) : bcTaken fn A.toNat = true := by
  rcases h with ⟨rfl, h⟩ | ⟨rfl, h⟩ | ⟨rfl, h⟩ | ⟨rfl, h⟩ <;> simpa only [bcTaken, sext_word, decide_eq_true_eq, ne_eq, toNat_eq_zero_word] using h

/-- A condition of bc that fails (R272). -/
theorem bcTaken_false {fn : Nat} {A : Word} (h : fn = 0 ∧ A ≠ 0 ∨ fn = 1 ∧ A = 0 ∨ fn = 2 ∧ 0 ≤ A.toInt ∨ fn = 3 ∧ A.toInt < 0) : bcTaken fn A.toNat = false := by
  rcases h with ⟨rfl, h⟩ | ⟨rfl, h⟩ | ⟨rfl, h⟩ | ⟨rfl, h⟩ <;>
    simpa only [bcTaken, sext_word, decide_eq_false_iff_not, ne_eq, Decidable.not_not, Int.not_lt, Int.not_le, toNat_eq_zero_word] using h

/-- A condition of bp that the statement calls taken (R272). -/
theorem bpTaken_true {fn p : Nat} (h : fn = 0 ∧ p ≠ 0 ∨ fn = 1 ∧ p = 0 ∨ fn = 2 ∧ p = 2 ^ 64 - 1) : bpTaken fn p = true := by
  rcases h with ⟨rfl, h⟩ | ⟨rfl, h⟩ | ⟨rfl, h⟩ <;> exact decide_eq_true h

/-- A condition of bp that fails (R272). -/
theorem bpTaken_false {fn p : Nat} (h : fn = 0 ∧ p = 0 ∨ fn = 1 ∧ p ≠ 0 ∨ fn = 2 ∧ p ≠ 2 ^ 64 - 1) : bpTaken fn p = false := by
  rcases h with ⟨rfl, h⟩ | ⟨rfl, h⟩ | ⟨rfl, h⟩ <;> simpa only [bpTaken, decide_eq_false_iff_not, ne_eq, Decidable.not_not] using h

/-- A compute die stamps the time of its own shadow counter (R37). -/
@[simp] theorem State.timeOf_srcEng (s : State) (d : Nat) : s.timeOf (srcEng d) = s.shadow d := by
  unfold State.timeOf srcEng
  rw [if_neg (by omega), if_neg (by omega), if_neg (by omega), if_pos (by omega), Nat.add_sub_cancel_left]

/-! ### Issue (R198, R216) -/

/-- The state in which an issued instruction acts: its credit paid and its place in the order of issue taken. -/
def State.issued (s : State) (c : Nat) (i : Ins) : State := (Eff.order (s.eng.order + 1)).apply ((payCredit c i).run s)

/-- Issue takes credit and a place in the order, and nothing else. -/
theorem State.issued_eq (s : State) (c : Nat) (i : Ins) :
    ∃ m v, s.issued c i = { s with eng := { s.eng with mcred := m, vcred := v, order := s.eng.order + 1 } } := by
  unfold State.issued payCredit
  rw [run_rd]
  split
  · exact ⟨_, _, rfl⟩
  · split
    · exact ⟨_, _, rfl⟩
    · split <;> exact ⟨_, _, rfl⟩

theorem State.issued_wf {s : State} (hs : s.wf = true) (c : Nat) (i : Ins) : (s.issued c i).wf = true :=
  Eff.apply_wf _ _ (Prog.run_wf _ _ hs)

/-- A context that is about to issue an instruction issues it. -/
theorem issue_run {s : State} {c op : Nat} {i : Ins} (h : s.atIns c op i) (body : Ctx → Ins → Prog) :
    (issue op c body).run s = (body (s.ctx c) i).run (s.issued c i) := by
  obtain ⟨hst, hhalt, hzero, hsvc, hxsvc, hrun, hfetch, hop, hbusy, hcredit⟩ := h
  simp [issue, State.issued, hst, hhalt, hzero, hsvc, hxsvc, hrun, hfetch, hop, hbusy, hcredit]

/-! ### What a context may change by itself -/

/-- A written context is the only one changed. -/
theorem State.onlyCtx_write {s : State} (hs : s.wf = true) (c : Nat) (y : Ctx) : s.onlyCtx ((Eff.ctx c y).apply s) c :=
  ⟨fun p hp => Eff.apply_same (.ctx c y) p hp s, fun _ hd => State.ctx_other hs hd y, rfl, rfl, rfl, rfl, rfl⟩

theorem State.onlyCtx.trans {s u t : State} {c : Nat} (h : s.onlyCtx u c) (k : u.onlyCtx t c) : s.onlyCtx t c := by
  obtain ⟨hkeep, hctx, hscr, hclu, hops, hprogs, hcode⟩ := h
  obtain ⟨kkeep, kctx, kscr, kclu, kops, kprogs, kcode⟩ := k
  exact ⟨fun p hp => Part.same_trans (kkeep p hp) (hkeep p hp), fun d hd => (kctx d hd).trans (hctx d hd), kscr.trans hscr, kclu.trans hclu, kops.trans hops,
    kprogs.trans hprogs, kcode.trans hcode⟩

/-- Issue changes no context. -/
theorem State.onlyCtx_issued (s : State) (c : Nat) (i : Ins) : s.onlyCtx (s.issued c i) c := by
  obtain ⟨m, v, e⟩ := s.issued_eq c i
  rw [e]
  refine ⟨fun p hp => ?_, fun _ _ => rfl, rfl, rfl, rfl, rfl, rfl⟩
  cases p
  case eng => simp at hp
  all_goals rfl

/-- An issued instruction that only writes its context changed that context only. -/
theorem State.onlyCtx_issued_write {s : State} (hs : s.wf = true) (c : Nat) (i : Ins) (y : Ctx) : s.onlyCtx ((Eff.ctx c y).apply (s.issued c i)) c :=
  (s.onlyCtx_issued c i).trans (State.onlyCtx_write (State.issued_wf hs c i) c y)

section
variable {s : State} {c op : Nat} {i : Ins}

@[simp] theorem State.issued_order : (s.issued c i).eng.order = s.eng.order + 1 := rfl

@[simp] theorem State.issued_now : (s.issued c i).time.now = s.time.now := by
  obtain ⟨m, v, e⟩ := s.issued_eq c i
  rw [e]

@[simp] theorem State.issued_ctx (d : Nat) : (s.issued c i).ctx d = s.ctx d := by
  obtain ⟨m, v, e⟩ := s.issued_eq c i
  rw [e]; rfl

@[simp] theorem State.issued_progs : (s.issued c i).eng.progs = s.eng.progs := by
  obtain ⟨m, v, e⟩ := s.issued_eq c i
  rw [e]

@[simp] theorem State.issued_opsOf (d : Nat) : (s.issued c i).opsOf d = s.opsOf d := by
  obtain ⟨m, v, e⟩ := s.issued_eq c i
  rw [e]; rfl

@[simp] theorem State.issued_r (f : Fld) (ix : List Nat) : (s.issued c i).r f ix = s.r f ix := by
  obtain ⟨m, v, e⟩ := s.issued_eq c i
  rw [e]; rfl

/-! ### An issued instruction retires or branches (R253, R272) -/

/-- What retiring leaves. -/
theorem retire_run (y : Ctx) :
    (retire c i y).run (s.issued c i) = (Eff.ctx c { y with pc := y.pc + i.len, issuedAt := s.eng.order + 1, monAt := s.time.now }).apply (s.issued c i) := by
  simp [retire]

theorem issue_retires {body : Ctx → Ins → Prog} {y : Ctx} (hs : s.wf = true) (h : s.atIns c op i) (hb : body (s.ctx c) i = retire c i y) :
    s.retired ((issue op c body).run s) c i y := by
  rw [issue_run h, hb, retire_run]
  exact ⟨State.onlyCtx_issued_write hs c i _, State.ctx_same (State.issued_wf hs c i) c _⟩

/-- A branch to an instruction start goes there. -/
theorem branchTo_run {y : Ctx} {a : Int} (hy : y.prog = (s.ctx c).prog) (ha : s.startAt c a) :
    (branchTo c y a).run (s.issued c i) = (Eff.ctx c { y with pc := a.toNat, issuedAt := s.eng.order + 1, monAt := s.time.now }).apply (s.issued c i) := by
  obtain ⟨p, hp, h0, hmem⟩ := ha
  rw [← hy] at hp
  simp [branchTo, hp, h0, hmem]

/-- A branch to anything else faults (R254). -/
theorem branchTo_run_fault {y : Ctx} {a : Int} (hy : y.prog = (s.ctx c).prog) (ha : ¬ s.startAt c a) :
    (branchTo c y a).run (s.issued c i) = (syncFault c 0x501 stDenied).run (s.issued c i) := by
  unfold State.startAt at ha
  rw [← hy] at ha
  cases hp : SMap.get none s.eng.progs y.prog with
  | none => simp [branchTo, hp]
  | some p =>
    have hbad : ¬ (0 ≤ a ∧ a.toNat ∈ p.starts) := fun h => ha ⟨p, hp, h⟩
    simp [branchTo, hp, hbad]

theorem issue_branches {body : Ctx → Ins → Prog} {y : Ctx} {a : Int} (hs : s.wf = true) (h : s.atIns c op i) (hb : body (s.ctx c) i = branchTo c y a)
    (hy : y.prog = (s.ctx c).prog) (ha : s.startAt c a) : s.branched ((issue op c body).run s) c y a.toNat := by
  rw [issue_run h, hb, branchTo_run hy ha]
  exact ⟨State.onlyCtx_issued_write hs c i _, State.ctx_same (State.issued_wf hs c i) c _⟩

/-! ### Faults (R257) -/

@[simp] theorem log_eng (r : LogRec) : ((log r).run s).eng = s.eng := Prog.run_same (q := .eng) (by decide) _ (within_log r) s
@[simp] theorem log_time (r : LogRec) : ((log r).run s).time = s.time := Prog.run_same (q := .time) (by decide) _ (within_log r) s
@[simp] theorem log_ctx (r : LogRec) (d : Nat) : ((log r).run s).ctx d = s.ctx d := by rw [State.ctx, log_eng, State.ctx]

/-- What a fault keeps in its context: the status and the number of its record. -/
def State.ctxAtFault (s : State) (c status : Nat) : Ctx := { s.ctx c with rid := s.nextRid (srcEng (ctxDie c)), last := status, halting := false }

/-- A fault that stays writes one record and leaves its context FAULTED. -/
theorem syncFault_run (hs : s.wf = true) (hstay : s.faultStays c) (cause status : Nat) : ∃ r : LogRec, r.cause = cause ∧ (syncFault c cause status).run s =
    (Eff.ctx c { s.ctxAtFault c status with st := .faulted }).apply ((log r).run ((Eff.ctx c (s.ctxAtFault c status)).apply s)) := by
  obtain ⟨hrearm, hfence⟩ := hstay
  have hrb : s.rb F.CROWN_HEALTH.FENCED [ctxEng c] = false := by simp [State.rb, hfence]
  refine ⟨{ src := srcEng (ctxDie c), cause := cause, sev := 2, status := status, ctx := some c, part := some (s.ctx c).part, pc := (s.ctx c).pc }, rfl, ?_⟩
  have hra : ¬ (s.ctx c).autoRearm = true := by simp [hrearm]
  simp only [syncFault, faultCtx, run_rd, Prog.run_all_cons, Prog.run_all_nil, Prog.run_eff, hrb, Bool.false_eq_true, if_false]
  rw [if_neg hra, run_rd, Prog.run_eff, log_ctx, State.ctx_same hs]
  rfl

theorem syncFault_faults (hs : s.wf = true) (hstay : s.faultStays c) (cause status : Nat) : s.faults ((syncFault c cause status).run s) c cause status := by
  obtain ⟨r, hr, hrun⟩ := syncFault_run hs hstay cause status
  have hw : ((log r).run ((Eff.ctx c (s.ctxAtFault c status)).apply s)).wf = true := Prog.run_wf _ _ (Eff.apply_wf _ _ hs)
  rw [hrun]
  refine ⟨by simp, State.ctx_same hw c _, fun d hd => ?_, by simp, by simp, by simp, ?_⟩
  · rw [State.ctx_other hw hd, log_ctx, State.ctx_other hs hd]
  · simp [State.causes, State.records, State.stamp, hr]

/-- A fault at issue is a fault of the state before: issue touches nothing that the fault speaks of. -/
theorem State.faults_of_issued {t : State} {cause status : Nat} (h : (s.issued c i).faults t c cause status) : s.faults t c cause status := by
  obtain ⟨m, v, e⟩ := s.issued_eq c i
  rw [e] at h
  exact h

theorem issue_branch_faults {body : Ctx → Ins → Prog} {y : Ctx} {a : Int} (hs : s.wf = true) (h : s.atIns c op i) (hb : body (s.ctx c) i = branchTo c y a)
    (hy : y.prog = (s.ctx c).prog) (hstay : s.faultStays c) (ha : ¬ s.startAt c a) : s.faults ((issue op c body).run s) c 0x501 stDenied := by
  have hstay' : (s.issued c i).faultStays c := by simpa [State.faultStays] using hstay
  rw [issue_run h, hb, branchTo_run_fault hy ha]
  exact State.faults_of_issued (syncFault_faults (State.issued_wf hs c i) hstay' 0x501 stDenied)

/-! ### halt (R214, R273) -/

/-- A written context has the operations in flight that it had. -/
@[simp] theorem State.opsOf_write (d : Nat) (y : Ctx) : ((Eff.ctx c y).apply s).opsOf d = s.opsOf d := rfl

/-- A halting context with nothing in flight is DONE. -/
theorem haltCheck_done (hst : (s.ctx c).st = .ready) (hh : (s.ctx c).halting = true) (ho : s.opsOf c = []) (hm : (s.ctx c).mode = false)
    (hf : s.r F.CROWN_HEALTH.FENCED [ctxEng c] = 0) : (haltCheck c).run s = (Eff.ctx c { s.ctx c with st := .done, halting := false }).apply s := by
  simp [haltCheck, State.rb, hst, hh, ho, hm, hf]

/-- A halting context with an operation in flight waits for it. -/
theorem haltCheck_waits (ho : s.opsOf c ≠ []) : (haltCheck c).run s = s := by
  simp [haltCheck, ho]

theorem halt_done (hs : s.wf = true) (h : s.atIns c 0x16 i) (hf : s.r F.CROWN_HEALTH.FENCED [ctxEng c] = 0) (ho : s.opsOf c = []) (hm : (s.ctx c).mode = false) :
    ∃ t, exec (.iHalt c) s = .next t ∧ s.retired t c i { s.ctx c with st := .done } := by
  have ⟨hst, hh, _⟩ := h
  have hw := State.issued_wf hs c i
  refine ⟨_, rfl, ?_⟩
  rw [issue_run h, Prog.run_all_cons, Prog.run_all_cons, Prog.run_all_nil, retire_run,
    haltCheck_done (by simp [hw, hst]) (by simp [hw]) (by simp [ho]) (by simp [hw, hm]) (by simp [hf])]
  refine ⟨(State.onlyCtx_issued_write hs c i _).trans (State.onlyCtx_write (by simp [hw]) c _), ?_⟩
  simp [hw, hh]

theorem halt_waits (hs : s.wf = true) (h : s.atIns c 0x16 i) (ho : s.opsOf c ≠ []) :
    ∃ t, exec (.iHalt c) s = .next t ∧ s.retired t c i { s.ctx c with halting := true } := by
  refine ⟨_, rfl, ?_⟩
  rw [issue_run h, Prog.run_all_cons, Prog.run_all_cons, Prog.run_all_nil, retire_run, haltCheck_waits (by simpa using ho)]
  exact ⟨State.onlyCtx_issued_write hs c i _, State.ctx_same (State.issued_wf hs c i) c _⟩

/-! ### The instructions (R207, R270 to R274) -/

theorem alu_acts (hs : s.wf = true) (h : s.atIns c 0x00 i) (hfn : i.fn < 16) : ∃ t r, exec (.iSAlu c) s = .next t ∧
    s.retired t c i ((s.ctx c).setS i.dst (BitVec.toNat r)) ∧ (aluWords ((s.ctx c).sw i.sa) (i.bw (s.ctx c)))[i.fn]? = some r :=
  ⟨_, _, rfl, issue_retires hs h (by rw [Ctx.setS_ofNat, Ins.b_eq_bw]; rfl), aluWords_get _ _ _ hfn⟩

theorem cmp_acts (hs : s.wf = true) (h : s.atIns c 0x01 i) (hfn : i.fn < 10) : ∃ t r, exec (.iSCmp c) s = .next t ∧
    s.retired t c i ((s.ctx c).setS i.dst (BitVec.toNat r)) ∧ (cmpWords ((s.ctx c).sw i.sa) (i.bw (s.ctx c)))[i.fn]? = some r :=
  ⟨_, _, rfl, issue_retires hs h (by rw [Ctx.setS_ofNat, Ins.b_eq_bw]; rfl), cmpWords_get _ _ _ hfn⟩

theorem getl_acts (hs : s.wf = true) (h : s.atIns c 0x03 i) : ∃ t, exec (.iSGetl c) s = .next t ∧
    s.retired t c i ((s.ctx c).setS i.dst ((s.ctx c).lane i.sa ((i.bw (s.ctx c)).toNat % 64))) :=
  ⟨_, rfl, issue_retires hs h (by rw [Ins.b_eq_bw, Ctx.lane, List.getD_eq_getElem?_getD])⟩

theorem setl_acts (hs : s.wf = true) (h : s.atIns c 0x04 i) : ∃ t, exec (.iSSetl c) s = .next t ∧
    s.retired t c i ((s.ctx c).setV i.dst ((List.range 64).map fun l => if l = (i.bw (s.ctx c)).toNat % 64 then ((s.ctx c).sw i.sa).toNat % 2 ^ 32 else (s.ctx c).lane i.dst l)) :=
  ⟨_, rfl, issue_retires hs h (by rw [Ins.b_eq_bw, Ctx.vr_set]; rfl)⟩

theorem bc_branches (hs : s.wf = true) (h : s.atIns c 0x11 i) (ht : bcTaken i.fn ((s.ctx c).sr i.sa) = true) (ha : s.startAt c (i.near (s.ctx c))) :
    ∃ t, exec (.iBc c) s = .next t ∧ s.branched t c (s.ctx c) (i.near (s.ctx c)).toNat :=
  ⟨_, rfl, issue_branches hs h (if_pos ht) rfl ha⟩

theorem bc_retires (hs : s.wf = true) (h : s.atIns c 0x11 i) (ht : bcTaken i.fn ((s.ctx c).sr i.sa) = false) :
    ∃ t, exec (.iBc c) s = .next t ∧ s.retired t c i (s.ctx c) :=
  ⟨_, rfl, issue_retires hs h (if_neg (by simp [ht]))⟩

theorem bp_branches (hs : s.wf = true) (h : s.atIns c 0x12 i) (ht : bpTaken i.fn ((s.ctx c).pr i.sa) = true) (ha : s.startAt c (i.near (s.ctx c))) :
    ∃ t, exec (.iBp c) s = .next t ∧ s.branched t c (s.ctx c) (i.near (s.ctx c)).toNat :=
  ⟨_, rfl, issue_branches hs h (if_pos ht) rfl ha⟩

theorem bp_retires (hs : s.wf = true) (h : s.atIns c 0x12 i) (ht : bpTaken i.fn ((s.ctx c).pr i.sa) = false) :
    ∃ t, exec (.iBp c) s = .next t ∧ s.retired t c i (s.ctx c) :=
  ⟨_, rfl, issue_retires hs h (if_neg (by simp [ht]))⟩

end

/-- Settles O50: each instruction issues, and its body retires it with its destination written, goes to its target, faults, or halts. -/
theorem scalarInstructionsAct : Obligations.ScalarInstructionsAct := by
  unfold Obligations.ScalarInstructionsAct
  rintro c i s x A B near hs rfl rfl rfl rfl
  refine ⟨alu_acts hs, cmp_acts hs, fun h => ⟨_, rfl, issue_retires hs h rfl⟩, getl_acts hs, setl_acts hs, fun ha => ⟨?br, ?bc, ?bp, ?call⟩, ?bcNot, ?bpNot, ?brL, ?jr, ?jrFault, ?halt,
    ?capRd, fun h => ⟨_, rfl, issue_retires hs h rfl⟩, fun h => ⟨_, rfl, issue_retires hs h rfl⟩, ?timeRd⟩
  case br => exact fun h => ⟨_, rfl, issue_branches hs h rfl rfl ha⟩
  case bc => exact fun h ht => bc_branches hs h (bcTaken_true ht) ha
  case bp => exact fun h ht => bp_branches hs h (bpTaken_true ht) ha
  case call => exact fun h => ⟨_, rfl, issue_branches hs h rfl rfl ha⟩
  case bcNot => exact fun h ht => bc_retires hs h (bcTaken_false ht)
  case bpNot => exact fun h ht => bp_retires hs h (bpTaken_false ht)
  case brL => exact fun h ha => ⟨_, rfl, issue_branches hs h rfl rfl ha⟩
  case jr => exact fun h ha => ⟨_, rfl, issue_branches hs h rfl rfl ha⟩
  case jrFault => exact fun h hstay ha => ⟨_, rfl, issue_branch_faults hs h rfl rfl hstay ha⟩
  case halt => exact fun h hf => ⟨halt_done hs h hf, halt_waits hs h⟩
  case capRd => exact fun h => ⟨_, rfl, issue_retires hs h (by rw [Ins.b_eq_bw])⟩
  case timeRd => exact fun h => ⟨_, rfl, issue_retires hs h (by rw [State.timeOf_srcEng])⟩

end Sys2Proof.Machine
end
